-- ==== Sys2Proof/Word.lean ====
section
/-!
DEFINITION. The word types of the CM2940 and their plainest arithmetic.

The spec numbers bits from 0, the least significant (R10), and names a register, a buffer word and an address by 64 bits
(R12, R16). A physical location (a byte of a slice, of a core's buffer or of a pool frame) is a plain natural number.
-/

namespace Sys2Proof

/-- A 64-bit word: a register, a buffer word, an address (R12). -/
abbrev Word := BitVec 64

/-- A byte of memory (R11). -/
abbrev Byte := BitVec 8

/-- A 32-bit word of an instruction (R12). -/
abbrev IWord := BitVec 32

/-- A scalar register number, `w0` to `w63` (R243). -/
abbrev Reg := BitVec 6

/-- A vector register number, `v0` to `v31` (R243). -/
abbrev VReg := BitVec 5

/-- A mask register number, `k0` to `k7` (R243). -/
abbrev KReg := BitVec 3

/-- A stall count S (R242). -/
abbrev Stall := BitVec 3

/-- A site of the package: die × 1,024 + y × 32 + x, which is also the order of the logical core numbers (R3, R6). -/
abbrev Site := Nat

namespace Site

/-- The die of a site, 0 to 3 (R1). -/
def die (c : Site) : Nat := c / 1024

/-- The row y of a site (R3). -/
def y (c : Site) : Nat := c / 32 % 32

/-- The column x of a site (R3). -/
def x (c : Site) : Nat := c % 32

/-- The site at a die, column and row (R3). -/
def mk (die x y : Nat) : Site := die * 1024 + y * 32 + x

/-- The cluster of a site: eight adjacent sites of one row (R5). -/
def cluster (c : Site) : Nat := c / 8

/-- Q-rows are the rows with y mod 4 = 3 (R3, R329). -/
def isQ (c : Site) : Bool := Site.y c % 4 == 3

end Site

end Sys2Proof
end

