-- ==== Sys2Proof/Config.lean ====
section
/-!
DEFINITION. What an implementation fixes and what the spec leaves open. A constant here has no body: nothing can be
proved about its value, and a claim that mentions it holds whatever it is. Every one is named in a log entry.
-/

namespace Sys2Proof.Config

/-- A free number for each draw: which victim a TLB set gives up (R35), and which strand node slot is taken (R128). -/
opaque freeNat : Nat → Nat

/-- A free 64-bit value for each draw: the values the spec names but does not give (log entry 2). -/
opaque freeWord : Nat → Word

/-- SHA3-512 of a byte string (R435, R437): named by the spec, defined elsewhere. -/
opaque sha3 : List Byte → BitVec 512

/-- Does an ML-DSA-87 signature verify over a message under a public key (R435)? -/
opaque verify : List Byte → List Byte → List Byte → Bool

/-- The device's ML-DSA-87 signature over a message (R437), 4,627 bytes when it is placed. -/
opaque sign : List Byte → List Byte

/-- The digest of the Strelgar public key fused at manufacture (R435). -/
opaque fusedKeyDigest : BitVec 512

/-- The fused minimum security version (R435). -/
opaque fusedMinSvn : BitVec 16

/-- The SVN in the header of a firmware image (R435), whose place the spec does not give. -/
opaque imageSvn : List Byte → BitVec 16

/-- The public key in the header of a firmware image (R435), whose place the spec does not give. -/
opaque imageKey : List Byte → List Byte

/-- The bytes of a save-image section whose layout the spec does not give (R416): by section index and free draw. -/
opaque sectionByte : Nat → Nat → Byte

/-- The size of a save-image section whose layout the spec does not give (R416): by section index and free draw. -/
opaque sectionSize : Nat → Nat → Nat

/-- Bytes of MEMBYTES that a context's own metadata takes (R403), which the spec does not give. -/
opaque metaBytes : Nat

/-- Bytes of MEMBYTES that one slot of a handle table takes (R403). -/
opaque handleBytes : Nat

/-- What one reduction slot takes of MEMBYTES beside the value it holds (R191, R403), which the spec does not give. -/
opaque redSlotRest : Nat

/-- Bytes of MEMBYTES that one reduction slot takes (R191, R403). DEDUCED: at least those of the F32 value it holds (log entry 22). -/
def redSlotBytes : Nat := 4 + redSlotRest

/-- Bytes of MEMBYTES that one grant record takes (R403). -/
opaque grantBytes : Nat

/-- Does the power limit withhold an issue cycle or the start of a matrix step (R439)? By cycle and core. -/
opaque withheld : Nat → Nat → Bool

/-- The byte at a host bus address that Akmon reads by DMA (R434): the host's memory is outside the part. -/
opaque hostByte : Nat → Byte

end Sys2Proof.Config
end

