-- ==== Sys2Proof/Machine/Float.lean ====
section
/-!
DEFINITION. The element formats, exact arithmetic on them, and one rounding at the end (R87 to R101).

A value is NaN, an infinity, or a sign and an exact dyadic magnitude m × 2^e. Every operation is computed exactly on
naturals and integers and rounded once; quotients, roots and logarithms carry a sticky bit for what lies below their
last computed bit, which is all that rounding needs to know of it.
-/

namespace Sys2Proof.Machine

/-- The sticky flags of R93. -/
structure Flags where
  nv : Bool
  of_ : Bool
  uf : Bool
  nx : Bool
  deriving DecidableEq, Repr

/-- No flag. -/
def Flags.none : Flags := ⟨false, false, false, false⟩

/-- The invalid flag alone. -/
def Flags.invalid : Flags := ⟨true, false, false, false⟩

/-- The union of two sets of flags. -/
def Flags.or (a b : Flags) : Flags := ⟨a.nv || b.nv, a.of_ || b.of_, a.uf || b.uf, a.nx || b.nx⟩

/-- An exact value: (−1)^neg × m × 2^e, a zero keeping its sign. -/
inductive FV where
  | nan
  | inf (neg : Bool)
  | fin (neg : Bool) (m : Nat) (e : Int)
  deriving DecidableEq, Repr

namespace FV

/-- The value with its sign inverted. -/
def neg : FV → FV
  | nan => nan
  | inf s => inf (!s)
  | fin s m e => fin (!s) m e

/-- Is the value NaN? -/
def isNan : FV → Bool
  | nan => true
  | _ => false

/-- +0. -/
def zero : FV := fin false 0 0

end FV

/-- A binary format (R87): exponent and fraction widths, bias, the largest finite magnitude's code, its infinity's code
where it has one, and its canonical NaN's code. -/
structure Fmt where
  eb : Nat
  fb : Nat
  bias : Nat
  maxCode : Nat
  infCode : Option Nat
  nanCode : Nat
  deriving DecidableEq, Repr

namespace Fmt

/-- .F32. -/
def f32 : Fmt := ⟨8, 23, 127, 0x7F7FFFFF, some 0x7F800000, 0x7FC00000⟩
/-- .F16. -/
def f16 : Fmt := ⟨5, 10, 15, 0x7BFF, some 0x7C00, 0x7E00⟩
/-- .B16. -/
def b16 : Fmt := ⟨8, 7, 127, 0x7F7F, some 0x7F80, 0x7FC0⟩
/-- .E4. -/
def e4 : Fmt := ⟨4, 3, 7, 0x7E, none, 0x7F⟩
/-- .E5. -/
def e5 : Fmt := ⟨5, 2, 15, 0x7B, some 0x7C, 0x7E⟩
/-- .F4, which has no NaN; a NaN converts to 0x0 (R96). -/
def f4 : Fmt := ⟨2, 1, 1, 0x7, none, 0x0⟩

/-- The width in bits. -/
def width (f : Fmt) : Nat := 1 + f.eb + f.fb

/-- The exponent of the least quantum: a code's magnitude is a multiple of 2^qmin. -/
def qmin (f : Fmt) : Int := 1 - (f.bias : Int) - (f.fb : Int)

/-- The exact value of a code (R87). -/
def decode (f : Fmt) (code : Nat) : FV :=
  let s := code / 2 ^ (f.eb + f.fb) % 2 == 1
  let mag := code % 2 ^ (f.eb + f.fb)
  if mag ≤ f.maxCode then
    let x := mag / 2 ^ f.fb
    if x = 0 then .fin s mag f.qmin else .fin s (mag % 2 ^ f.fb + 2 ^ f.fb) (f.qmin + (x - 1 : Nat))
  else if f.infCode == some mag then .inf s
  else .nan

/-- A code with its sign. -/
def signed (f : Fmt) (s : Bool) (mag : Nat) : Nat := s.toNat * 2 ^ (f.eb + f.fb) + mag

end Fmt

/-- The number of bits of a natural number. -/
def bitLen (n : Nat) : Nat := if n = 0 then 0 else n.log2 + 1

/-- A rounding mode (R95). -/
inductive Rm where
  | rne | rz | rdn | rup
  deriving DecidableEq, Repr

/-- The mode with a code (R95). -/
def Rm.ofCode (n : Nat) : Rm :=
  match n % 4 with
  | 0 => .rne | 1 => .rz | 2 => .rdn | _ => .rup

/-- Does the magnitude round up? `odd` is the parity of what is kept; `rem` of `2 ^ k` and `sticky` are what is lost. -/
def roundsUp (rm : Rm) (neg odd : Bool) (rem k : Nat) (sticky : Bool) : Bool :=
  match rm with
  | .rne => decide (2 * rem > 2 ^ k) || (2 * rem == 2 ^ k && (sticky || odd))
  | .rz => false
  | .rdn => neg && (rem != 0 || sticky)
  | .rup => !neg && (rem != 0 || sticky)

/-- Round the magnitude m × 2^e, plus something below its last bit when `sticky`, to a format's grid: the code of the
magnitude, which may lie beyond `maxCode`, and whether it is inexact. With `sticky`, m has more bits than the format. -/
def roundMag (f : Fmt) (rm : Rm) (neg : Bool) (m : Nat) (e : Int) (sticky : Bool) : Nat × Bool :=
  if m = 0 && !sticky then (0, false)
  else
    let q := max (e + (bitLen m : Int) - 1 - f.fb) f.qmin
    let k := (q - e).toNat
    let r := if q ≤ e then m * 2 ^ (e - q).toNat else m / 2 ^ k
    let rem := if q ≤ e then 0 else m % 2 ^ k
    let k := if q ≤ e then 0 else k
    let r := if roundsUp rm neg (r % 2 == 1) rem k sticky then r + 1 else r
    ((q - f.qmin).toNat * 2 ^ f.fb + r, rem != 0 || sticky)

/-- Round a magnitude to a format as IEEE arithmetic does under a mode, with its flags (R92, R93). A target without an
infinity saturates. -/
def roundFmt (f : Fmt) (rm : Rm) (sat : Bool) (neg : Bool) (m : Nat) (e : Int) (sticky : Bool) : Nat × Flags :=
  let (c, nx) := roundMag f rm neg m e sticky
  if c > f.maxCode then
    let away := match rm with | .rne => true | .rz => false | .rdn => neg | .rup => !neg
    match f.infCode with
    | some i => (f.signed neg (if sat || !away then f.maxCode else i), ⟨false, true, false, true⟩)
    | none => (f.signed neg f.maxCode, ⟨false, true, false, true⟩)
  else (f.signed neg c, ⟨false, false, nx && decide (c < 2 ^ f.fb), nx⟩)

/-- Round a value to a format by arithmetic's rule: nearest even, overflow to infinity (R92). -/
def FV.rn (f : Fmt) : FV → Nat × Flags
  | .nan => (f.nanCode, Flags.none)
  | .inf s => (f.signed s (f.infCode.getD f.maxCode), Flags.none)
  | .fin s m e => roundFmt f .rne false s m e false

/-! ### Exact operations -/

/-- The exact product; a 0 × ∞ is NaN with the invalid flag. -/
def FV.mul : FV → FV → FV × Bool
  | .nan, _ => (.nan, false)
  | _, .nan => (.nan, false)
  | .inf s, .inf t => (.inf (s != t), false)
  | .inf s, .fin t m _ => if m = 0 then (.nan, true) else (.inf (s != t), false)
  | .fin s m _, .inf t => if m = 0 then (.nan, true) else (.inf (s != t), false)
  | .fin s m e, .fin t n g => (.fin (s != t) (m * n) (e + g), false)

/-- A finite term's signed mantissa at a common exponent. -/
def FV.at (e₀ : Int) : FV → Int
  | .fin s m e => (if s then -1 else 1) * ((m * 2 ^ (e - e₀).toNat : Nat) : Int)
  | _ => 0

/-- The least exponent among the finite terms. -/
def minExp (l : List FV) : Int :=
  l.foldl (fun a x => match x with | .fin _ m e => if m = 0 then a else min a e | _ => a) 0

/-- The exact sum of terms with the order of special values of R99, and whether infinities of both signs met. An exact
zero sum is +0 unless every term is −0 (R98). -/
def FV.sum (l : List FV) : FV × Bool :=
  let pos := l.any (· == .inf false)
  let ng := l.any (· == .inf true)
  if l.any FV.isNan then (.nan, false)
  else if pos && ng then (.nan, true)
  else if pos then (.inf false, false)
  else if ng then (.inf true, false)
  else
    let e := minExp l
    let n := l.foldl (fun a x => a + x.at e) (0 : Int)
    if n = 0 then
      (.fin (!l.isEmpty && l.all (fun x => match x with | .fin s _ _ => s | _ => false)) 0 0, false)
    else (.fin (decide (n < 0)) n.natAbs e, false)

/-- Round a value to a format, setting the invalid flag when asked. -/
def FV.rnv (f : Fmt) (v : FV × Bool) : Nat × Flags :=
  let (c, fl) := v.1.rn f
  (c, { fl with nv := fl.nv || v.2 })

/-- Sum rounded once to a format (R92). -/
def fAdd (f : Fmt) (a b : FV) : Nat × Flags := FV.rnv f (FV.sum [a, b])

/-- Difference rounded once. -/
def fSub (f : Fmt) (a b : FV) : Nat × Flags := FV.rnv f (FV.sum [a, b.neg])

/-- Product rounded once. -/
def fMul (f : Fmt) (a b : FV) : Nat × Flags := FV.rnv f (a.mul b)

/-- a × b + c rounded once; 0 × ∞ is invalid even when c is NaN (R280). -/
def fFma (f : Fmt) (a b c : FV) : Nat × Flags :=
  let (p, i) := a.mul b
  let (s, j) := FV.sum [p, c]
  FV.rnv f (s, i || j)

/-- −1, 0 or 1 as a < b, a = b or a > b, for values that are not NaN; zeros are equal. -/
def FV.cmp : FV → FV → Int
  | .inf s, .inf t => if s == t then 0 else if s then -1 else 1
  | .inf s, _ => if s then -1 else 1
  | _, .inf t => if t then 1 else -1
  | a, b =>
    let e := minExp [a, b]
    (a.at e - b.at e).sign

/-- a = b by value; NaN equals nothing (R280). -/
def FV.eq (a b : FV) : Bool := !a.isNan && !b.isNan && a.cmp b == 0

/-- a < b; NaN satisfies no relation. -/
def FV.lt (a b : FV) : Bool := !a.isNan && !b.isNan && a.cmp b == -1

/-- a ≤ b. -/
def FV.le (a b : FV) : Bool := !a.isNan && !b.isNan && a.cmp b != 1

/-- The sign of a value. -/
def FV.sign : FV → Bool
  | .fin s _ _ => s
  | .inf s => s
  | .nan => false

/-- Is the value below another in the order of minima and maxima, where −0 < +0 (R280)? -/
def FV.below (a b : FV) : Bool := a.lt b || (a.eq b && a.sign && !b.sign)

/-- A code, with every NaN the canonical one (R92). -/
def Fmt.canon (f : Fmt) (a : Nat) : Nat := if (f.decode a).isNan then f.nanCode else a

/-- The smaller code: canonical NaN if either is NaN (R280). -/
def fMin (f : Fmt) (a b : Nat) : Nat :=
  let x := f.decode a
  let y := f.decode b
  if x.isNan || y.isNan then f.nanCode else if y.below x then b else a

/-- The larger code. -/
def fMax (f : Fmt) (a b : Nat) : Nat :=
  let x := f.decode a
  let y := f.decode b
  if x.isNan || y.isNan then f.nanCode else if x.below y then b else a

/-! ### Conversions (R96) -/

/-- Convert a value to a binary format under R96. -/
def convFmt (f : Fmt) (rm : Rm) (sat : Bool) (x : FV) : Nat × Flags :=
  match x with
  | .nan => (f.nanCode, if f == Fmt.f4 then Flags.invalid else Flags.none)
  | .inf s =>
    match f.infCode with
    | some i => if sat then (f.signed s f.maxCode, ⟨false, true, false, true⟩) else (f.signed s i, Flags.none)
    | none => (f.signed s f.maxCode, ⟨false, true, false, true⟩)
  | .fin s m e => roundFmt f rm sat s m e false

/-- The magnitude of a positive M8 code, in units of 2^−6 (R90). -/
def m8Units (c : Nat) : Nat :=
  let run (b : Nat) : Nat :=
    ((List.range 6).foldl (fun (a : Nat × Bool) i =>
      if a.2 && c / 2 ^ (5 - i) % 2 == b then (a.1 + 1, true) else (a.1, false)) (1, true)).1
  let b := c / 64 % 2
  let n := run b
  let k : Int := if b = 1 then (n : Int) - 1 else -(n : Int)
  let fb := 6 - n
  let m := c % 2 ^ fb
  if c = 0 then 0 else ((2 ^ fb + m) * 2 ^ (k + 6 - fb).toNat) / 2 ^ (fb - (k + 6)).toNat

/-- The exact value of an M8 code (R90). -/
def decodeM8 (c : Nat) : FV :=
  let c := c % 256
  if c = 0x80 then .nan else .fin (decide (c ≥ 128)) (m8Units (if c ≥ 128 then c - 128 else c)) (-6)

/-- The greatest M8 magnitude code at or below m × 2^(e+6) units, found among 0 to 127. -/
def m8Below (m : Nat) (e : Int) : Nat :=
  (List.range 128).foldl (fun a c =>
    if m8Units c * 2 ^ (-(e + 6)).toNat ≤ m * 2 ^ (e + 6).toNat then max a c else a) 0

/-- Convert a value to M8 (R91). -/
def convM8 (rm : Rm) (x : FV) : Nat × Flags :=
  match x with
  | .nan => (0x80, Flags.none)
  | .inf s => (if s then 0xFF else 0x7F, ⟨false, true, false, true⟩)
  | .fin s m e =>
    let a := m * 2 ^ (e + 6).toNat
    let sc := 2 ^ (-(e + 6)).toNat
    if a > 4096 * sc then (if s then 0xFF else 0x7F, ⟨false, true, false, true⟩)
    else
      let lo := m8Below m e
      if m8Units lo * sc = a then (if lo = 0 then 0 else s.toNat * 128 + lo, Flags.none)
      else
        let l := m8Units lo * sc
        let h := m8Units (lo + 1) * sc
        let up := match rm with
          | .rne => decide (2 * a > l + h) || (2 * a == l + h && lo % 2 == 1)
          | .rz => false
          | .rdn => s
          | .rup => !s
        let c := if up then lo + 1 else lo
        (if c = 0 then 0 else s.toNat * 128 + c, ⟨false, false, c == 0, true⟩)

/-- Round a value to an integer under a mode: the integer, and whether it is inexact. -/
def roundInt (rm : Rm) (s : Bool) (m : Nat) (e : Int) : Int × Bool :=
  let k := (-e).toNat
  let r := m * 2 ^ e.toNat / 2 ^ k
  let rem := m * 2 ^ e.toNat % 2 ^ k
  let r := if roundsUp rm s (r % 2 == 1) rem k false then r + 1 else r
  (if s then -(r : Int) else r, rem != 0)

/-- Convert a value to a signed integer of `w` bits (R96): saturation and NaN set FNV. -/
def convInt (w : Nat) (rm : Rm) (x : FV) : Int × Flags :=
  let hi : Int := 2 ^ (w - 1) - 1
  let lo : Int := -(2 ^ (w - 1))
  match x with
  | .nan => (0, Flags.invalid)
  | .inf s => (if s then lo else hi, Flags.invalid)
  | .fin s m e =>
    let (r, nx) := roundInt rm s m e
    if r > hi then (hi, Flags.invalid) else if r < lo then (lo, Flags.invalid)
    else (r, ⟨false, false, false, nx⟩)

/-- The value of an integer. -/
def FV.ofInt (i : Int) : FV := .fin (decide (i < 0)) i.natAbs 0

/-- A value multiplied by 2^k. -/
def FV.scale (k : Int) : FV → FV
  | .fin s m e => .fin s m (e + k)
  | x => x

/-! ### Quotients, roots, logarithms -/

/-- Round a positive rational num / den to a format, to nearest even (R92). -/
def roundRat (f : Fmt) (neg : Bool) (num den : Nat) : Nat × Flags :=
  let sh := 80 + bitLen den
  let q := num * 2 ^ sh / den
  roundFmt f .rne false neg q (-(sh : Int)) (num * 2 ^ sh % den != 0)

/-- The integer square root, bit by bit from bit `k`. -/
def isqrtFrom : Nat → Nat → Nat → Nat
  | 0, _, r => r
  | k + 1, n, r =>
    let t := r + 2 ^ k
    if t * t ≤ n then isqrtFrom k n t else isqrtFrom k n r

/-- RN32(1 / x) for the value of an F32 code (R323). -/
def recip32 (x : FV) : Nat × Flags :=
  let f := Fmt.f32
  match x with
  | .nan => (f.nanCode, Flags.none)
  | .inf s => (f.signed s 0, Flags.none)
  | .fin s m e =>
    if m = 0 then (f.signed s 0x7F800000, Flags.none)
    else
      let sh := bitLen m + 40
      roundFmt f .rne false s (2 ^ sh / m) (-(sh : Int) - e) (2 ^ sh % m != 0)

/-- RN32(1 / √x) (R323). -/
def rsqrt32 (x : FV) : Nat × Flags :=
  let f := Fmt.f32
  match x with
  | .nan => (f.nanCode, Flags.none)
  | .inf s => if s then (f.nanCode, Flags.invalid) else (0, Flags.none)
  | .fin s m e =>
    if m = 0 then (f.signed s 0x7F800000, Flags.none)
    else if s then (f.nanCode, Flags.invalid)
    else
      let sh := 2 * (bitLen m + 40) + (e % 2).toNat
      let r := isqrtFrom (sh + 1) (2 ^ sh / m) 0
      roundFmt f .rne false false r (-((sh : Int) + e) / 2) (r * r * m != 2 ^ sh)

/-- The next `k` bits of log2 of a fixed-point number in [1, 2) with 400 fraction bits, by repeated squaring. -/
def log2Bits : Nat → Nat → Nat → Nat
  | 0, _, acc => acc
  | k + 1, y, acc =>
    let y := y * y / 2 ^ 400
    if y ≥ 2 ^ 401 then log2Bits k (y / 2) (2 * acc + 1) else log2Bits k y (2 * acc)

/-- RN32(log2 x) (R323). Sixty bits below the leading one of any result are computed, and the exact value of log2 of a
number that is no power of two is irrational, so what lies below is a sticky bit. -/
def log232 (x : FV) : Nat × Flags :=
  let f := Fmt.f32
  match x with
  | .nan => (f.nanCode, Flags.none)
  | .inf s => if s then (f.nanCode, Flags.invalid) else (0x7F800000, Flags.none)
  | .fin s m e =>
    if m = 0 then (f.signed true 0x7F800000, Flags.none)
    else if s then (f.nanCode, Flags.invalid)
    else
      let top := bitLen m - 1
      let ex : Int := e + top
      if m = 2 ^ top then
        roundFmt f .rne false (decide (ex < 0)) ex.natAbs 0 false
      else
        let bits := log2Bits 120 (m * 2 ^ 400 / 2 ^ top) 0
        let v : Int := ex * 2 ^ 120 + bits
        if v < 0 then roundFmt f .rne false true (v.natAbs - 1) (-120) true
        else roundFmt f .rne false false v.natAbs (-120) true

/-! ### The exponential (R101) -/

/-- T[j] = RN32(2^(j/64)) (R101). -/
def expTable : List Nat :=
  [
    0x3F800000, 0x3F8164D2, 0x3F82CD87, 0x3F843A29, 0x3F85AAC3, 0x3F871F62, 0x3F88980F, 0x3F8A14D5,
    0x3F8B95C2, 0x3F8D1ADF, 0x3F8EA43A, 0x3F9031DC, 0x3F91C3D3, 0x3F935A2B, 0x3F94F4F0, 0x3F96942D,
    0x3F9837F0, 0x3F99E046, 0x3F9B8D3A, 0x3F9D3EDA, 0x3F9EF532, 0x3FA0B051, 0x3FA27043, 0x3FA43516,
    0x3FA5FED7, 0x3FA7CD94, 0x3FA9A15B, 0x3FAB7A3A, 0x3FAD583F, 0x3FAF3B79, 0x3FB123F6, 0x3FB311C4,
    0x3FB504F3, 0x3FB6FD92, 0x3FB8FBAF, 0x3FBAFF5B, 0x3FBD08A4, 0x3FBF179A, 0x3FC12C4D, 0x3FC346CD,
    0x3FC5672A, 0x3FC78D75, 0x3FC9B9BE, 0x3FCBEC15, 0x3FCE248C, 0x3FD06334, 0x3FD2A81E, 0x3FD4F35B,
    0x3FD744FD, 0x3FD99D16, 0x3FDBFBB8, 0x3FDE60F5, 0x3FE0CCDF, 0x3FE33F89, 0x3FE5B907, 0x3FE8396A,
    0x3FEAC0C7, 0x3FED4F30, 0x3FEFE4BA, 0x3FF28177, 0x3FF5257D, 0x3FF7D0DF, 0x3FFA83B3, 0x3FFD3E0C]

/-- The exact value of an F32 code. -/
def f32 (n : Nat) : FV := Fmt.f32.decode n

/-- VEXP of an F32 code by R101's procedure. -/
def vexp32 (x : Nat) : Nat × Flags :=
  match f32 x with
  | .nan => (0x7FC00000, Flags.none)
  | .inf s => (if s then 0 else 0x7F800000, Flags.none)
  | .fin s m e =>
    let y := f32 (fMul Fmt.f32 (.fin s m e) (f32 0x3FB8AA3B)).1
    if (f32 0x43000000).le y then (0x7F800000, ⟨false, true, false, true⟩)
    else if y.lt (f32 0xC3160000) then (0, ⟨false, false, true, true⟩)
    else
      match y with
      | .fin s m e =>
        let k := (roundInt .rne s m (e + 6)).1
        let d := (FV.sum [.fin s m (e + 6), (FV.ofInt k).neg]).1
        let fr := d.scale (-6)
        let n := k / 64
        let j := (k % 64).toNat
        let p := f32 (fFma Fmt.f32 (f32 0x3D635847) fr (f32 0x3E75FDF0)).1
        let p := f32 (fFma Fmt.f32 p fr (f32 0x3F317218)).1
        let p := f32 (fMul Fmt.f32 p fr).1
        let t := f32 (expTable.getD j 0)
        let r := (f32 (fFma Fmt.f32 t p t).1).scale n
        let (c, _) := r.rn Fmt.f32
        if c = 0x7F800000 then (c, ⟨false, true, false, true⟩)
        else if c < 0x800000 then (c, ⟨false, false, true, true⟩)
        else (c, Flags.none)
      | _ => (0x7FC00000, Flags.none)

end Sys2Proof.Machine
end

