-- ==== Sys2Proof/Syntax.lean ====
section
/-!
DEFINITION. The syntax of the CM2940's steps: one constructor per row of spec/opcode_table.json. The rows are the
instructions of Vexique (R240 to R273) and the part's own events, which no instruction word encodes
(spec/95_what_each_step_holds.md).

Every instruction carries its stall count S (R242). A row with a name ending in LONG holds the long form of its
instruction; every other instruction that has both forms holds them in one operand type.
-/

namespace Sys2Proof

/-- The immediate of format I (R245): imm8, or imm32 in the extension word. -/
inductive Imm where
  | short (v : BitVec 8)
  | long (v : BitVec 32)
  deriving DecidableEq, Repr

/-- The displacement of format B (R246), counted in words. -/
inductive Disp where
  | short (v : BitVec 8)
  | long (v : BitVec 32)
  deriving DecidableEq, Repr

/-- The size-type code of a long format M instruction (R248). -/
structure SizeType where
  ox : BitVec 3
  sx : Bool
  sz : BitVec 2
  deriving DecidableEq, Repr

/-- The displacement or index part of format M (R247, R248): disp6, or a size-type code and the extension word. -/
inductive MForm where
  | short (x : BitVec 6)
  | long (st : SizeType) (ext : BitVec 32)
  deriving DecidableEq, Repr

/-- The six compare-branches (R283). -/
inductive BranchOp where
  | beq | bne | blt | bge | blo | bhs
  deriving DecidableEq, Repr

/-- The scope codes of R256. -/
inductive Scope where
  | ctx | core | clu | die | dev | pool
  deriving DecidableEq, Repr

/-- The operations of AMO (R265). -/
inductive AmoOp where
  | add | and | or | xor | min | max | minu | maxu | swap
  deriving DecidableEq, Repr

/-- The instructions of format V (R269). -/
inductive VecOp where
  | vadd | vsub | vmul | vfma | vmin | vmax | vabs | vneg
  | vand | vor | vxor | vshl | vshr | vsar | vcmpeq | vcmplt | vcmple | vsel | vmov
  | vperm | vslide | vredadd | vredmax | vredmin | vscan | vcnt | vcmpr | vidx | vkey | vhist | vsumgt
  | cvtB16F32 | cvtF16F32 | cvtF32B16 | cvtF32F16 | cvtE4F32 | cvtE5F32 | cvtF32E4 | cvtF32E5
  | cvtM8F32 | cvtF32M8 | cvtF4F32 | cvtF32F4 | cvtF32S32 | cvtS32F32
  | vexp | vlog2 | vrcp | vrsq | vtli
  deriving DecidableEq, Repr

/-- The extension word of format V (R250). -/
structure VExt where
  vc : BitVec 5
  q : BitVec 6
  pd : Bool
  pa : Bool
  pb : Bool
  rm : BitVec 2
  sat : Bool
  tx : BitVec 2
  deriving DecidableEq, Repr

/-- What a corrupted unit on a link was (R430). -/
inductive LinkFault where
  /-- A payload flit that fails after 15 retries; the header names a context. -/
  | payload (ctx gen : Nat)
  /-- A header that fails, and the link tag decodes to a VF. -/
  | header (vf : Nat)
  /-- A header that fails, and the link tag fails to decode. -/
  | headerAndTag
  deriving DecidableEq, Repr

/-- The operation of a Korxo frame for this device (R428); the spec gives no codes for them. -/
inductive KorxoOp where
  /-- Lines of the running POOLRD of a cluster's engine, from an appliance: a line per flit (R86). -/
  | lines (cluster : Nat)
  /-- A directory message: the owner of a pool frame (R184). -/
  | owner (pool frame device : Nat)
  /-- Any other traffic, such as a migration transfer, whose effect on this device the spec does not give. -/
  | other
  deriving DecidableEq, Repr

/-- A Korxo frame as a port receives it (R428): its EtherType, addressing and operation, what it carries, and whether the checks of
its header, of its link tag and of each flit pass. -/
structure KorxoFrame where
  port : Nat
  etherType : BitVec 16
  src : Nat
  dst : Nat
  part : Nat
  partGen : Nat
  ctx : Nat
  gen : Nat
  op : KorxoOp
  seqNo : Nat
  vfTag : Nat
  headerOk : Bool
  tagOk : Bool
  flits : List (BitVec 512 × Bool)
  deriving DecidableEq, Repr

/-- A section of the boot image: its virtual address in the root, and its bytes (R445). -/
structure Section where
  addr : BitVec 64
  bytes : List (BitVec 8)
  deriving DecidableEq, Repr

/-- What Akmon takes from the firmware image for the boot program (R445, R452): the boot record's address, the sections, the root's
descriptor, the words of its stage-1 tables by machine address, and its stage-2 array. -/
structure BootImage where
  record : BitVec 64
  text : Section
  data : Section
  s1root : Nat
  s2base : Nat
  s2len : Nat
  tables : List (Nat × BitVec 64)
  s2 : List (Nat × BitVec 64)
  deriving DecidableEq, Repr

/-- The steps of the part: one constructor per row of spec/opcode_table.json. -/
inductive Instr where
  /-- ADD: Writes wa + wb modulo 2^W to wd (R275). -/
  | add (st : Stall) (d a b : Reg) (t : BitVec 2)
  /-- SUB: Writes wa − wb modulo 2^W to wd (R275). -/
  | sub (st : Stall) (d a b : Reg) (t : BitVec 2)
  /-- ADDI: Writes wa plus the sign-extended imm8 to wd (R277). -/
  | addi (st : Stall) (d a : Reg) (i : BitVec 8)
  /-- ADDI.L: Writes wa plus the imm32 taken from the extension word to wd (R277). -/
  | addiLong (st : Stall) (d a : Reg) (i : BitVec 32)
  /-- MUL: Writes the low W bits of wa × wb to wd (R275). -/
  | mul (st : Stall) (d a b : Reg) (t : BitVec 2)
  /-- MULH: Writes the high W bits of the signed 2W-bit product to wd (R275). -/
  | mulh (st : Stall) (d a b : Reg) (t : BitVec 2)
  /-- MULHU: Writes the high W bits of the unsigned 2W-bit product to wd (R275). -/
  | mulhu (st : Stall) (d a b : Reg) (t : BitVec 2)
  /-- DIV: Signed division truncated toward zero; the edge cases are defined and never trap (R276). -/
  | div (st : Stall) (d a b : Reg) (t : BitVec 2)
  /-- DIVU: Unsigned division; a zero divisor gives all ones (R276). -/
  | divu (st : Stall) (d a b : Reg) (t : BitVec 2)
  /-- REM: Signed remainder, taking the sign of wa (R276). -/
  | rem (st : Stall) (d a b : Reg) (t : BitVec 2)
  /-- REMU: Unsigned remainder (R276). -/
  | remu (st : Stall) (d a b : Reg) (t : BitVec 2)
  /-- AND: Writes wa AND wb to wd (R275). -/
  | and (st : Stall) (d a b : Reg)
  /-- OR: Writes wa OR wb to wd (R275). -/
  | or (st : Stall) (d a b : Reg)
  /-- XOR: Writes wa XOR wb to wd (R275). -/
  | xor (st : Stall) (d a b : Reg)
  /-- ANDN: Writes wa AND NOT wb to wd (R275). -/
  | andn (st : Stall) (d a b : Reg)
  /-- ANDI: Writes wa AND the sign-extended imm8 to wd (R277). -/
  | andi (st : Stall) (d a : Reg) (i : Imm)
  /-- ORI: Writes wa OR the sign-extended imm8 to wd (R277). -/
  | ori (st : Stall) (d a : Reg) (i : Imm)
  /-- XORI: Writes wa XOR the sign-extended imm8 to wd (R277). -/
  | xori (st : Stall) (d a : Reg) (i : Imm)
  /-- SHL: Shifts wa left by wb mod W (R275). -/
  | shl (st : Stall) (d a b : Reg) (t : BitVec 2)
  /-- SHR: Shifts wa logically right by wb mod W (R275). -/
  | shr (st : Stall) (d a b : Reg) (t : BitVec 2)
  /-- SAR: Shifts wa arithmetically right by wb mod W (R275). -/
  | sar (st : Stall) (d a b : Reg) (t : BitVec 2)
  /-- SHLI: Shifts wa left by an immediate amount from 0 to 63 (R277). -/
  | shli (st : Stall) (d a : Reg) (i : Imm)
  /-- SHRI: Shifts wa logically right by an immediate amount (R277). -/
  | shri (st : Stall) (d a : Reg) (i : Imm)
  /-- SARI: Shifts wa arithmetically right by an immediate amount (R277). -/
  | sari (st : Stall) (d a : Reg) (i : Imm)
  /-- ROTL: Rotates wa left by wb mod W (R275). -/
  | rotl (st : Stall) (d a b : Reg) (t : BitVec 2)
  /-- MIN: Writes the signed smaller of wa and wb (R275). -/
  | min (st : Stall) (d a b : Reg) (t : BitVec 2)
  /-- MAX: Writes the signed larger of wa and wb (R275). -/
  | max (st : Stall) (d a b : Reg) (t : BitVec 2)
  /-- MINU: Writes the unsigned smaller of wa and wb (R275). -/
  | minu (st : Stall) (d a b : Reg) (t : BitVec 2)
  /-- MAXU: Writes the unsigned larger of wa and wb (R275). -/
  | maxu (st : Stall) (d a b : Reg) (t : BitVec 2)
  /-- SEQ: Writes 1 if wa equals wb, else 0 (R275). -/
  | seq (st : Stall) (d a b : Reg) (t : BitVec 2)
  /-- SNE: Writes 1 if wa differs from wb, else 0 (R275). -/
  | sne (st : Stall) (d a b : Reg) (t : BitVec 2)
  /-- SLT: Writes 1 if wa < wb as signed values, else 0 (R275). -/
  | slt (st : Stall) (d a b : Reg) (t : BitVec 2)
  /-- SLTU: Writes 1 if wa < wb as unsigned values, else 0 (R275). -/
  | sltu (st : Stall) (d a b : Reg) (t : BitVec 2)
  /-- SLTI: Writes 1 if wa < imm as signed values, else 0 (R277). -/
  | slti (st : Stall) (d a : Reg) (i : Imm)
  /-- CLZ: Counts the leading zero bits of wa (R275). -/
  | clz (st : Stall) (d a : Reg) (t : BitVec 2)
  /-- CTZ: Counts the trailing zero bits of wa (R275). -/
  | ctz (st : Stall) (d a : Reg) (t : BitVec 2)
  /-- POPC: Counts the one bits of wa (R275). -/
  | popc (st : Stall) (d a : Reg) (t : BitVec 2)
  /-- BEXT: Extracts from wa the bit field that wb describes (R278). -/
  | bext (st : Stall) (d a b : Reg)
  /-- BINS: Inserts a value from wb into a bit field of wa (R278). -/
  | bins (st : Stall) (d a b : Reg)
  /-- SEL: Writes wa if the old wd is nonzero, else wb (R279). -/
  | sel (st : Stall) (d a b : Reg)
  /-- MOVI: Writes the sign-extended imm32 to wd; exists only in the long form (R279). -/
  | movi (st : Stall) (d : Reg) (i : BitVec 32)
  /-- LEA: Forms an effective address as LD would, without making any access (R279). -/
  | lea (st : Stall) (d b : Reg) (m : BitVec 2) (x : BitVec 6)
  /-- LEA.L: LEA with a 32-bit displacement or an index held in the extension word (R279). -/
  | leaLong (st : Stall) (d b : Reg) (m : BitVec 2) (ty : SizeType) (x : BitVec 32)
  /-- LEAM: Composes a mesh address from wa, MF and OFF15; exists only in the long form (R245). -/
  | leam (st : Stall) (d a : Reg) (mf : BitVec 17) (off : BitVec 15)
  /-- CLMUL: Writes the low 64 bits of the carry-less product of wa and wb (R275). -/
  | clmul (st : Stall) (d a b : Reg)
  /-- CLMULH: Writes the high 64 bits of the carry-less product of wa and wb (R275). -/
  | clmulh (st : Stall) (d a b : Reg)
  /-- FADD: F32 addition rounded to nearest even, accumulating flags (R280). -/
  | fadd (st : Stall) (d a b : Reg)
  /-- FSUB: F32 subtraction (R280). -/
  | fsub (st : Stall) (d a b : Reg)
  /-- FMUL: F32 multiplication (R280). -/
  | fmul (st : Stall) (d a b : Reg)
  /-- FMA: F32 fused multiply-add wa × wb + old wd, rounded once (R280). -/
  | fma (st : Stall) (d a b : Reg)
  /-- FMIN: Writes the F32 minimum (R280). -/
  | fmin (st : Stall) (d a b : Reg)
  /-- FMAX: Writes the F32 maximum (R280). -/
  | fmax (st : Stall) (d a b : Reg)
  /-- FEQ: F32 equality compare (R280). -/
  | feq (st : Stall) (d a b : Reg)
  /-- FLT: F32 less-than compare (R280). -/
  | flt (st : Stall) (d a b : Reg)
  /-- FLE: F32 less-or-equal compare (R280). -/
  | fle (st : Stall) (d a b : Reg)
  /-- FCLS: Writes the one-hot class mask of an F32 value (R281). -/
  | fcls (st : Stall) (d a : Reg)
  /-- FCVT.dst.src: Scalar conversion selected by PAIR, under RM and SAT (R282). -/
  | fcvt (st : Stall) (d a : Reg) (pair : BitVec 4) (sat : Bool) (rm : BitVec 2)
  /-- BEQ: Branches if wa equals wb (R283). -/
  | beq (st : Stall) (a b : Reg) (p : BitVec 8)
  /-- BNE: Branches if wa differs from wb (R283). -/
  | bne (st : Stall) (a b : Reg) (p : BitVec 8)
  /-- BLT: Branches if wa < wb as signed values (R283). -/
  | blt (st : Stall) (a b : Reg) (p : BitVec 8)
  /-- BGE: Branches if wa ≥ wb as signed values (R283). -/
  | bge (st : Stall) (a b : Reg) (p : BitVec 8)
  /-- BLO: Branches if wa < wb as unsigned values (R283). -/
  | blo (st : Stall) (a b : Reg) (p : BitVec 8)
  /-- BHS: Branches if wa ≥ wb as unsigned values (R283). -/
  | bhs (st : Stall) (a b : Reg) (p : BitVec 8)
  /-- BEQ.L: Compare-branch in the long form, with disp32 held in the extension word (R246). -/
  | branchLong (st : Stall) (op : BranchOp) (a b : Reg) (p : BitVec 32)
  /-- JMP: Jumps to the target (R284). -/
  | jmp (st : Stall) (p : Disp)
  /-- JAL: Jumps and writes the link address (R284). -/
  | jal (st : Stall) (d : Reg) (p : Disp)
  /-- JALR: Jumps to wa + imm and writes the link address (R284). -/
  | jalr (st : Stall) (d a : Reg) (i : Imm)
  /-- LOOP: Sets up hardware loop n with an immediate trip count; long form only (R288). -/
  | loop (st : Stall) (n : BitVec 2) (i : BitVec 8) (count : BitVec 32)
  /-- LOOPR: Sets up hardware loop n with its trip count taken from a register (R288). -/
  | loopr (st : Stall) (n : BitVec 2) (a : Reg) (i : BitVec 8)
  /-- LOOPM: Sets up hardware loop n with its trip count taken from MBXm (R288). -/
  | loopm (st : Stall) (n : BitVec 2) (m : BitVec 3) (i : BitVec 8)
  /-- RPT: Captures LEN instructions and replays them N times with stepped register fields (R291). -/
  | rpt (st : Stall) (len : BitVec 4) (n : BitVec 12) (sd sa sb sc : BitVec 4)
  /-- EXIT: A helper exits with its value; in the control context, ends the work item (R213). -/
  | exit (st : Stall) (a : Reg)
  /-- NOP: Does nothing (R287). -/
  | nop (st : Stall)
  /-- YIELD: Spends turns until the other READY slots have each been offered one (R287). -/
  | yield (st : Stall)
  /-- LD.t: Loads size bytes, extended, into wd (R294). -/
  | ld (st : Stall) (d b : Reg) (m : BitVec 2) (x : BitVec 6)
  /-- LD.t.L: Load in the long form, with a size-type code and disp32 or an index (R294). -/
  | ldLong (st : Stall) (d b : Reg) (m : BitVec 2) (ty : SizeType) (x : BitVec 32)
  /-- ST.t: Stores the low size bytes of wd (R294). -/
  | st (st : Stall) (d b : Reg) (m : BitVec 2) (x : BitVec 6)
  /-- ST.t.L: Store in the long form (R294). -/
  | stLong (st : Stall) (d b : Reg) (m : BitVec 2) (ty : SizeType) (x : BitVec 32)
  /-- LDX: Load with the index scaled by the access size (R294). -/
  | ldx (st : Stall) (d b : Reg) (f : MForm)
  /-- STX: Store with the index scaled by the access size (R294). -/
  | stx (st : Stall) (d b : Reg) (f : MForm)
  /-- LDS: A load whose faults become a poisoned zero result (R295). -/
  | lds (st : Stall) (d b : Reg) (m : BitVec 2) (f : MForm)
  /-- PREF: Asks the owning slice to bring a line into its cache (R296). -/
  | pref (st : Stall) (b : Reg) (m : BitVec 2) (f : MForm)
  /-- LDF: Waits for full, then returns the word (R297). -/
  | ldf (st : Stall) (d b : Reg) (m : BitVec 2) (f : MForm)
  /-- LDFE: Waits for full, returns the word and empties it (R297). -/
  | ldfe (st : Stall) (d b : Reg) (m : BitVec 2) (f : MForm)
  /-- STE: Waits for empty, writes the word and sets it full (R297). -/
  | ste (st : Stall) (d b : Reg) (m : BitVec 2) (f : MForm)
  /-- STF: Writes the word, sets it full and runs Settle (R297). -/
  | stf (st : Stall) (d b : Reg) (m : BitVec 2) (f : MForm)
  /-- FESET: Sets a word's full-empty bit full and runs Settle (R297). -/
  | feset (st : Stall) (b : Reg) (m : BitVec 2) (f : MForm)
  /-- FECLR: Sets a word's full-empty bit empty (R297). -/
  | feclr (st : Stall) (b : Reg) (m : BitVec 2) (f : MForm)
  /-- FEQRY: Returns a word's full-empty bit (R297). -/
  | feqry (st : Stall) (d b : Reg) (m : BitVec 2) (f : MForm)
  /-- LDV: Loads 64 bytes into a vector register (R298). -/
  | ldv (st : Stall) (d : VReg) (b : Reg) (m : BitVec 2) (f : MForm)
  /-- STV: Stores the 64 bytes of a vector register (R298). -/
  | stv (st : Stall) (d : VReg) (b : Reg) (m : BitVec 2) (f : MForm)
  /-- LDVX: Gathers the active lanes through an index vector (R299). -/
  | ldvx (st : Stall) (d : VReg) (b : Reg) (f : MForm)
  /-- STVX: Scatters the active lanes through an index vector (R299). -/
  | stvx (st : Stall) (d : VReg) (b : Reg) (f : MForm)
  /-- LDVB.t: Broadcasts one element into every position of vd (R298). -/
  | ldvb (st : Stall) (d : VReg) (b : Reg) (m : BitVec 2) (f : MForm)
  /-- LD.ACQ.t: A load that is an acquire (R294). -/
  | ldAcq (st : Stall) (d b : Reg) (m : BitVec 2) (f : MForm)
  /-- ST.REL.t.scope: A store that is a release at its OX scope; long form only (R294). -/
  | stRel (st : Stall) (d b : Reg) (m : BitVec 2) (scope : Scope) (sz : BitVec 2) (x : BitVec 32)
  /-- AMO.op: One whole reservation that applies op(old, wb) and returns old (R366). -/
  | amo (st : Stall) (op : AmoOp) (d a b : Reg) (acq rel : Bool) (scope : Scope)
  /-- CAS: Compare-and-swap under one reservation (R366). -/
  | cas (st : Stall) (d a b c : Reg) (acq rel : Bool) (scope : Scope)
  /-- RSV: Takes a reservation of a word and keeps it (R366). -/
  | rsv (st : Stall) (d a : Reg)
  /-- RWB: Writes wb and releases the reservation, or returns LOST (R366). -/
  | rwb (st : Stall) (d a b : Reg)
  /-- RLSN: Releases the reservation without a write (R366). -/
  | rlsn (st : Stall) (d a : Reg)
  /-- RED.F32: Contributes an F32 value to a reduction slot or word (R192). -/
  | redF32 (st : Stall) (a b : Reg)
  /-- FENCE.scope: Parks until the probes of its scope echo, then clears the probed bits (R178). -/
  | fence (st : Stall) (scope : Scope)
  /-- FENCE.E.scope: Also waits for the context's engine commands, optionally with a scope fence (R368). -/
  | fenceE (st : Stall) (scope : Scope)
  /-- MON: Arms a monitor line at the line's bank (R170). -/
  | mon (st : Stall) (line : BitVec 2) (a : Reg)
  /-- MOFF: Disarms a monitor line and clears its pending flag (R170). -/
  | moff (st : Stall) (line : BitVec 2)
  /-- WAITM: Waits for a pending monitor write, an interrupt or a deadline (R172). -/
  | waitm (st : Stall) (d a : Reg)
  /-- BAR.CLU: Parks at the cluster's wired barrier (R370). -/
  | barClu (st : Stall)
  /-- BAR.GANG: Parks at the gang's wired barrier (R370). -/
  | barGang (st : Stall)
  /-- SIGDEC: Decrements a signal's VALUE and sends its vector when armed and at most 0 (R372). -/
  | sigdec (st : Stall) (a b : Reg)
  /-- SIGWAIT: Parks until a signal's VALUE is at most wb (R373). -/
  | sigwait (st : Stall) (d a b : Reg)
  /-- VADD.t: Lane-wise addition (R307). -/
  | vadd (st : Stall) (d a b : VReg) (k : KReg) (t : BitVec 2)
  /-- VSUB.t: Lane-wise subtraction (R307). -/
  | vsub (st : Stall) (d a b : VReg) (k : KReg) (t : BitVec 2)
  /-- VMUL.t: Lane-wise multiplication (R307). -/
  | vmul (st : Stall) (d a b : VReg) (k : KReg) (t : BitVec 2)
  /-- VFMA.t: Lane-wise fused multiply-add into vd (R307). -/
  | vfma (st : Stall) (d a b : VReg) (k : KReg) (t : BitVec 2)
  /-- VMIN.t: Lane-wise minimum (R307). -/
  | vmin (st : Stall) (d a b : VReg) (k : KReg) (t : BitVec 2)
  /-- VMAX.t: Lane-wise maximum (R307). -/
  | vmax (st : Stall) (d a b : VReg) (k : KReg) (t : BitVec 2)
  /-- VABS.t: Lane-wise absolute value (R308). -/
  | vabs (st : Stall) (d a : VReg) (k : KReg) (t : BitVec 2)
  /-- VNEG.t: Lane-wise negation (R308). -/
  | vneg (st : Stall) (d a : VReg) (k : KReg) (t : BitVec 2)
  /-- VAND.t: Bitwise AND of lanes (R309). -/
  | vand (st : Stall) (d a b : VReg) (k : KReg) (t : BitVec 2)
  /-- VOR.t: Bitwise OR of lanes (R309). -/
  | vor (st : Stall) (d a b : VReg) (k : KReg) (t : BitVec 2)
  /-- VXOR.t: Bitwise XOR of lanes (R309). -/
  | vxor (st : Stall) (d a b : VReg) (k : KReg) (t : BitVec 2)
  /-- VSHL.t: Shifts each lane left (R309). -/
  | vshl (st : Stall) (d a b : VReg) (k : KReg) (t : BitVec 2)
  /-- VSHR.t: Shifts each lane logically right (R309). -/
  | vshr (st : Stall) (d a b : VReg) (k : KReg) (t : BitVec 2)
  /-- VSAR.t: Shifts each lane arithmetically right (R309). -/
  | vsar (st : Stall) (d a b : VReg) (k : KReg) (t : BitVec 2)
  /-- VCMPEQ.t: Compares lanes for equality into a mask register (R310). -/
  | vcmpeq (st : Stall) (d : KReg) (a b : VReg) (k : KReg) (t : BitVec 2)
  /-- VCMPLT.t: Compares lanes for less-than into a mask register (R310). -/
  | vcmplt (st : Stall) (d : KReg) (a b : VReg) (k : KReg) (t : BitVec 2)
  /-- VCMPLE.t: Compares lanes for less-or-equal into a mask register (R310). -/
  | vcmple (st : Stall) (d : KReg) (a b : VReg) (k : KReg) (t : BitVec 2)
  /-- VSEL.t: Selects va or vb lane by lane under the mask (R311). -/
  | vsel (st : Stall) (d a b : VReg) (k : KReg) (t : BitVec 2)
  /-- VMOV.t: Copies lane bits (R309). -/
  | vmov (st : Stall) (d a : VReg) (k : KReg) (t : BitVec 2)
  /-- VPERM.t: Permutes the lanes of va by the indices in vb (R313). -/
  | vperm (st : Stall) (d a b : VReg) (k : KReg) (t : BitVec 2)
  /-- VSLIDE.t: Slides the lanes across va and vb (R313). -/
  | vslide (st : Stall) (d a b : VReg) (k : KReg) (t : BitVec 2)
  /-- VREDADD.t: Sums the active lanes, rounded once (R314). -/
  | vredadd (st : Stall) (d a : VReg) (k : KReg) (t : BitVec 2)
  /-- VREDMAX.t: Maximum of the active lanes (R314). -/
  | vredmax (st : Stall) (d a : VReg) (k : KReg) (t : BitVec 2)
  /-- VREDMIN.t: Minimum of the active lanes (R314). -/
  | vredmin (st : Stall) (d a : VReg) (k : KReg) (t : BitVec 2)
  /-- VSCAN.t: Segmented scan of kind ADD, MAX, MIN or AFFINE (R315). -/
  | vscan (st : Stall) (d a b : VReg) (k : KReg) (t : BitVec 2)
  /-- VCNT.t: Counts the active lanes (R312). -/
  | vcnt (st : Stall) (d : VReg) (k : KReg) (t : BitVec 2)
  /-- VCMPR.t: Packs the active lanes of va into the low lanes of vd (R313). -/
  | vcmpr (st : Stall) (d a : VReg) (k : KReg) (t : BitVec 2)
  /-- VIDX.t: Writes lane index plus a base into each active lane (R312). -/
  | vidx (st : Stall) (d : VReg) (k : KReg) (t : BitVec 2)
  /-- VKEY.t: Maps float lanes to order-preserving unsigned keys (R318). -/
  | vkey (st : Stall) (d a : VReg) (k : KReg) (t : BitVec 2)
  /-- VHIST.t: Counts one key digit into 16 bins (R319). -/
  | vhist (st : Stall) (d a : VReg) (k : KReg) (t : BitVec 2)
  /-- VSUMGT.t: Sums and counts the lanes above a threshold (R320). -/
  | vsumgt (st : Stall) (d a : VReg) (k : KReg) (t : BitVec 2)
  /-- VADD.t.L: Any vector instruction in the long form, with vc, q, pointer flags, RM, SAT and TX in the extension word (R250). -/
  | vectorLong (st : Stall) (op : VecOp) (d a b : VReg) (k : KReg) (t : BitVec 2) (x : VExt)
  /-- SETVL: Sets STAT.VL from wa, clamped to 128 (R306). -/
  | setvl (st : Stall) (d a : Reg)
  /-- VCVT.B16.F32: Narrows F32 lanes to B16 elements of part PART (R321). -/
  | vcvtB16F32 (st : Stall) (d a : VReg) (p : BitVec 5) (k : KReg)
  /-- VCVT.F16.F32: Narrows F32 lanes to F16 elements (R321). -/
  | vcvtF16F32 (st : Stall) (d a : VReg) (p : BitVec 5) (k : KReg)
  /-- VCVT.F32.B16: Widens B16 elements to F32 lanes (R321). -/
  | vcvtF32B16 (st : Stall) (d a : VReg) (p : BitVec 5) (k : KReg)
  /-- VCVT.F32.F16: Widens F16 elements to F32 lanes (R321). -/
  | vcvtF32F16 (st : Stall) (d a : VReg) (p : BitVec 5) (k : KReg)
  /-- VCVT.E4.F32: Narrows F32 lanes to E4 elements (R321). -/
  | vcvtE4F32 (st : Stall) (d a : VReg) (p : BitVec 5) (k : KReg)
  /-- VCVT.E5.F32: Narrows F32 lanes to E5 elements (R321). -/
  | vcvtE5F32 (st : Stall) (d a : VReg) (p : BitVec 5) (k : KReg)
  /-- VCVT.F32.E4: Widens E4 elements to F32 lanes (R321). -/
  | vcvtF32E4 (st : Stall) (d a : VReg) (p : BitVec 5) (k : KReg)
  /-- VCVT.F32.E5: Widens E5 elements to F32 lanes (R321). -/
  | vcvtF32E5 (st : Stall) (d a : VReg) (p : BitVec 5) (k : KReg)
  /-- VCVT.M8.F32: Narrows F32 lanes to M8 elements (R321). -/
  | vcvtM8F32 (st : Stall) (d a : VReg) (p : BitVec 5) (k : KReg)
  /-- VCVT.F32.M8: Widens M8 elements to F32 lanes (R321). -/
  | vcvtF32M8 (st : Stall) (d a : VReg) (p : BitVec 5) (k : KReg)
  /-- VCVT.F4.F32: Scaled narrowing of F32 lanes to F4 elements (R322). -/
  | vcvtF4F32 (st : Stall) (d a : VReg) (p : BitVec 5) (k : KReg)
  /-- VCVT.F32.F4: Scaled widening of F4 elements to F32 lanes (R322). -/
  | vcvtF32F4 (st : Stall) (d a : VReg) (p : BitVec 5) (k : KReg)
  /-- VCVT.F32.S32: Converts S32 lanes to F32 (R321). -/
  | vcvtF32S32 (st : Stall) (d a : VReg) (p : BitVec 5) (k : KReg)
  /-- VCVT.S32.F32: Converts F32 lanes to S32 (R321). -/
  | vcvtS32F32 (st : Stall) (d a : VReg) (p : BitVec 5) (k : KReg)
  /-- VEXP: Computes e^x per lane by the fixed procedure (R101). -/
  | vexp (st : Stall) (d a : VReg) (k : KReg)
  /-- VLOG2: Computes log2 per lane, rounded once (R323). -/
  | vlog2 (st : Stall) (d a : VReg) (k : KReg)
  /-- VRCP: Computes a reciprocal per lane, rounded once (R323). -/
  | vrcp (st : Stall) (d a : VReg) (k : KReg)
  /-- VRSQ: Computes a reciprocal square root per lane, rounded once (R323). -/
  | vrsq (st : Stall) (d a : VReg) (k : KReg)
  /-- VTLI: Interpolates each lane from the slot's table (R327). -/
  | vtli (st : Stall) (d a : VReg) (f : BitVec 5) (k : KReg)
  /-- TBLSET: Loads the slot's interpolation table from the own buffer (R325). -/
  | tblset (st : Stall) (a : Reg)
  /-- MMA.BB: Gang matrix step, B16 by B16 (R335). -/
  | mmaBB (st : Stall) (a b q : Reg) (set ia ib sk te : Bool)
  /-- MMA.EE: Gang matrix step, E4 or E5 by the same, scaled (R335). -/
  | mmaEE (st : Stall) (a b q : Reg) (set ia ib sk te : Bool)
  /-- MMA.EF: Gang matrix step, E4 or E5 by F4 (R335). -/
  | mmaEF (st : Stall) (a b q : Reg) (set ia ib sk te : Bool)
  /-- MMA.MM: Gang matrix step, M8 by M8 (R335). -/
  | mmaMM (st : Stall) (a b q : Reg) (set ia ib sk te : Bool)
  /-- MMA.BF: Gang matrix step, B16 by scaled F4 (R335). -/
  | mmaBF (st : Stall) (a b q : Reg) (set ia ib sk te : Bool)
  /-- MMA.FF: Q-row gang matrix step, F4 by F4 (R335). -/
  | mmaFF (st : Stall) (a b q : Reg) (set ia ib sk te : Bool)
  /-- MZERO: Zeroes an accumulator set (R344). -/
  | mzero (st : Stall) (set : Bool)
  /-- MOUT.t: Converts an accumulator set into the own A buffer as engine writes (R345). -/
  | mout (st : Stall) (d q : Reg) (set : Bool) (ot : BitVec 3) (rm : BitVec 2) (sat incd : Bool)
  /-- GANG: Opens a round and parks at the gang's wired barrier (R334). -/
  | gang (st : Stall)
  /-- SKSET: Loads the context's sparsity skip stream (R342). -/
  | skset (st : Stall) (base : BitVec 9) (len : BitVec 10)
  /-- PUSH: Appends a scalar, with its mark, to the outgoing queue (R347). -/
  | push (st : Stall) (d : Reg) (dir : BitVec 3) (m : Bool)
  /-- PUSHV: Appends 64 bytes, with a mark, to the outgoing vector queue (R347). -/
  | pushv (st : Stall) (d : VReg) (dir : BitVec 3) (m : Bool)
  /-- POP: Removes the head of the incoming scalar queue (R350). -/
  | pop (st : Stall) (d : Reg) (dir : BitVec 3) (b : Reg)
  /-- POPV: Removes the head of the incoming vector queue (R350). -/
  | popv (st : Stall) (d : VReg) (dir : BitVec 3) (b : Reg)
  /-- PEEK: Reads the head of the incoming scalar queue without removing it (R350). -/
  | peek (st : Stall) (d : Reg) (dir : BitVec 3) (b : Reg)
  /-- PCFG: Returns port STATUS or PEER information (R352). -/
  | pcfg (st : Stall) (d a : Reg)
  /-- SNEW.BEAD: Creates a bead node over a payload range (R130). -/
  | snewBead (st : Stall) (d a b c : Reg)
  /-- SNEW.DESC: Creates a strand descriptor from a template (R131). -/
  | snewDesc (st : Stall) (d a : Reg)
  /-- SCAT: Joins two strands (R139). -/
  | scat (st : Stall) (d a b : Reg)
  /-- SSPLIT: Splits a strand at a position (R139). -/
  | ssplit (st : Stall) (d a b : Reg)
  /-- SSPLICE: Splices a strand into another at a position (R139). -/
  | ssplice (st : Stall) (d a b c : Reg)
  /-- SSUM: Returns a facet summary over a position range (R142). -/
  | ssum (st : Stall) (d : VReg) (a b c : Reg) (f : BitVec 2)
  /-- SLOC: Locates a position's record address and bead node (R142). -/
  | sloc (st : Stall) (d a b : Reg)
  /-- SSTEP: Returns the bead holding a position, with its start and length (R142). -/
  | sstep (st : Stall) (d a b : Reg)
  /-- SREF.HOLD: Adds one reference to a node (R143). -/
  | srefHold (st : Stall) (d a : Reg)
  /-- SREF.REL: Subtracts one reference from a node (R143). -/
  | srefRel (st : Stall) (d a : Reg)
  /-- SCOMMIT: Atomically commits a new root to an anchor, keyed by iteration (R148). -/
  | scommit (st : Stall) (d a b c : Reg)
  /-- STRAND_FREE: The strand unit asynchronously frees a node whose count reached zero (R146). -/
  | strandFree (ctx : Nat)
  /-- KVPG.ALLOC: Allocates a bead page from the enrolled frames (R82). -/
  | kvpgAlloc (st : Stall) (d a : Reg)
  /-- KVPG.FREE: Frees a bead page (R83). -/
  | kvpgFree (st : Stall) (d a b : Reg)
  /-- KVPG.SLOT: Maps a sequence position to a window slot and generation (R152). -/
  | kvpgSlot (st : Stall) (d a b : Reg)
  /-- VIEW.REG.MST: Registers a master tensor (R107). -/
  | viewRegMst (st : Stall) (d a : Reg)
  /-- VIEW.REG.DRV: Registers a derived view (R112). -/
  | viewRegDrv (st : Stall) (d a : Reg)
  /-- VIEW.DROP: Drops a handle of a master or a view (R121). -/
  | viewDrop (st : Stall) (d a : Reg)
  /-- VIEW.LD: Reads a view block under its policy into the own buffer (R119). -/
  | viewLd (st : Stall) (d a b c : Reg)
  /-- VIEW.WAIT: Waits until a view block is fresh, without data (R361). -/
  | viewWait (st : Stall) (d a b : Reg)
  /-- CHURN_REFRESH: The churn snapshots a queued block, converts it and publishes it (R115). -/
  | churnRefresh (die : Nat)
  /-- PEND_TAKE: The churn takes PEND blocks when its queue has room (R117). -/
  | pendTake (die : Nat)
  /-- ENG.CPY: Queues a copy and returns its promised completion cycle (R70). -/
  | engCpy (st : Stall) (d a b c : Reg)
  /-- ENG.POOLRD: Reads from a pool frame through the engine and returns a status (R85). -/
  | engPoolrd (st : Stall) (d a b c : Reg)
  /-- ENG.POOLWR: Writes to a pool frame through the engine and returns a status (R85). -/
  | engPoolwr (st : Stall) (d a b c : Reg)
  /-- ENG.SLEEPU: Parks the context until CYC reaches a wake cycle (R74). -/
  | engSleepu (st : Stall) (a : Reg)
  /-- COPY_START: The engine starts the next queued command once the previous one has completed (R67). -/
  | copyStart (cluster : Nat)
  /-- COPY_COMPLETE: A command's last write is accepted, and waiters on it wake (R70). -/
  | copyComplete (cluster : Nat)
  /-- PROMISE_MISS: A command still incomplete at its promise raises a notice (R72). -/
  | promiseMiss (core slot : Nat)
  /-- SLEEPU_WAKE: A sleeping context wakes when CYC reaches its wake cycle (R74). -/
  | sleepuWake (core slot : Nat)
  /-- POOL_TIMEOUT: A pool command with no reply within 1,750,000 cycles completes with TIMEOUT (R85). -/
  | poolTimeout (cluster : Nat)
  /-- POOL_LINE_ACCEPT: An appliance accepts a POOLWR line or serves a POOLRD line (R182). -/
  | poolLineAccept (cluster : Nat)
  /-- OWNERSHIP_MOVE: The directory moves ownership of a pool frame in one step (R184). -/
  | ownershipMove (pool frame owner : Nat)
  /-- START: Starts a helper slot at a PC and workspace (R212). -/
  | start (st : Stall) (d a b c : Reg)
  /-- JOIN: Waits for a helper to exit, takes its value and frees the slot (R376). -/
  | join (st : Stall) (d a : Reg)
  /-- LAUNCH: Hands a launch record to the die's sequencer (R377). -/
  | launch (st : Stall) (d a : Reg)
  /-- CTX.NEW: Creates a child context (R380). -/
  | ctxNew (st : Stall) (d a : Reg)
  /-- CTX.GIVE: Grants frames, cores or queues to a child (R381). -/
  | ctxGive (st : Stall) (d a b : Reg)
  /-- CTX.REVOKE: Revokes frames, cores or queues from a child (R42). -/
  | ctxRevoke (st : Stall) (d a b : Reg)
  /-- CTX.RUN: Makes a child's halted slots READY (R382). -/
  | ctxRun (st : Stall) (d a : Reg)
  /-- CTX.STOP: Halts a child and its descendants (R382). -/
  | ctxStop (st : Stall) (d a : Reg)
  /-- CTX.SAVE: Writes a stopped child's save image (R383). -/
  | ctxSave (st : Stall) (d a b : Reg)
  /-- CTX.LOAD: Restores a save image into a fresh stopped child (R383). -/
  | ctxLoad (st : Stall) (d a b : Reg)
  /-- CTX.DIRTY: Harvests the dirty sub-bitmaps of 64 stage-2 entries (R384). -/
  | ctxDirty (st : Stall) (d a b c : Reg)
  /-- CTX.S2MAP: Reduces stage-2 permissions or sets DT, then shoots down (R385). -/
  | ctxS2map (st : Stall) (d a b : Reg)
  /-- CTX.S2MAP.BEAD: As S2MAP, and then enrols channel-bound frames for bead allocation (R385). -/
  | ctxS2mapBead (st : Stall) (d a b : Reg)
  /-- CSRR: Reads a system or control register (R386). -/
  | csrr (st : Stall) (d : Reg) (csr : BitVec 12)
  /-- CSRW: Writes a control register that has no behaviour of its own (R386). -/
  | csrw (st : Stall) (a : Reg) (csr : BitVec 12)
  /-- ARENA_INIT: CSRW ARENA initialises the strand arena with a new ANUM (R387). -/
  | arenaInit (st : Stall) (a : Reg)
  /-- REDRGN_WRITE: CSRW REDRGN flushes and deregisters the old reduction region and registers the new one (R388). -/
  | redrgnWrite (st : Stall) (a : Reg)
  /-- XSPLIT_WRITE: The root sets the lane split between the table unit and the FMA pipes (R103). -/
  | xsplitWrite (st : Stall) (a : Reg)
  /-- FEAT_WRITE: The root sets the accepted features while no partition exists (R272). -/
  | featWrite (st : Stall) (a : Reg) (hi : Bool)
  /-- TRAP: Raises BREAK, reflected to the parent (R389). -/
  | trap (st : Stall) (n : BitVec 16)
  /-- BRK: Raises BREAK as a notice to the own handler (R232). -/
  | brk (st : Stall) (n : BitVec 16)
  /-- UPRET: Returns from an upcall, loading a slot with a workspace (R223). -/
  | upret (st : Stall) (a b : Reg)
  /-- TLBINV: Invalidates TLB entries in a scope, in three phases (R37). -/
  | tlbinv (st : Stall) (a : Reg) (scope : Scope)
  /-- INTH: Arms a signal object's interrupt, or sends it at once (R374). -/
  | inth (st : Stall) (a : Reg)
  /-- ICINV: Removes instruction-cache lines in a scope after a fence (R286). -/
  | icinv (st : Stall) (a : Reg) (scope : Scope)
  /-- RESULT_LAND: A register result lands in its workspace word at its distance (R205). -/
  | resultLand (core slot : Nat)
  /-- MISS_REPRESENT: A refused miss request is presented again 16 cycles later (R36). -/
  | missRepresent (core slot : Nat)
  /-- WALK_COMPLETE: A walk installs a translation or records a fault, and the waiting context wakes (R36). -/
  | walkComplete (cluster : Nat)
  /-- SHOOTDOWN_ECHO: A core in scope echoes once its accesses under removed entries are accepted (R37). -/
  | shootdownEcho (core slot target : Nat)
  /-- SLICE_REQUEST: A slice accepts a request into its ordering queue and performs it (R76). -/
  | sliceRequest (n : Nat)
  /-- BUFFER_REQUEST: A core's buffer performs a remote mesh access (R157). -/
  | bufferRequest (n : Nat)
  /-- SYNC_REQUEST: A synchronising access arrives at its owner core and completes, parks or is refused (R62). -/
  | syncRequest (n : Nat)
  /-- SYNC_REPRESENT: A refused synchronising request is presented again after backoff (R64). -/
  | syncRepresent (core slot : Nat)
  /-- SYNC_TIMEOUT: A synchronising request past FTMO, or past PRLIM refusals, traps (R64). -/
  | syncTimeout (core slot : Nat)
  /-- PROBE_ECHO: A bank echoes a fence probe once the context's earlier accesses are accepted (R177). -/
  | probeEcho (core slot bank : Nat)
  /-- RESERVATION_EXPIRY: An RSV reservation not released within 4,096 cycles is ended without a write (R189). -/
  | reservationExpiry (word : Nat)
  /-- WAITM_DEADLINE: WAITM returns TIMEOUT when CYC reaches its deadline (R172). -/
  | waitmDeadline (core slot : Nat)
  /-- PORT_TIMEOUT: A port wait longer than FTMO raises PORT_TIMEOUT (R218). -/
  | portTimeout (core slot : Nat)
  /-- BAR_TIMEOUT: A barrier not opened within GTMO times out all waiters (R370). -/
  | barTimeout (core slot : Nat)
  /-- GANG_TIMEOUT: A gang barrier not opened within GTMO times out its joined members (R216). -/
  | gangTimeout (core slot : Nat)
  /-- VIEW_WAIT_TIMEOUT: A VIEW.LD under WAIT past FTMO raises SYNC_TIMEOUT VIEWWAIT (R119). -/
  | viewWaitTimeout (core slot : Nat)
  /-- SIGWAIT_TIMEOUT: A SIGWAIT past FTMO raises SYNC_TIMEOUT (R373). -/
  | sigwaitTimeout (core slot : Nat)
  /-- MATRIX_QUEUE_RUN: The next matrix-queue operation on a set takes effect in queue order (R339). -/
  | matrixQueueRun (core : Nat)
  /-- MMA_STEP_START: The gang's n-th step starts once all members have issued and the previous occupancy has ended (R336). -/
  | mmaStepStart (core : Nat)
  /-- MMA_STEP_END: A member's occupancy ends and the step's words land (R336). -/
  | mmaStepEnd (core : Nat)
  /-- FREEZE: A late operand raises the gang's freeze line until it drops (R215). -/
  | freeze (core : Nat)
  /-- GANG_STEP_TIMEOUT: A step whose wait reaches GTMO is discarded and every member times out (R338). -/
  | gangStepTimeout (core : Nat)
  /-- MZERO_DONE: The whole accumulator set lands as +0 (R344). -/
  | mzeroDone (core : Nat)
  /-- MOUT_DONE: MOUT's rows are written as engine writes and its flags are ORed into STAT (R345). -/
  | moutDone (core : Nat)
  /-- SEQUENCER_CHOOSE: The sequencer picks an eligible head by priority and pass, and places it (R398). -/
  | sequencerChoose (die : Nat)
  /-- AGE_PROMOTION: A head that waited AGE × 1,024 cycles moves up one priority (R400). -/
  | agePromotion (die : Nat)
  /-- ITERATION_END: When all work items exit, the next iteration starts, or the launch ends with its completion decrement (R402). -/
  | iterationEnd (n : Nat)
  /-- HALT_COMPLETE: A halt completes after landing, control-block write-back and the fence (R411). -/
  | haltComplete (ctx : Nat)
  /-- REPLY_ARRIVAL: A reply is applied, stored in the fault-reply cell, or dropped (R412). -/
  | replyArrival (n : Nat)
  /-- SCRUB: The scrubber reads and rewrites each line at least once every 2^32 cycles (R78). -/
  | scrub (line : Nat)
  /-- SLICE_FAILURE: A slice that fails poisons reads, drops writes and logs a record (R47). -/
  | sliceFailure (slice : Nat)
  /-- HOST_WINDOW_READ: A host read of window 2 is translated through stage 2 and served or answered UR (R425). -/
  | hostWindowRead (vf off len : Nat)
  /-- HOST_WINDOW_WRITE: A host posted write of window 2 is translated and accepted or dropped (R425). -/
  | hostWindowWrite (vf off : Nat) (data : List (BitVec 8)) (relaxed : Bool)
  /-- WBASE_WRITE: Sets window 2's guest-physical base (R424). -/
  | wbaseWrite (vf : Nat) (v : BitVec 64)
  /-- HV_CLEAR: Writing 1 to HV clears HV, HW and HGPA (R424). -/
  | hvClear (vf : Nat)
  /-- DOORBELL: A DOORBELL write directs an interrupt to a slot, or sets DBLOST (R173). -/
  | doorbell (vf : Nat) (v : BitVec 64)
  /-- DBLOST_CLEAR: A DOORBELL write with bit 63 set clears DBLOST (R424). -/
  | dblostClear (vf : Nat)
  /-- PF_DOORBELL: The PF's DOORBELL directs an interrupt to a slot holding a root context (R433). -/
  | pfDoorbell (v : BitVec 64)
  /-- VF_BIND: Akmon binds a virtual function to a partition (R422). -/
  | vfBind (vf ctx : Nat)
  /-- FWLOAD: Mailbox command that stages a firmware image for the next boot (R434). -/
  | fwload (addr len : BitVec 64) (image : List (BitVec 8))
  /-- QUOTE: Mailbox command that produces a signed attestation quote for a VF (R437). -/
  | quote (vf nlen : BitVec 64) (nonce : List (BitVec 8))
  /-- OWNMOVE: Mailbox command that moves ownership of a pool frame (R432). -/
  | ownmove (pool frame owner : BitVec 64)
  /-- LOGREAD: Mailbox command that reads a machine-check record (R434). -/
  | logread (n : BitVec 64)
  /-- MAILBOX_UNKNOWN: An unknown mailbox command returns status UNKNOWN (R434). The host writes words of the PF's window 0 by offset,
  one after another, and then rings the mailbox: the words need not make a command. -/
  | mailboxUnknown (writes : List (Nat × BitVec 64))
  /-- DONE_CLEAR: Writing 1 to DONE clears it (R434). -/
  | doneClear
  /-- PLIM_WRITE: Sets the power limit over SMBus, clamped to 600–2,400 W (R438). -/
  | plimWrite (w : BitVec 16)
  /-- PLIM_EFFECT: A new power limit takes effect within 1 ms by withholding issue cycles (R439). -/
  | plimEffect
  /-- KORXO_FRAME: A Korxo frame is received on a port and checked (R428). -/
  | korxoFrame (f : KorxoFrame)
  /-- LINK_RETRY: A unit that fails its CRC is sent again, up to 15 times (R429). -/
  | linkRetry (l : Nat)
  /-- LINK_ERROR: A payload or header that fails after retries is contained by tier (R430). -/
  | linkError (l : Nat) (e : LinkFault)
  /-- LINK_RETIRE: A link with more than 64 retry events in 2^24 cycles is retired and traffic rerouted (R431). -/
  | linkRetire (l : Nat)
  /-- POWER_ON: Akmon's cores start from ROM with the compute dies held in reset (R436). -/
  | powerOn
  /-- IMAGE_JUDGE: The firmware image is fetched and verified, or the device enters recovery (R435). -/
  | imageJudge (image : List (BitVec 8))
  /-- MEMORY_INIT: HBM is trained, slice retirement is decided and memory is zeroed (R436). -/
  | memoryInit (retired : Option Nat)
  /-- DIE_POWER_UP: Each die is powered at least 200 µs after the previous one (R436). -/
  | diePowerUp (die : Nat)
  /-- ROW_RELEASE: Rows of a die are released from reset 64 cycles apart (R436). -/
  | rowRelease (die row : Nat)
  /-- BOOT_PROGRAM_START: Akmon loads the boot program into slot 0 of every live core of die 0 (R445). -/
  | bootProgramStart (img : BootImage)
  /-- DIES_INTO_SERVICE: Once every slot 0 of die 0 has exited, Akmon brings dies 1–3 into service (R436). -/
  | diesIntoService
  /-- SPENT_TURN: A READY slot that owes skipped turns, or is yielding, is offered a turn and spends it without issuing, decrementing RESID (R204). -/
  | spentTurn (core slot : Nat)
  /-- ILLEGAL_INSTRUCTION: A fetched word with an unassigned major opcode, OP 0xFF or an unlisted sub-opcode is decoded and raises ILL (R271). -/
  | illegalInstruction (w : BitVec 32)
  /-- CHURN_SERVE: The view's churn serves a queued VIEW.LD or VIEW.WAIT request, judges freshness and writes the block, tag and status or leaves a WAIT request waiting (R119). -/
  | churnServe (die n : Nat)
  /-- MAILBOX_ANSWER: Akmon finishes a mailbox command, places its output and sets STATUS, OUTLEN and DONE, clears GO and raises PF vector 0 (R434). -/
  | mailboxAnswer
  /-- LINK_TRAINED: A Korxo port or die-to-die link finishes training, or loses it, changing its UP bit (R433). -/
  | linkTrained (l : Nat) (up : Bool)
  /-- NUMVFS_WRITE: The host sets NumVFs in the SR-IOV capability, enabling that number of virtual functions (R422). -/
  | numvfsWrite (n : Nat)
  deriving DecidableEq, Repr

end Sys2Proof
end

