-- ==== Sys2Proof/Machine/State.lean ====
section
/-!
DEFINITION. The state of the part: every piece of state the spec gives it, as plain data, and the machine after reset.

Memory is one list of (address, byte) pairs over every physical byte of the package: device memory by slice, the
buffers of every site, and the frames of pool appliances (`devAddr`, `bufAddr`, `poolAddr`). Registers are words of it
(R59). Agents that exist many times (cores, clusters, dies, contexts) are held in key-ordered lists; a key with no
entry stands for the agent at its reset value.
-/

namespace Sys2Proof.Machine

/-- Why the machine stops. The spec's own faults are traps, which are taken and give a next state; nothing of the spec
stops the machine. -/
inductive Fault where
  /-- `step` only: the agenda names a site or a slot that does not exist. No state `step` reaches has such an agenda.
  Safe: the machine stops where the hardware has nothing to do. -/
  | noSuchAgent
  deriving DecidableEq, Repr

/-- Why an instruction has no meaning. -/
inductive Refusal where
  /-- Raised by an arm of `exec` whose instruction has no meaning yet. Safe: nothing can be proved of it. -/
  | notModelled (mnemonic : String)
  deriving DecidableEq, Repr

/-! ### Key-ordered lists -/

/-- The value at a key, or the default where the key has none. -/
def aget {α : Type} (l : List (Nat × α)) (d : α) (k : Nat) : α :=
  match l with
  | [] => d
  | (k', v) :: t => if k = k' then v else aget t d k

/-- Set the value at a key, keeping the keys in order. -/
def aset {α : Type} (l : List (Nat × α)) (k : Nat) (v : α) : List (Nat × α) :=
  match l with
  | [] => [(k, v)]
  | (k', v') :: t => if k = k' then (k, v) :: t else if k < k' then (k, v) :: (k', v') :: t else (k', v') :: aset t k v

/-- Remove a key. -/
def adel {α : Type} (l : List (Nat × α)) (k : Nat) : List (Nat × α) := l.filter (fun c => c.1 != k)

/-- Insert a number into a rising list. -/
def nset (l : List Nat) (k : Nat) : List Nat :=
  match l with
  | [] => [k]
  | k' :: t => if k = k' then k' :: t else if k < k' then k :: k' :: t else k' :: nset t k

/-- Remove a number from a list. -/
def ndel (l : List Nat) (k : Nat) : List Nat := l.filter (· != k)

/-! ### Places -/

/-- The five regions of a core, by BUF code (R30, R53). -/
inductive Buf where
  | w | a | c | s | sl
  deriving DecidableEq, Repr

namespace Buf

/-- The BUF code (R30). -/
def code : Buf → Nat
  | .w => 0 | .a => 1 | .c => 2 | .s => 3 | .sl => 4

/-- The buffer with a BUF code; 5 to 7 are reserved (R30). -/
def ofCode (n : Nat) : Option Buf :=
  match n with
  | 0 => some .w | 1 => some .a | 2 => some .c | 3 => some .s | 4 => some .sl | _ => none

/-- The size in bytes (R53). -/
def size : Buf → Nat
  | .w => 98304 | .a => 65536 | .c => 32768 | .s => 49152 | .sl => 4096

end Buf

/-- The physical address of a byte of a slice (R44). -/
def devAddr (slice off : Nat) : Nat := 2 ^ 32 * slice + off

/-- The physical address of a byte of a core's buffer (R53). -/
def bufAddr (c : Site) (b : Buf) (off : Nat) : Nat := 2 ^ 40 + 2 ^ 20 * c + 2 ^ 17 * b.code + off

/-- The physical address of a byte of a pool frame (R26, R50). -/
def poolAddr (pool frame off : Nat) : Nat := 2 ^ 80 + 2 ^ 21 * (2 ^ 36 * pool + frame) + off

/-- The bank of a physical address (R157): a slice 0 to 191, or 192 + site for a core's buffers. -/
def bankOf (a : Nat) : Nat := if a < 2 ^ 40 then a / 2 ^ 32 else 192 + (a - 2 ^ 40) / 2 ^ 20 % 4096

/-! ### Translation (R18, R33) -/

/-- The kind of an access (R28). -/
inductive Kind where
  | read | write | fetch
  deriving DecidableEq, Repr

/-- A machine target: interleaved, channel-bound or pool (R26). -/
inductive Target where
  | inter (addr : Nat)
  | cb (slice off : Nat)
  | pool (id frame off : Nat)
  deriving DecidableEq, Repr

/-- A composed translation held by a TLB (R33, R35). `slot` is 11 in a second-level entry, which carries none. -/
structure TlbEntry where
  slot : Nat
  ctx : Nat
  gen : Nat
  /-- The page size in bytes: 4 KiB, 64 KiB or 2 MiB. -/
  size : Nat
  /-- The virtual address of the page. -/
  page : Nat
  target : Target
  r : Bool
  w : Bool
  x : Bool
  /-- Recorded dirty: a write need not walk again (R23, R27). -/
  d : Bool
  /-- The leaf's VIEWED bit (R20), which tags writes (R108). -/
  viewed : Bool
  deriving DecidableEq, Repr

/-! ### Traps (R229, R234) -/

/-- The owner of a trap (R230). -/
inductive Owner where
  | own
  /-- The granting ancestor at a depth. -/
  | depth (n : Nat)
  | parent
  | partition
  | root
  deriving DecidableEq, Repr

/-- A trap before it is delivered: the fields of the fault record it decides (R211, R234). -/
structure Trap where
  cause : Nat
  detail : Nat
  addr : Word
  info : Word
  owner : Owner
  /-- ACC: 0 read, 1 write, 2 fetch, 3 no access. -/
  acc : Nat
  straddle : Bool
  /-- OVF: a further notice of this cause arrived (R211, R413). -/
  ovf : Bool := false
  deriving DecidableEq, Repr

/-- Where a trap that climbs came from (R225): the context, and the faulting slot with its core; slot 15 for a sequencer's trap,
which has no faulting slot (R451). -/
structure Origin where
  ctx : Nat
  gen : Nat
  core : Site
  slot : Nat
  deriving DecidableEq, Repr

/-- A trap kept for later delivery (R231): the trap, and, when it is a reflection (R225), the child it came from. -/
structure KeptTrap where
  trap : Trap
  child : Option Origin
  deriving DecidableEq, Repr

/-- A trap that reached Akmon (R225), with the context and slot it came from. -/
structure AkmonTrap where
  trap : Trap
  ctx : Nat
  gen : Nat
  slot : Nat
  deriving DecidableEq, Repr

/-! ### Slots -/

/-- The states of a slot (R202). -/
inductive SlotState where
  | free | ready | parked | faulted | exited | halted
  deriving DecidableEq, Repr

/-- One 64-bit word with its poison tag. -/
structure Tagged where
  val : Word
  poison : Bool
  deriving DecidableEq, Repr

/-- Where a register result lands. -/
inductive Dest where
  /-- A workspace word, by physical address. -/
  | word (addr : Nat)
  /-- A word of a pointer destination, by physical address (R251, R304). -/
  | line (addr : Nat)
  /-- A mask register, held in the control block (R208). -/
  | mask (k : Nat)
  deriving DecidableEq, Repr

/-- One word of a result: where it goes, its value and tag, and the bits of the word that it writes (R302). -/
structure WordWrite where
  dest : Dest
  data : Tagged
  bits : Word
  deriving DecidableEq, Repr

/-- A result in flight (R205): `turns` turns of its context are still to come before it lands. -/
structure Landing where
  turns : Nat
  writes : List WordWrite
  deriving DecidableEq, Repr

/-- The full-empty operations (R60). -/
inductive FeOp where
  | ldf | ldfe | ste | stf | feset | feclr | feqry
  deriving DecidableEq, Repr

/-- A synchronising request on its way or waiting (R62, R64). -/
structure SyncReq where
  op : FeOp
  addr : Nat
  value : Tagged
  /-- The register its result goes to. -/
  d : Reg
  len : Nat
  /-- The base register to update when it completes, with the new base (R293). -/
  base : Option (Reg × Tagged)
  va : Word
  prlim : Nat
  refusals : Nat
  since : Nat
  ftmo : Nat
  deriving DecidableEq, Repr

/-- Which barrier a context waits at (R214, R370). -/
inductive Barrier where
  | clu | bar | gang
  deriving DecidableEq, Repr

/-- What a slot waits for at its core's matrix queue; its instruction issues again. -/
inductive MatWait where
  /-- An entry of a full queue (R339). -/
  | full
  /-- The completion of every operation it issued (R197, R334). -/
  | drained
  /-- The start of every step it issued in the round (R334). -/
  | started
  /-- The completion of its operations on an accumulator set (R197). -/
  | accSet (b : Bool)
  deriving DecidableEq, Repr

/-- What a parked context waits for (R202, R237). `len` is the instruction's length, for the waits that move past it
when they end; the other waits issue their instruction again. -/
inductive Wait where
  /-- A walk for a page (R36). -/
  | walk (va : Nat) (k : Kind)
  /-- A miss request refused by a full queue at a cycle (R36). -/
  | missRefused (va : Nat) (k : Kind) (at_ : Nat)
  /-- A synchronising request on its way, or in its owner's park table. -/
  | sync (r : SyncReq)
  /-- A refused synchronising request and the cycle at which it is presented again (R64). -/
  | backoff (r : SyncReq) (at_ : Nat)
  /-- A fence: the banks whose probes have not echoed, and the bits to clear (R178). -/
  | fence (probes : List Nat) (mask : BitVec 196) (engines : Bool) (scope : Scope) (len : Nat)
  /-- WAITM with its deadline (R172). -/
  | waitm (d : Reg) (deadline : Tagged) (len : Nat)
  /-- ENG.SLEEPU with its wake cycle (R74). -/
  | sleepu (wake : Nat) (len : Nat)
  /-- A port operation, which issues again; `until_` is its timeout cycle (R218). -/
  | port (dir : Nat) (push vector : Bool) (until_ : Nat)
  /-- JOIN of a slot (R376). -/
  | join (h : Nat)
  /-- EXIT waiting for helpers and matrix operations (R213, R334). -/
  | exit
  /-- A barrier; `until_` is the timeout cycle the first arrival fixed, `gtmo` the GTMO used, `parts` the cores that take
  part in the round: none for a slot that waits for the next round (R370). -/
  | barrier (b : Barrier) (until_ gtmo : Nat) (parts : List Site) (len : Nat)
  /-- The matrix queue (R197, R334, R339). -/
  | matrix (why : MatWait)
  /-- A full engine queue (R67), or a command not yet accepted. -/
  | engQueue
  /-- A pool command of a cluster's engine, by its command number (R85). -/
  | pool (id : Nat) (d : Reg) (len : Nat)
  /-- TLBINV, ICINV, CTX.REVOKE, CTX.DIRTY and CTX.S2MAP: the sites whose echo is awaited, the result to land (R37). -/
  | echoes (sites : List Nat) (d : Reg) (result : Word) (len : Nat)
  /-- A SIGWAIT parked at its slice: word, bound, destination, timeout cycle (R373). -/
  | signal (addr : Nat) (va bound : Word) (d : Reg) (until_ : Nat) (len : Nat)
  /-- A request at a die's churn (R119). -/
  | view (die n : Nat) (handle : Word) (until_ : Nat)
  /-- CTX.STOP of a child, whose halts are awaited (R382). -/
  | stop (ctx : Nat) (d : Reg) (len : Nat)
  /-- CTX.SAVE waiting for the child's engine commands (R383), which issues again. -/
  | save
  /-- Earlier accesses that a reservation of another slot holds (R161, R175, R187); the instruction issues again. -/
  | drain
  /-- A strand operation that waits for an anchor or a page descriptor another slot has reserved (R148, R186). -/
  | strand
  /-- A resumed slot that waits for the status of its accepted pool command (R237). -/
  | status
  /-- CTX.GIVE, CTX.REVOKE, CTX.S2MAP and CTX.RUN waiting for the partition's tree logic (R43) or for a halt (R179); the
  instruction issues again. -/
  | tree
  /-- ARENA waiting until the strand unit holds no operation of the context (R387). -/
  | arena
  deriving DecidableEq, Repr

/-- A monitor line (R170): the armed line by its physical address div 64 and the address as named, and its flag. -/
structure Monitor where
  armed : Option (Nat × Word)
  pending : Bool
  /-- The address of a line that CTX.STOP disarmed, which CTX.SAVE records (R170, R172). -/
  stopped : Option Word
  deriving DecidableEq, Repr

/-- A repeat frame's sequencer buffer (R291): the captured words with their lengths, and the steps of R254. -/
structure Frame where
  code : List (Nat × Nat)
  n : Nat
  sd : BitVec 4
  sa : BitVec 4
  sb : BitVec 4
  sc : BitVec 4
  deriving DecidableEq, Repr

/-- A slot (R202 to R211). The 32 words of the control block are indexed by CSR number (R208, R386). -/
structure Slot where
  state : SlotState
  /-- The context the slot runs: its number and generation. -/
  ctx : Nat
  gen : Nat
  /-- The workspace pointer: BS in bit 4, BLOCK below (R207). -/
  wp : BitVec 5
  /-- The held control block (R165): PC, STAT, LC01, LC23, LS0–3, LE0–3, RPTST, UPV, SK, TMO, LIMS, FLT0–2, K, MBX. -/
  cb : List (Nat × Word)
  /-- The poison tags of the held words. -/
  cbPoison : List Nat
  /-- Results in flight, oldest first (R205). -/
  pend : List Landing
  /-- What the places of results in flight held when the instruction at the PC issued, while it waits: its sources (R162, R205). -/
  asIssued : List (Dest × Tagged)
  wait : Option Wait
  /-- The cycle at which the instruction at a PC first waited, for instructions that issue again (R64, R218). -/
  waitSince : Option (Word × Nat)
  /-- A recorded walk fault for the instruction that issues again: page, kind, trap (R36). -/
  walkFault : Option (Nat × Kind × Trap)
  /-- The translations that walks have answered for the instruction that issues again (R33, R36): a gather or scatter may
  need more pages than the data TLB holds. -/
  lanes : List TlbEntry
  /-- The touched-bank mask (R176). -/
  touched : BitVec 196
  /-- The RSV reservation held: the word's physical address (R367). -/
  rsv : Option Nat
  monitors : List (Nat × Monitor)
  /-- The interrupt flag (R173). -/
  intr : Bool
  /-- A helper's exit value (R213). -/
  exitVal : Tagged
  /-- The interpolation table, VALID when present: 68 words of F32 (R326). -/
  table : Option (List (BitVec 32))
  /-- The table is POISONED (R325). -/
  tablePoison : Bool
  frame : Option Frame
  /-- The cycle of the last turn offered (R203). -/
  lastOffer : Option Nat
  /-- YIELD: the slots awaited, and the issue cycles after which it ends whatever they do (R287). -/
  yielding : Option (List Nat × Nat)
  /-- Queued as FAULTED until the handler returns (R221). -/
  queued : Bool
  /-- Traps kept until the context is resident or the handler is free (R231). -/
  kept : List KeptTrap
  /-- Promises not yet judged: engine command number and promise (R72). -/
  promises : List (Nat × Nat)
  /-- GANG_TIMEOUT to be raised at the next instruction to issue, with the GTMO used (R338). -/
  gangTrap : Option Nat
  deriving DecidableEq, Repr

/-! ### Cores -/

/-- An instruction cache line: context, generation, virtual line address, and its sixteen words (R286). -/
structure ILine where
  ctx : Nat
  gen : Nat
  line : Nat
  words : List (BitVec 32)
  deriving DecidableEq, Repr

/-- An entry of a port queue: its words and its mark (R218). -/
structure PortEntry where
  words : List Tagged
  mark : Bool
  deriving DecidableEq, Repr

/-- A waiting synchronising request in the park table (R62): who asked, and what. -/
structure Parked where
  core : Site
  slot : Nat
  req : SyncReq
  deriving DecidableEq, Repr

/-- The operations of the matrix queue (R339). -/
inductive MatOp where
  /-- An MMA: format pair code, descriptor words, scale register, set, TE, skip words taken at issue (R343). -/
  | mma (pair : Nat) (a b : Word × Word) (q : Option Word) (set te : Bool) (skip : List Word)
  | zero (set : Bool)
  /-- MOUT: descriptor words, set, OT, RM, SAT, scale byte (R345). -/
  | out (dst : Word × Word) (set : Bool) (ot rm : Nat) (sat : Bool) (scale : Nat)
  deriving DecidableEq, Repr

/-- A line as a member reads it: its bytes as a number, its four scale bytes, and its poison. -/
structure MLine where
  raw : Nat
  scale : Option Nat
  poison : List Bool
  scalePoison : Bool
  deriving DecidableEq, Repr

/-- An entry of the matrix queue, with the slot that issued it; an MMA carries its round, the round's GTMO and the index of its step
in the round. -/
structure MatEntry where
  slot : Nat
  op : MatOp
  step : Nat
  /-- The round of an MMA, named by the cycle in which it opened, and its GTMO (R334, R338). -/
  round : Nat
  gtmo : Nat
  /-- The cycle from which the time of the step is counted (R338). -/
  since : Option Nat
  /-- The cycle at which the step, or the MZERO or MOUT, started (R336, R340). -/
  started : Option Nat
  /-- The workspace of the slot that issued it, whose STAT a MOUT's flags enter (R345). -/
  wp : BitVec 5
  /-- The cycles of the step in which the freeze line was raised (R336). -/
  frozen : Nat
  /-- How many lines of A and of W the member has begun to fetch, in the order of R331. -/
  fetchA : Nat
  fetchW : Nat
  /-- The operand lines the member has read for the step: row `i` as line `i`, column `i` as line 256 + `i` (R337). -/
  lines : List (Nat × MLine)
  /-- The words of the member's step have landed (R336). -/
  landed : Bool
  deriving DecidableEq, Repr

/-- An operation as it enters the queue. -/
def MatEntry.queued (slot : Nat) (op : MatOp) (wp : BitVec 5) : MatEntry :=
  { slot := slot, op := op, step := 0, round := 0, gtmo := 0, since := none, started := none, wp := wp, frozen := 0, fetchA := 0
    fetchW := 0, lines := [], landed := false }

/-- The open round of a gang member (R334). -/
structure Round where
  slot : Nat
  gtmo : Nat
  /-- The MMAs the member has issued in this round. -/
  issued : Nat
  /-- The cycle in which the round opened, which names it. -/
  opened : Nat
  deriving DecidableEq, Repr

/-- The place a launch gave a core: launch number, gang index, member index (R399). -/
structure Placed where
  launch : Nat
  gang : Nat
  member : Nat
  /-- The work item has exited in this iteration. -/
  exited : Bool
  deriving DecidableEq, Repr

/-- A live core of a site. -/
structure Core where
  slots : List (Nat × Slot)
  /-- The rotation pointer (R203). -/
  ptr : Nat
  /-- The grant chain: numbers and generations, from the partition down (R32). -/
  chain : List (Nat × Nat)
  itlb : List TlbEntry
  dtlb : List TlbEntry
  icache : List ILine
  /-- The park table, in arrival order (R62). -/
  park : List Parked
  matrix : List MatEntry
  round : Option Round
  /-- Incoming port queues, by 12 × slot + 2 × direction + (1 for vector) (R218). -/
  ports : List (Nat × List PortEntry)
  /-- The interrupted workspace while a handler runs in slot 0 (R222). -/
  interrupted : BitVec 5
  placed : Option Placed
  /-- The placement group of the cores' contexts: issuing context and group number (R394). -/
  group : Option (Nat × Nat)
  /-- The core has been released from reset (R436). -/
  running : Bool
  /-- The freeze line this member raises (R215). -/
  freeze : Bool
  /-- The cycle at which the W write port is free of a view publication (R116). -/
  portFree : Nat
  deriving DecidableEq, Repr

/-! ### Clusters -/

/-- A queued or walking miss request (R36): the core, the slot, the address and kind; `fetch` misses too. -/
structure MissReq where
  core : Site
  slot : Nat
  ctx : Nat
  gen : Nat
  va : Nat
  kind : Kind
  deriving DecidableEq, Repr

/-- The commands of a copy engine (R68). -/
inductive EngKind where
  | cpy | poolrd | poolwr
  deriving DecidableEq, Repr

/-- One word of an engine command: where it comes from and goes to, under the translations held since acceptance (R69);
none where the translation has been revoked since (R73). -/
structure EngWord where
  src : Option Nat
  dst : Option Nat
  /-- The guest-physical addresses of the source and of the destination, where they are virtual device memory. -/
  sgpa : Option Nat
  dgpa : Option Nat
  /-- The destination's virtual address, and its leaf's VIEWED bit, for the tag of the write (R108). -/
  va : Word
  viewed : Bool
  deriving DecidableEq, Repr

/-- An accepted engine command (R69). -/
structure EngCmd where
  id : Nat
  kind : EngKind
  ctx : Nat
  gen : Nat
  core : Site
  slot : Nat
  /-- The words still to copy, in ascending order. -/
  words : List EngWord
  /-- The promise (R70); 0 for a pool command, which carries none. -/
  promise : Nat
  /-- The cycle at which the engine started it (R67). -/
  started : Option Nat
  /-- The issuing workspace, the destination register and the status of a pool command (R85). -/
  wp : BitVec 5
  d : Reg
  status : Nat
  /-- The pool frame of which an appliance has last accepted a line of a POOLWR (R86). -/
  frame : Option Nat
  deriving DecidableEq, Repr

/-- A table entry that a cluster's second-level TLB holds for its walkers (R35): a stage-1 table entry of level 2 or 3 by
virtual address div its span, or, at level 0, a stage-2 entry by guest frame. -/
structure TableEntry where
  ctx : Nat
  gen : Nat
  level : Nat
  index : Nat
  word : Word
  deriving DecidableEq, Repr

/-- An entry of a cluster's second-level TLB (R35): a composed leaf translation, or a table entry of its walkers. -/
inductive L2Entry where
  | leaf (e : TlbEntry)
  | table (t : TableEntry)
  deriving DecidableEq, Repr

/-- A cluster's shared units (R7). -/
structure Cluster where
  /-- The second-level TLB: 64 sets of 8 ways, which leaves and table entries share (R35). -/
  l2 : List L2Entry
  /-- The shared instruction cache, most recently filled line first (R7, R286). -/
  icache : List ILine
  /-- Miss requests in arrival order (R36): those for the first 4 pages are at the walkers, the others wait in the queue. -/
  misses : List MissReq
  engine : List EngCmd
  deriving DecidableEq, Repr

/-! ### Dies: the churn and the launch sequencer -/

/-- A block the churn has queued: the view's owner context, its handle slot, the block (R117). -/
structure ChurnItem where
  ctx : Nat
  view : Nat
  block : Nat
  deriving DecidableEq, Repr

/-- A VIEW.LD or VIEW.WAIT request at a churn (R119): who waits, which block, where the data go. -/
structure ViewReq where
  n : Nat
  core : Site
  slot : Nat
  ctx : Nat
  view : Nat
  block : Nat
  /-- The view's policy (R119); WAIT for VIEW.WAIT. -/
  pol : Nat
  /-- The destination's physical address; none for VIEW.WAIT. -/
  dst : Option Nat
  /-- The bytes of the destination that the request holds. -/
  bytes : Nat
  d : Reg
  len : Nat
  since : Nat
  ftmo : Nat
  /-- The request waits for a publication. -/
  waiting : Bool
  deriving DecidableEq, Repr

/-- A queued launch record (R392): the issuer, the record's words, its priority now, its group, and when it became
head. -/
structure LaunchRec where
  n : Nat
  ctx : Nat
  gen : Nat
  addr : Word
  words : List Word
  prio : Nat
  group : Nat
  headSince : Option Nat
  /-- A failed translation of the wait signal, or of the template, has been delivered, and no retest has succeeded since
  (R451). -/
  toldWait : Bool
  toldWs : Bool
  /-- The physical address of a head's wait signal, at whose bank its VALUE is tested after every write (R397). -/
  waitAt : Option Nat
  /-- A test has released the head (R397). -/
  released : Bool
  deriving DecidableEq, Repr

/-- A running launch: where it stands and which iteration it runs (R401, R402). -/
structure Running where
  rec_ : LaunchRec
  template : List (BitVec 8)
  /-- The positions: their first clusters, and the gang's cores in member order, with die and gang index. -/
  gangs : List (Nat × Nat × List Site)
  clusters : List Nat
  iteration : Nat
  /-- The last iteration has ended (R402). -/
  ended : Bool
  /-- The request that makes the completion decrement, while no bank has accepted it (R394, R403). -/
  decrement : Option Nat
  deriving DecidableEq, Repr

/-- A die's churn and sequencer. -/
structure Die where
  churn : List ChurnItem
  viewReqs : List ViewReq
  queue : List LaunchRec
  /-- PASS values, by context × 8 + priority (R398). -/
  pass : List (Nat × Nat)
  running : List Running
  /-- Correctable retries of the die's mesh links (R433). -/
  meshRetry : BitVec 32
  deriving DecidableEq, Repr

/-! ### Contexts -/

/-- A grant record (R41). -/
structure Grant where
  child : Nat
  pgfn : Nat
  cgfn : Nat
  count : Nat
  deriving DecidableEq, Repr

/-- What a handle slot holds (R104 to R112). -/
inductive Handle where
  | empty
  | retired
  /-- A master: its descriptor words. -/
  | master (w0 w1 : Word)
  /-- A view: the master's handle slot, its descriptor words, and the core and slot that registered it (R120). -/
  | view (master : Nat) (w0 w1 w2 : Word) (core : Site) (slot : Nat)
  deriving DecidableEq, Repr

/-- A reply kept for a context that is not resident (R412, R413). -/
structure Reply where
  n : Nat
  core : Site
  ctx : Nat
  gen : Nat
  slot : Nat
  /-- The workspace of the instruction it answers, and STATUS: register and result. -/
  wp : BitVec 5
  status : Option (Reg × Word)
  trap : Option Trap
  /-- A WALK entry: the walked virtual address and the outcome. -/
  walk : Option (Word × Word)
  deriving DecidableEq, Repr

/-- Work queued at the strand unit: a node whose count reached zero is freed (R146), or a reference is released (R148); with
the slot whose operation queued it. -/
structure StrandTask where
  addr : Nat
  /-- Release a reference first; else the count is zero already. -/
  release : Bool
  core : Site
  slot : Nat
  deriving DecidableEq, Repr

/-- A context of the tree (R18, R380): its translation descriptor, metadata, budgets and rights. -/
structure Ctx where
  live : Bool
  gen : Nat
  depth : Nat
  parent : Nat
  s1root : Nat
  s2base : Nat
  s2len : Nat
  darr : Nat
  /-- The stage-2 array: entries that are not zero (R24). Entry i is the word of machine address s2base × 4096 + 8 × i, and
  errors of that word's line and slice reach it; its value is held here, since no context's stage 2 maps the array. -/
  s2 : List (Nat × Word)
  /-- The dirty sub-bitmaps that are not zero (R27), by entry: entry i's are the line of machine address darr × 4096 + 64 × i. -/
  sub : List (Nat × BitVec 512)
  stopped : Bool
  everRun : Bool
  /-- The reflection target (R225). -/
  reflect : Site
  grants : List Grant
  weight : Nat
  memBytes : Nat
  poolPages : Nat
  children : Nat
  launches : Nat
  /-- What is used of each budget, 1 to 5 (R403). -/
  used : List (Nat × Nat)
  /-- The priority mask and die mask of its launch rights (R381). -/
  prioMask : Nat
  dieMask : Nat
  /-- Live placement groups, with the number of launches that name each (R394). -/
  groups : List (Nat × Nat)
  /-- The handle table (R104): capacity, and generation and content of each used slot. -/
  hcap : Nat
  handles : List (Nat × Nat × Handle)
  /-- Version table: master slot × 2^32 + block (R109). -/
  versions : List (Nat × BitVec 32)
  /-- Tag records: view slot × 2^32 + block (R118). -/
  tags : List (Nat × Word)
  /-- Blocks whose publication failed and was reported (R450), by view slot × 2^32 + block. -/
  unmapped : List Nat
  /-- The arena descriptor's two words (R127). -/
  arena0 : Word
  arena1 : Word
  /-- The REDRGN register (R388). -/
  redrgn : Word
  /-- The arena's storage in use: first 64-byte unit and units of each node and facet block (R127, R128). -/
  arenaUsed : List (Nat × Nat)
  /-- What the strand unit still has to free or release, in queue order (R146, R148). -/
  frees : List StrandTask
  /-- The measurement of a partition (R437). -/
  pmr : BitVec 512
  /-- Replies kept in the fault-reply area (R413). -/
  replies : List Reply
  /-- A halt of the context is still to complete (R411). -/
  halting : Bool
  deriving DecidableEq, Repr

/-! ### Slices -/

/-- A request on its way to a bank, or held there (R76, R157, R187). -/
structure Request where
  n : Nat
  core : Site
  slot : Nat
  ctx : Nat
  gen : Nat
  /-- The physical address, the bytes, and the poison of the data word(s), one flag per word touched. -/
  addr : Nat
  bytes : List (BitVec 8)
  poison : List Bool
  /-- A RED contribution instead of a store (R192). -/
  red : Option (BitVec 32)
  /-- A SIGDEC of this amount instead of a store (R372). -/
  sig : Option Word
  /-- The virtual address, for the tag of a master write and for RED's region (R108, R192); `viewed` is the leaf's bit. -/
  va : Word
  viewed : Bool
  deriving DecidableEq, Repr

/-- A reservation of a word (R186): the holder and the cycle of the grant. -/
structure Reservation where
  word : Nat
  core : Site
  slot : Nat
  since : Nat
  /-- The address as the holder named it, which RLSN compares (R366, R367). -/
  va : Word
  /-- The grant was poisoned, so the release carries no write (R190). -/
  poisoned : Bool
  deriving DecidableEq, Repr

/-- A reduction slot's contents: word, the context whose region it belongs to, logical core number, value, poison (R191,
R192). -/
structure RedSlot where
  word : Nat
  ctx : Nat
  gen : Nat
  core : Nat
  value : BitVec 32
  poison : Bool
  deriving DecidableEq, Repr

/-- The enrolment record and occupancy map of a channel-bound frame (R79). -/
structure Enrol where
  rec_ : Word
  map : BitVec 128
  deriving DecidableEq, Repr

/-! ### The package -/

/-- A machine-check record of Akmon's log (R434). -/
structure LogRec where
  cause : Nat
  detail : Nat
  ctx : Nat
  gen : Nat
  addr : Word
  cyc : Nat
  slice : Nat
  deriving DecidableEq, Repr

/-- A virtual function (R422, R424). -/
structure Vf where
  /-- The partition it is bound to, with its generation. -/
  ctx : Option (Nat × Nat)
  recovery : Bool
  wbase : BitVec 4
  hv : Bool
  hw : Bool
  hgpa : BitVec 40
  dblost : Bool
  deriving DecidableEq, Repr

/-- A link (R433): retries, trained, retired, and when each context last sent traffic over it. -/
structure Link where
  retry : BitVec 32
  up : Bool
  ret : Bool
  recent : List Nat
  traffic : List (Nat × Nat)
  deriving DecidableEq, Repr

/-- How far start-up has come (R436). -/
inductive Boot where
  | off | rom | recovery | judged | memory | dies | rows | program | service
  deriving DecidableEq, Repr

/-- A posted host write waiting for the earlier ones of its function (R426). -/
structure HostWrite where
  vf : Nat
  /-- The guest-physical address of a write of window 2, formed as the request arrives (R425). -/
  gpa : Nat
  data : List (BitVec 8)
  /-- A write of a word of the control page instead: its offset and value (R424). -/
  control : Option (Nat × Word)
  relaxed : Bool
  /-- The words whose reservations hold it (R187). -/
  heldBy : List Nat
  deriving DecidableEq, Repr

/-- The physical function, Akmon and what is fixed at manufacture or boot (R4, R433 to R438). -/
structure Package where
  boot : Boot
  /-- The fuse map: die × 32 + row, bit x set when the site is fused (R433). -/
  fuse : List (Nat × BitVec 32)
  /-- The retired slice's physical number (R44). -/
  retired : Option Nat
  /-- IRSIZE in bytes and CBS in bytes (R45). -/
  irsize : Nat
  cbs : Nat
  featAdv : BitVec 128
  /-- XSPLIT, device-wide (R103). -/
  xsplit : Word
  feat : BitVec 128
  /-- Step 7 of start-up has begun: the root has created a partition (R272, R436). -/
  partitioned : Bool
  /-- Start-up: dies powered and the cycle of the last, rows released of each die, and the cycle of each die's last. -/
  diesUp : Nat
  dieAt : Nat
  rowsUp : List (Nat × Nat)
  rowAt : List (Nat × Nat)
  /-- The staged and the accepted firmware image, and its measurement FWM (R437). -/
  staged : Option (List (BitVec 8))
  fwm : BitVec 512
  svn : BitVec 16
  vfs : List (Nat × Vf)
  numVfs : Nat
  pfDblost : Bool
  /-- MCMD0–7, MDOOR and MBUF (R433, R434). -/
  mcmd : List (Nat × Word)
  mdoor : Word
  mbuf : List (Nat × BitVec 8)
  /-- The answer Akmon is preparing: status and output. -/
  answer : Option (Nat × List (BitVec 8))
  log : List LogRec
  /-- Traps that climbed past every context (R225, R452), newest first. -/
  akmon : List AkmonTrap
  /-- MSI-X messages sent: function (0 the PF) and vector, newest first (R427). -/
  msi : List (Nat × Nat)
  links : List (Nat × Link)
  /-- SLCE error counts by physical slice, failed slices (R47, R433). -/
  sliceCe : List (Nat × BitVec 32)
  failed : List Nat
  /-- Lines whose uncorrectable contents have been logged (R78, R190). -/
  logged : List Nat
  pnow : BitVec 32
  plim : BitVec 16
  /-- The limit enforced now, a new one that has not taken effect, and the cycle it was written (R439). -/
  limit : BitVec 16
  plimNew : Option (BitVec 16)
  plimAt : Nat
  thr : Bool
  /-- T0 to T3 (R438). -/
  temp : Word
  /-- The EtherType of Korxo frames (R428). -/
  etherType : BitVec 16
  device : BitVec 12
  /-- The pool-page directory: owner of each pool frame, by pool × 2^36 + frame (R50). -/
  owners : List (Nat × Nat)
  /-- Posted host writes not yet accepted (R426). -/
  hostWrites : List HostWrite
  /-- The bytes of the last host read that was served; none where it was answered UR (R425). -/
  hostReply : Option (List (BitVec 8))
  /-- Korxo frames received: highest sequence number by port (R428). -/
  korxoSeq : List (Nat × Nat)
  deriving DecidableEq, Repr

/-- The acts to come: the model's own, which agent moves next. -/
inductive Act where
  /-- Offer an issue cycle to a core (R203). -/
  | offer (c : Site)
  /-- The turn of a slot: fetch, decode and execute. -/
  | issue (c : Site) (slot : Nat)
  /-- One kind of the part's own events, at every agent it is due at. -/
  | phase (n : Nat)
  deriving DecidableEq, Repr

/-- A trap that climbs when the halt of its context is complete (R179, R225): the slot it came from, and the context whose
parent's reflection target is tried first. -/
structure PendingClimb where
  trap : Trap
  core : Site
  slot : Nat
  ctx : Nat
  gen : Nat
  start : Nat
  deriving DecidableEq, Repr

/-- What a save image stands for beyond the sections whose layout the spec gives (R416). -/
structure Image where
  /-- The bytes of the header and of the sections whose layout the spec does not give. -/
  key : List (BitVec 8)
  /-- The saved child. -/
  child : Nat
  /-- The saved contexts by ascending depth and number. -/
  ctxs : List (Nat × Ctx)
  /-- Each valid stage-2 entry: context, frame, parent frame, entry. -/
  frames : List (Nat × Nat × Nat × Word)
  cores : List (Nat × Core)
  /-- Queued view blocks, by die. -/
  churn : List (Nat × ChurnItem)
  /-- Used reduction slots: context, virtual address, contents. -/
  red : List (Nat × Nat × RedSlot)
  enrol : List (Nat × Enrol)
  /-- Queued and running launches, and PASS values, by die. -/
  queue : List (Nat × LaunchRec)
  running : List (Nat × Running)
  pass : List (Nat × Nat × Nat)
  deriving DecidableEq, Repr, Inhabited

/-- The whole machine. -/
structure State where
  mem : List Host.Cell
  /-- Words (address div 8) with the poison tag (R54). -/
  poison : List Nat
  /-- Words of device memory with an uncorrectable syndrome that nothing has replaced (R78). -/
  uncorr : List Nat
  /-- Words of A and S whose full-empty bit is empty (R54). -/
  empty : List Nat
  /-- Words of A and S that are engine-held (R71). -/
  held : List Nat
  cores : List (Nat × Core)
  clusters : List (Nat × Cluster)
  dies : List (Nat × Die)
  ctxs : List (Nat × Ctx)
  /-- Requests accepted by no bank yet, oldest first (R157). -/
  reqs : List Request
  reservations : List Reservation
  /-- Reservation requests queued at the banks, in acceptance order: word, core, slot (R186). -/
  resQueue : List (Nat × Nat × Nat)
  /-- Synchronising requests on their way to another core: number, core, slot, request (R62). -/
  syncs : List (Nat × Nat × Nat × SyncReq)
  redSlots : List RedSlot
  /-- Replies on their way (R412). -/
  replies : List Reply
  /-- Traps whose context's halt is still to complete (R179). -/
  climbs : List PendingClimb
  /-- Operations of the tree logic in the order they reached it: partition, core and slot (R43). -/
  treeOps : List (Nat × Site × Nat)
  /-- Enrolment by slice × 2048 + SFRAME (R79). -/
  enrol : List (Nat × Enrol)
  pkg : Package
  /-- The cycle counter CYC (R386). -/
  cyc : Nat
  /-- The model's own: the core and slot whose instruction `exec` runs. -/
  cur : Site × Nat
  /-- The model's own: what happens next. -/
  agenda : List Act
  /-- The model's own: how many free values have been drawn. -/
  draws : Nat
  /-- The model's own: the next number of a request, command, launch or reply. -/
  serial : Nat
  /-- What the save images written so far stand for, newest first (R416). -/
  images : List Image
  deriving DecidableEq, Repr

/-- What a meaning answers. -/
abbrev Out := Host.Outcome State Fault Refusal

/-! ### Reset -/

/-- A free slot (R202). Registers the spec gives no reset value are zero (log entry 1). -/
def Slot.reset : Slot :=
  { state := .free, ctx := 0, gen := 0, wp := 0, cb := [], cbPoison := [], pend := [], asIssued := [], wait := none, waitSince := none,
    walkFault := none, lanes := [], touched := 0, rsv := none, monitors := [], intr := false, exitVal := ⟨0, false⟩, table := none, tablePoison := false,
    frame := none, lastOffer := none, yielding := none, queued := false, kept := [], promises := [], gangTrap := none }

/-- A core at reset (R54). -/
def Core.reset : Core :=
  { slots := [], ptr := 0, chain := [], itlb := [], dtlb := [], icache := [], park := [], matrix := [], round := none,
    ports := [], interrupted := 0, placed := none, group := none, running := false, freeze := false, portFree := 0 }

/-- A cluster at reset. -/
def Cluster.reset : Cluster := { l2 := [], icache := [], misses := [], engine := [] }

/-- A die at reset. -/
def Die.reset : Die :=
  { churn := [], viewReqs := [], queue := [], pass := [], running := [], meshRetry := 0 }

/-- A context number that has never been used. -/
def Ctx.reset : Ctx :=
  { live := false, gen := 0, depth := 0, parent := 0, s1root := 0, s2base := 0, s2len := 0, darr := 0, s2 := [],
    sub := [], stopped := true, everRun := false, reflect := 0, grants := [], weight := 0, memBytes := 0,
    poolPages := 0, children := 0, launches := 0, used := [], prioMask := 0, dieMask := 0, groups := [], hcap := 0,
    handles := [], versions := [], tags := [], unmapped := [], arena0 := 0, arena1 := 0, redrgn := 0, arenaUsed := [], frees := [],
    pmr := 0, replies := [], halting := false }

/-- A monitor line at reset. -/
def Monitor.reset : Monitor := { armed := none, pending := false, stopped := none }

/-- A virtual function at reset (R424). -/
def Vf.reset : Vf :=
  { ctx := none, recovery := false, wbase := 0, hv := false, hw := false, hgpa := 0, dblost := false }

/-- A link at reset (R433). -/
def Link.reset : Link := { retry := 0, up := false, ret := false, recent := [], traffic := [] }

/-- An unused channel-bound frame (R79). -/
def Enrol.reset : Enrol := { rec_ := 0, map := 0 }

/-- The package at reset. FEATADV is 0x1FF on the CM2940, with BASE (R272): bits 9:1 are the features, bit 0 is 1;
FEAT has BASE alone. The fuse map, IRSIZE and CBS are DESIGN CHOICE values (log entry 1). -/
def Package.reset : Package :=
  { boot := .off, fuse := [], retired := none, irsize := 192 * (2 ^ 32 - 2 ^ 30 - 4096), cbs := 2 ^ 30,
    featAdv := 0x3FF, xsplit := 8, feat := 1, partitioned := false, diesUp := 0, dieAt := 0, rowsUp := [], rowAt := [], staged := none, fwm := 0, svn := 0,
    vfs := [], numVfs := 0, pfDblost := false, mcmd := [], mdoor := 0, mbuf := [], answer := none, log := [], akmon := [],
    msi := [], links := [], sliceCe := [], failed := [], logged := [], pnow := 0, plim := 2400,
    limit := 2400, plimNew := none, plimAt := 0, thr := false, temp := 0, etherType := 0x88B5, device := 0, owners := [], hostWrites := [], hostReply := none, korxoSeq := [] }

/-- The root context: depth 0, live (R452). Its number and generation are 0 (log entry 1). The spec gives handle capacities to
the contexts that CTX.NEW makes only: the root's is the largest that the field holds, a choice of the model (log entry 1). -/
def Ctx.root : Ctx :=
  { Ctx.reset with
    live := true, stopped := false, everRun := true, prioMask := 255, dieMask := 15, hcap := 0xFFFFF,
    weight := 2 ^ 32 - 1, memBytes := 2 ^ 64 - 1, poolPages := 2 ^ 64 - 1, children := 65535, launches := 65535 }

/-- The machine right after reset, before start-up begins (R436): nothing runs, memory and every buffer read as zero
with no poison and every full-empty bit full (R54, R436), and only the root context exists. -/
def State.reset : State :=
  { mem := [], poison := [], uncorr := [], empty := [], held := [], cores := [], clusters := [], dies := [], ctxs := [(0, Ctx.root)],
    reqs := [], reservations := [], resQueue := [], syncs := [], redSlots := [], replies := [], climbs := [], treeOps := [], enrol := [], pkg := Package.reset, cyc := 0, cur := (0, 0),
    agenda := [], draws := 0, serial := 0, images := [] }

end Sys2Proof.Machine
end

