-- ==== Sys2Proof/Machine/Mem.lean ====
section
/-!
DEFINITION. Memory: what an unlisted address reads as, the canonical form, and reads and writes of bytes, words and
lines. Byte order is decided here once: the least significant byte of a value lies at the lowest address (R11).
-/

namespace Sys2Proof.Machine

/-- What an address with no entry reads as: zero, for buffers (R54) and for device memory (R436). -/
def Memory.unlisted : Byte := 0

/-- The byte at an address. -/
def mget (m : List Host.Cell) (a : Nat) : Byte :=
  match m with
  | [] => Memory.unlisted
  | (a', b) :: t => if a = a' then b else mget t a

/-- Memory with the entry of an address removed. -/
def mdrop (m : List Host.Cell) (a : Nat) : List Host.Cell :=
  match m with
  | [] => []
  | (a', b) :: t => if a = a' then mdrop t a else (a', b) :: mdrop t a

/-- Memory with an entry put in address order. -/
def mput (m : List Host.Cell) (a : Nat) (b : Byte) : List Host.Cell :=
  match m with
  | [] => [(a, b)]
  | (a', b') :: t => if a < a' then (a, b) :: (a', b') :: t else (a', b') :: mput t a b

/-- Write a byte, keeping the canonical form: the value an unlisted address reads as has no entry. -/
def mset (m : List Host.Cell) (a : Nat) (b : Byte) : List Host.Cell :=
  if b = Memory.unlisted then mdrop m a else mput (mdrop m a) a b

/-- The canonical form: addresses strictly rising, and no entry equal to what an unlisted address reads as. -/
def Memory.wf : List Host.Cell → Bool
  | [] => true
  | [(_, b)] => b != Memory.unlisted
  | (a, b) :: (a', b') :: t => b != Memory.unlisted && decide (a < a') && Memory.wf ((a', b') :: t)

/-- `n` bytes from an address upward. -/
def mread (m : List Host.Cell) (a : Nat) : Nat → List Byte
  | 0 => []
  | n + 1 => mget m a :: mread m (a + 1) n

/-- Write bytes from an address upward. -/
def mwrite (m : List Host.Cell) (a : Nat) : List Byte → List Host.Cell
  | [] => m
  | b :: bs => mwrite (mset m a b) (a + 1) bs

/-- The value of a little-endian list of bytes (R11). -/
def bytesNat : List Byte → Nat
  | [] => 0
  | b :: bs => b.toNat + 256 * bytesNat bs

/-- `n` bytes of a value, the least significant first (R11). -/
def natBytes : Nat → Nat → List Byte
  | 0, _ => []
  | n + 1, v => BitVec.ofNat 8 v :: natBytes n (v / 256)

/-- The 64-bit word at an address. -/
def mword (m : List Host.Cell) (a : Nat) : Word := BitVec.ofNat 64 (bytesNat (mread m a 8))

/-- Write a 64-bit word. -/
def msetWord (m : List Host.Cell) (a : Nat) (w : Word) : List Host.Cell := mwrite m a (natBytes 8 w.toNat)

namespace State

/-- A physical word with its poison tag (R54). -/
def word (s : State) (a : Nat) : Tagged := ⟨mword s.mem a, s.poison.contains (a / 8)⟩

/-- Set or clear a word's poison tag. -/
def tag (s : State) (a : Nat) (p : Bool) : State :=
  { s with poison := if p then nset s.poison (a / 8) else ndel s.poison (a / 8) }

/-- Write a whole word and its tag (R54). -/
def setWord (s : State) (a : Nat) (t : Tagged) : State :=
  { (s.tag a t.poison) with mem := msetWord s.mem a t.val }

/-- The words an access of `n` bytes touches. -/
def wordsOf (a n : Nat) : List Nat := (List.range ((a % 8 + n + 7) / 8)).map (· + a / 8)

/-- Is any word of an access poisoned? -/
def anyPoison (s : State) (a n : Nat) : Bool := (wordsOf a n).any s.poison.contains

/-- Write bytes with the tag rules of R54: a whole word takes its tag from its data; part of a word keeps a set tag and
sets it from poisoned data. `p` gives one flag per word touched. -/
def setBytes (s : State) (a : Nat) (bs : List Byte) (p : List Bool) : State :=
  let whole (w : Nat) : Bool := decide (a ≤ 8 * w) && decide (8 * w + 8 ≤ a + bs.length)
  let tags := ((wordsOf a bs.length).zip (p ++ List.replicate bs.length false)).foldl (fun ps (w, q) =>
    if q then nset ps w else if whole w then ndel ps w else ps) s.poison
  { s with mem := mwrite s.mem a bs, poison := tags }

/-- Set a word's full-empty bit (R60). -/
def setFull (s : State) (a : Nat) (full : Bool) : State :=
  { s with empty := if full then ndel s.empty (a / 8) else nset s.empty (a / 8) }

/-- Is a word full (R60)? An engine-held word is kept empty (R71). -/
def isFull (s : State) (a : Nat) : Bool := !s.empty.contains (a / 8)

end State

end Sys2Proof.Machine
end

