-- ==== Sys2Proof/Machine/Slots.lean ====
section
/-!
DEFINITION. Cores, slots and control blocks: access to each part of the state by name, the workspace and its words,
results landing, and moving a slot past an instruction with its hardware loops and repeat frame.
-/

namespace Sys2Proof.Machine

/-! ### Fields of words -/

/-- Bits [lo + len − 1 : lo] of a word. -/
def fieldOf (w : Word) (lo len : Nat) : Nat := w.toNat / 2 ^ lo % 2 ^ len

/-- A word with bits [lo + len − 1 : lo] replaced. -/
def setField (w : Word) (lo len v : Nat) : Word :=
  BitVec.ofNat 64 (w.toNat - fieldOf w lo len * 2 ^ lo + v % 2 ^ len * 2 ^ lo)

/-- A word holding a natural number. -/
def wordOf (n : Nat) : Word := BitVec.ofNat 64 n

/-! ### The control block (R208) -/

/-- The index of each control-block word, its CSR number (R386). -/
def cbPc : Nat := 0
/-- STAT. -/
def cbStat : Nat := 1
/-- LC01 and LC23. -/
def cbLc : Nat := 2
/-- LS0 to LS3. -/
def cbLs : Nat := 4
/-- LE0 to LE3. -/
def cbLe : Nat := 8
/-- RPTST. -/
def cbRptst : Nat := 12
/-- UPV. -/
def cbUpv : Nat := 13
/-- SK. -/
def cbSk : Nat := 14
/-- TMO. -/
def cbTmo : Nat := 15
/-- LIMS. -/
def cbLims : Nat := 16
/-- FLT0 to FLT2. -/
def cbFlt : Nat := 17
/-- K01 to K67. -/
def cbK : Nat := 20
/-- MBX0 to MBX7. -/
def cbMbx : Nat := 24

namespace Slot

/-- A word of the held control block (R165). -/
def cbWord (sl : Slot) (i : Nat) : Word := aget sl.cb 0 i

/-- Write a word of the held control block. -/
def setCb (sl : Slot) (i : Nat) (w : Word) : Slot := { sl with cb := aset sl.cb i w }

/-- The program counter. -/
def pc (sl : Slot) : Word := sl.cbWord cbPc

/-- Set the program counter. -/
def setPc (sl : Slot) (w : Word) : Slot := sl.setCb cbPc w

/-- STAT (R209). -/
def stat (sl : Slot) : Word := sl.cbWord cbStat

/-- A field of STAT. -/
def statField (sl : Slot) (lo len : Nat) : Nat := fieldOf sl.stat lo len

/-- Set a field of STAT. -/
def setStat (sl : Slot) (lo len v : Nat) : Slot := sl.setCb cbStat (setField sl.stat lo len v)

/-- STAT.RESID (R204). -/
def resid (sl : Slot) : Nat := sl.statField 24 3

/-- STAT.VL (R306). -/
def vl (sl : Slot) : Nat := sl.statField 16 8

/-- STAT.UM (R222). -/
def um (sl : Slot) : Bool := sl.statField 8 1 == 1

/-- STAT.CHK (R206). -/
def chk (sl : Slot) : Bool := sl.statField 0 1 == 1

/-- RPTST.ACT (R210). -/
def act (sl : Slot) : Bool := fieldOf (sl.cbWord cbRptst) 0 1 == 1

/-- FTMO, at least 256 (R64). -/
def ftmo (sl : Slot) : Nat := max 256 (fieldOf (sl.cbWord cbTmo) 0 32)

/-- GTMO, at least 1,024 (R210). -/
def gtmo (sl : Slot) : Nat := max 1024 (fieldOf (sl.cbWord cbTmo) 32 32)

/-- PRLIM (R210). -/
def prlim (sl : Slot) : Nat := fieldOf (sl.cbWord cbLims) 0 8

/-- What a place held when the waiting instruction issued, where a result has landed there since (R162, R205). -/
def issued (sl : Slot) (d : Dest) : Option Tagged := (sl.asIssued.find? (·.1 == d)).map (·.2)

/-- A mask register as the control block holds it. -/
def heldMask (sl : Slot) (k : Nat) : BitVec 32 := BitVec.ofNat 32 (fieldOf (sl.cbWord (cbK + k / 2)) (32 * (k % 2)) 32)

/-- The mask register k as an instruction reads it; k0 reads as all ones (R208). -/
def kmask (sl : Slot) (k : Nat) : BitVec 32 :=
  if k = 0 then BitVec.allOnes 32
  else match sl.issued (.mask k) with
    | some t => t.val.setWidth 32
    | none => sl.heldMask k

/-- Is the K word that holds the mask poisoned, as an instruction reads it? k0 never is. -/
def kpoison (sl : Slot) (k : Nat) : Bool :=
  k != 0 && (match sl.issued (.mask k) with
    | some t => t.poison
    | none => sl.cbPoison.contains (cbK + k / 2))

/-- Write a mask register; a write to k0 is discarded (R310). A poisoned compare sets the tag of the K word (R310); a clean one leaves
it: the held words keep the tags they were loaded with (R165). DEDUCED, log entry 8: R226 would clear the tag of a register. -/
def setK (sl : Slot) (k : Nat) (v bits : Nat) (p : Bool) : Slot :=
  if k = 0 then sl
  else
    let i := cbK + k / 2
    let old := fieldOf (sl.cbWord i) (32 * (k % 2)) 32
    let new := (old &&& (2 ^ 32 - 1 - bits % 2 ^ 32)) ||| (v &&& bits)
    { (sl.setCb i (setField (sl.cbWord i) (32 * (k % 2)) 32 new)) with
      cbPoison := if p then nset sl.cbPoison i else sl.cbPoison }

/-- The loop count LCn (R208). -/
def lc (sl : Slot) (n : Nat) : Nat := fieldOf (sl.cbWord (cbLc + n / 2)) (32 * (n % 2)) 32

/-- Set the loop count LCn. -/
def setLc (sl : Slot) (n v : Nat) : Slot :=
  sl.setCb (cbLc + n / 2) (setField (sl.cbWord (cbLc + n / 2)) (32 * (n % 2)) 32 v)

/-- One step of EndCheck for loop n (R289): the slot, and whether the loop jumped back. -/
def endLoop (n : Nat) (e : Word) (sl : Slot) : Slot × Bool :=
  if sl.lc n != 0 && sl.cbWord (cbLe + n) == e then
    if sl.lc n > 1 then ((sl.setLc n (sl.lc n - 1)).setPc (sl.cbWord (cbLs + n)), true)
    else (sl.setLc n 0, false)
  else (sl, false)

/-- EndCheck from loop n − 1 down to loop 0. -/
def endCheckFrom : Nat → Word → Slot → Slot × Bool
  | 0, _, sl => (sl, false)
  | n + 1, e, sl =>
    match sl.endLoop n e with
    | (sl', true) => (sl', true)
    | (sl', false) => endCheckFrom n e sl'

/-- EndCheck(e, z) (R289). -/
def endCheck (sl : Slot) (e : Word) (z : Nat) : Slot :=
  match endCheckFrom 4 e sl with
  | (sl', true) => sl'
  | (sl', false) => sl'.setPc (e + wordOf z)

/-- Move past an instruction of a repeat frame (R291, R292). With no frame in progress RPTST reads 0 (log entry 8). -/
def frameStep (sl : Slot) (f : Frame) (len : Nat) : Slot :=
  let r := sl.cbWord cbRptst
  let idx := fieldOf r 16 4
  let iter := fieldOf r 20 12
  let back := fieldOf r 8 6
  if idx + 1 < f.code.length then
    (sl.setCb cbRptst (setField (setField r 16 4 (idx + 1)) 8 6 (back + len / 4))).setPc (sl.pc + wordOf len)
  else if iter + 1 < f.n then
    (sl.setCb cbRptst (setField (setField (setField r 16 4 0) 20 12 (iter + 1)) 8 6 0)).setPc
      (sl.pc - wordOf (4 * back))
  else
    { (sl.setCb cbRptst 0).endCheck sl.pc len with frame := none }

/-- Move a slot past an instruction of `len` bytes that took no transfer of control (R289, R291). -/
def advance (sl : Slot) (len : Nat) : Slot :=
  if sl.act then
    match sl.frame with
    | some f => sl.frameStep f len
    | none => sl.endCheck sl.pc len
  else sl.endCheck sl.pc len

/-- OR a set of flags into STAT (R93). -/
def orFlags (sl : Slot) (nv of_ uf nx : Bool) : Slot :=
  let st := sl.statField 4 4
  sl.setStat 4 4 (st ||| (8 * nv.toNat + 4 * of_.toNat + 2 * uf.toNat + nx.toNat))

/-- The cycle at which the instruction at the PC first parked, if it has (R64, R218, R242). -/
def parkedSince (sl : Slot) : Option Nat :=
  match sl.waitSince with
  | some (p, t) => if p = sl.pc then some t else none
  | none => none

/-- The stall count that an instruction leaves: none where it has parked (R204, R242). -/
def stallOf (sl : Slot) (st : Stall) : Nat := if sl.parkedSince.isSome then 0 else st.toNat

/-- A monitor line of the slot (R170). -/
def monitor (sl : Slot) (n : Nat) : Monitor := aget sl.monitors Monitor.reset n

end Slot

/-! ### Access by name -/

namespace State

/-- A core. -/
def core (s : State) (c : Site) : Core := aget s.cores Core.reset c

/-- Change a core. -/
def modCore (s : State) (c : Site) (f : Core → Core) : State := { s with cores := aset s.cores c (f (s.core c)) }

/-- A slot of a core. -/
def slot (s : State) (c : Site) (i : Nat) : Slot := aget (s.core c).slots Slot.reset i

/-- Change a slot. -/
def modSlot (s : State) (c : Site) (i : Nat) (f : Slot → Slot) : State :=
  s.modCore c fun k => { k with slots := aset k.slots i (f (aget k.slots Slot.reset i)) }

/-- The slot whose instruction runs. -/
def me (s : State) : Slot := s.slot s.cur.1 s.cur.2

/-- Change the slot whose instruction runs. -/
def modMe (s : State) (f : Slot → Slot) : State := s.modSlot s.cur.1 s.cur.2 f

/-- A cluster, by its number over the package. -/
def cluster (s : State) (n : Nat) : Cluster := aget s.clusters Cluster.reset n

/-- Change a cluster. -/
def modCluster (s : State) (n : Nat) (f : Cluster → Cluster) : State :=
  { s with clusters := aset s.clusters n (f (s.cluster n)) }

/-- A die. -/
def die (s : State) (n : Nat) : Die := aget s.dies Die.reset n

/-- Change a die. -/
def modDie (s : State) (n : Nat) (f : Die → Die) : State := { s with dies := aset s.dies n (f (s.die n)) }

/-- A context by its number. -/
def ctx (s : State) (n : Nat) : Ctx := aget s.ctxs Ctx.reset n

/-- Change a context. -/
def modCtx (s : State) (n : Nat) (f : Ctx → Ctx) : State := { s with ctxs := aset s.ctxs n (f (s.ctx n)) }

/-- The context of the slot whose instruction runs. -/
def myCtx (s : State) : Ctx := s.ctx s.me.ctx

/-- Change the package. -/
def modPkg (s : State) (f : Package → Package) : State := { s with pkg := f s.pkg }

/-- Is a site fused off (R4, R433)? -/
def fused (s : State) (c : Site) : Bool := (aget s.pkg.fuse 0 (c / 32)).getLsbD (c % 32)

/-- Is there a live core at a site? -/
def live (s : State) (c : Site) : Bool := decide (c < 4096) && !s.fused c

/-- The number of one bits of a word below bit `n`. -/
def onesBelow (w : BitVec 32) (n : Nat) : Nat := (List.range n).foldl (fun a i => a + (w.getLsbD i).toNat) 0

/-- The logical core number of a live site (R6). -/
def logical (s : State) (c : Site) : Nat :=
  c - s.pkg.fuse.foldl (fun a (r, m) =>
    a + if r < c / 32 then onesBelow m 32 else if r = c / 32 then onesBelow m (c % 32) else 0) 0

/-- The live sites of a range. -/
def liveIn (s : State) (from_ n : Nat) : List Site := ((List.range n).map (· + from_)).filter s.live

/-- Every slot that the state lists, by core and number. -/
def allSlots (s : State) : List (Site × Nat) := s.cores.flatMap fun (c, k) => k.slots.map fun (i, _) => (c, i)

/-- Does the power limit withhold something from a core in this cycle (R439)? At most in 7 cycles of every 8; which ones and where is
free (log entry 38). -/
def withheld (s : State) (c : Site) : Bool := s.pkg.thr && s.cyc % 8 != 0 && Config.withheld s.cyc c

/-- Draw a free number: a value the spec leaves open (log entry 2). -/
def drawNat (s : State) (f : Nat → Nat) : Nat × State := (f s.draws, { s with draws := s.draws + 1 })

/-- A fresh number for a request, command, launch or reply. -/
def fresh (s : State) : Nat × State := (s.serial, { s with serial := s.serial + 1 })

/-! ### Workspaces (R59, R207) -/

/-- The physical address of a workspace. -/
def wsBase (c : Site) (wp : BitVec 5) : Nat :=
  bufAddr c (if wp.toNat ≥ 16 then .s else .a) (wp.toNat % 16 * 4096)

/-- Does a WP code name a workspace (R207)? -/
def wpOk (w : Word) : Bool := fieldOf w 4 1 == 0 || decide (fieldOf w 0 4 < 12)

/-- The physical address of scalar register `r` of a slot (R243). -/
def regAddr (s : State) (c : Site) (i : Nat) (r : Reg) : Nat := wsBase c (s.slot c i).wp + 8 * r.toNat

/-- The physical address of vector register `v` (R243). -/
def vregAddr (s : State) (c : Site) (i : Nat) (v : VReg) : Nat := wsBase c (s.slot c i).wp + 0x200 + 64 * v.toNat

/-- A workspace word as the slot's instruction reads it: as it issued, where it waits (R162, R205). -/
def wordAt (s : State) (c : Site) (i a : Nat) : Tagged := ((s.slot c i).issued (.word a)).getD (s.word a)

/-- Read a scalar register of a slot; w0 reads as zero (R164). -/
def regAt (s : State) (c : Site) (i : Nat) (r : Reg) : Tagged := if r = 0 then ⟨0, false⟩ else s.wordAt c i (s.regAddr c i r)

/-- Read a scalar register of the issuing slot (R162). -/
def reg (s : State) (r : Reg) : Tagged := s.regAt s.cur.1 s.cur.2 r

/-- The eight words of a vector register of the issuing slot. -/
def vreg (s : State) (v : VReg) : List Tagged :=
  (List.range 8).map fun j => s.wordAt s.cur.1 s.cur.2 (s.vregAddr s.cur.1 s.cur.2 v + 8 * j)

/-- A whole-word write of a scalar register; none for w0, whose writes are discarded (R164). -/
def regWrite (s : State) (c : Site) (i : Nat) (r : Reg) (t : Tagged) : List WordWrite :=
  if r = 0 then [] else [⟨.word (s.regAddr c i r), t, BitVec.allOnes 64⟩]

/-! ### Results landing (R205, R236) -/

/-- Set the pending flag of every monitor line armed on a written line (R171). -/
def flagMonitors (s : State) (a n : Nat) : State :=
  let hit (m : Monitor) : Bool := match m.armed with
    | some (l, _) => decide (a / 64 ≤ l) && decide (l ≤ (a + n - 1) / 64)
    | none => false
  s.allSlots.foldl (fun s (c, i) =>
    if (s.slot c i).monitors.any (fun p => hit p.2) then
      s.modSlot c i fun sl => { sl with
        monitors := sl.monitors.map fun (k, m) => (k, if hit m then { m with pending := true } else m) }
    else s) s

/-- Land one word of a result: a write of its buffer, which monitors see (R59, R171, R304). -/
def landOne (s : State) (c : Site) (i : Nat) (w : WordWrite) : State :=
  let put (s : State) (a : Nat) : State :=
    if w.bits = 0 then s
    else (s.setWord a ⟨((s.word a).val &&& ~~~w.bits) ||| (w.data.val &&& w.bits), w.data.poison⟩).flagMonitors a 8
  match w.dest with
  | .word a => put s a
  | .line a => put s a
  | .mask k => s.modSlot c i fun sl => sl.setK k w.data.val.toNat w.bits.toNat w.data.poison

/-- Land the words of a result. -/
def landAll (s : State) (c : Site) (i : Nat) (ws : List WordWrite) : State := ws.foldl (fun s w => s.landOne c i w) s

/-- One turn of a slot passes: every result in flight is one turn nearer (R205). -/
def tickSlot (s : State) (c : Site) (i : Nat) : State :=
  s.modSlot c i fun sl => { sl with pend := sl.pend.map fun l => { l with turns := l.turns - 1 } }

/-- Land the results of a slot that are due, in the order they were issued (RESULT_LAND, R205). -/
def landDue (s : State) (c : Site) (i : Nat) : State :=
  let p := (s.slot c i).pend
  let s := (p.filter (·.turns = 0)).foldl (fun s l => s.landAll c i l.writes) s
  s.modSlot c i fun sl => { sl with pend := p.filter (·.turns ≠ 0) }

/-- Land the results in flight in landing order: by turn, then by issue. -/
def landByTurn : Nat → State → Site → Nat → List Landing → State
  | 0, s, _, _, _ => s
  | n + 1, s, c, i, p =>
    let s := (p.filter (·.turns = 0)).foldl (fun s l => s.landAll c i l.writes) s
    landByTurn n s c i ((p.filter (·.turns ≠ 0)).map fun l => { l with turns := l.turns - 1 })

/-- Land every result in flight of a slot, as a park or a halt does (R205, R236). -/
def drainResults (s : State) (c : Site) (i : Nat) : State :=
  (landByTurn 8 s c i (s.slot c i).pend).modSlot c i fun sl => { sl with pend := [] }

/-- What a place of a result holds. -/
def placeHolds (s : State) (c : Site) (i : Nat) (d : Dest) : Dest × Tagged :=
  match d with
  | .word a | .line a => (.word a, s.word a)
  | .mask k => (.mask k, ⟨((s.slot c i).heldMask k).setWidth 64, (s.slot c i).cbPoison.contains (cbK + k / 2)⟩)

/-- The results in flight of a slot are about to land under an instruction that has issued and goes on: it keeps the values of its
sources (R162, R205). -/
def keepIssued (s : State) (c : Site) (i : Nat) : State :=
  let ds := ((s.slot c i).pend.flatMap (·.writes)).map (·.dest)
  if ds.isEmpty then s
  else s.modSlot c i fun sl => { sl with asIssued := sl.asIssued ++ ds.map (s.placeHolds c i) }

/-- Land every result in flight under an instruction that has issued and goes on. -/
def landUnder (s : State) (c : Site) (i : Nat) : State := (s.keepIssued c i).drainResults c i

/-- `n` turns of a slot pass at once: the results due in them land, in landing order. -/
def passTurns : Nat → State → Site → Nat → State
  | 0, s, _, _ => s
  | n + 1, s, c, i => passTurns n ((s.tickSlot c i).landDue c i) c i

/-- The turns until every result in flight to a word has landed. -/
def turnsTo (sl : Slot) (a : Nat) : Nat :=
  (sl.pend.filter fun l => l.writes.any fun w => w.dest == .word a || w.dest == .line a).foldl
    (fun t l => max t l.turns) 0

/-- Wait until every result in flight to a word has landed (R163, R304). -/
def landWord (s : State) (c : Site) (i : Nat) (a : Nat) : State := passTurns (turnsTo (s.slot c i) a) s c i

/-! ### Waiting and waking -/

/-- Park a slot: its results land (R205), and it leaves the rotation. The instruction keeps what it read as it issued. -/
def park (s : State) (c : Site) (i : Nat) (w : Wait) : State :=
  (s.landUnder c i).modSlot c i fun sl =>
    { sl with
      state := .parked, wait := some w
      waitSince := some (sl.pc, sl.parkedSince.getD s.cyc) }

/-- Wake a slot so that its instruction issues again. -/
def wakeRetry (s : State) (c : Site) (i : Nat) : State :=
  s.modSlot c i fun sl => { (sl.setStat 24 3 0) with state := .ready, wait := none }

/-- Complete a parking instruction: everything lands, RESID is cleared, and the slot moves past it (R204, R205). -/
def complete (s : State) (c : Site) (i : Nat) (len : Nat) (ws : List WordWrite) : State :=
  ((s.drainResults c i).landAll c i ws).modSlot c i fun sl =>
    { ((sl.setStat 24 3 0).advance len) with state := .ready, wait := none, waitSince := none, asIssued := [] }

end State

end Sys2Proof.Machine
end

