-- ==== Sys2Proof/Machine/Bank.lean ====
section
/-!
DEFINITION. The banks: what accepting a read or a write does at a slice or a buffer (R76, R157), monitors (R171),
signal tests (R373), master writes (R109), reduction slots (R192, R193), reservations (R186 to R189), the full-empty
operations with the park table and Settle (R60 to R66), and requests in flight (R174 to R177).
-/

namespace Sys2Proof.Machine

/-- WAITVAL of a launch record, sign-extended (R392). -/
def LaunchRec.waitVal (r : LaunchRec) : Word := (BitVec.ofNat 16 (fieldOf (r.words.getD 2 0) 48 16)).signExtend 64

namespace State

/-! ### Reads and the words they touch -/

/-- Has the slice of a device address failed (R47)? Buffers never have. -/
def inFailed (s : State) (a : Nat) : Bool := decide (a < 2 ^ 40) && s.pkg.failed.contains (a / 2 ^ 32)

/-- Log a machine check in Akmon's log and raise PF vector 1 (R434). -/
def logCheck (s : State) (r : LogRec) : State :=
  s.modPkg fun p => { p with log := p.log ++ [r], msi := (0, 1) :: p.msi }

/-- Log a machine check of a slice. The spec gives a memory error no detail code and names no context for it: those
fields of the record are free values (log entry 2). -/
def logSlice (s : State) (slice : Nat) (addr : Word) : State :=
  let (d, s) := s.drawNat Config.freeNat
  let (c, s) := s.drawNat Config.freeNat
  let (g, s) := s.drawNat Config.freeNat
  s.logCheck ⟨0x15, d % 256, c % 65536, g % 256, addr, s.cyc, slice⟩

/-- A saturating count goes up by one (R433). -/
def satInc (c : BitVec 32) : BitVec 32 := if c = BitVec.allOnes 32 then c else c + 1

/-- Log the uncorrectable line of a word, once until it is replaced (R78, R190). -/
def logUncorr (s : State) (w : Nat) : State :=
  if s.uncorr.contains w && !s.pkg.logged.contains (w / 8) then
    (s.modPkg fun p => { p with logged := nset p.logged (w / 8) }).logSlice (w * 8 / 2 ^ 32) (wordOf (w * 8))
  else s

/-- A word as its bank returns it: an uncorrectable line and a failed slice return poison (R47, R78). -/
def bankWord (s : State) (a : Nat) : Tagged :=
  let t := s.word a
  ⟨t.val, t.poison || s.uncorr.contains (a / 8) || s.inFailed a⟩

/-! ### Effects of an accepted write -/

/-- The result word of WAITM (R172). -/
def waitmWord (evt line : Nat) : Word := wordOf (line * 256 + evt)

/-- The lowest-numbered pending line of a slot. -/
def pendingLine (sl : Slot) : Option Nat := (List.range 4).find? fun n => (sl.monitor n).pending

/-- What ends a WAITM now, with the slot's flag that it clears (R172). -/
def waitmEvent (sl : Slot) (deadline : Tagged) (cyc : Nat) : Option (Word × Slot) :=
  match pendingLine sl with
  | some n => some (waitmWord 1 n,
      { sl with monitors := aset sl.monitors n { (sl.monitor n) with pending := false } })
  | none =>
    if sl.intr then some (waitmWord 3 0, { sl with intr := false })
    else if deadline.poison || decide (deadline.val.toNat ≤ cyc) then some (waitmWord 2 0, sl)
    else none

/-- Complete a slot's WAITM if an event ends it (R172). -/
def tryWaitm (s : State) (c : Site) (i : Nat) : State :=
  match (s.slot c i).wait with
  | some (.waitm d dl len) =>
    match waitmEvent (s.slot c i) dl s.cyc with
    | some (w, sl) =>
      let s := s.modSlot c i fun _ => sl
      s.complete c i len (s.regWrite c i d ⟨w, dl.poison⟩)
    | none => s
  | _ => s

/-- Set the pending flag of every line armed on a written line, and wake its WAITM (R171). -/
def noteMonitors (s : State) (a n : Nat) : State :=
  let s := s.flagMonitors a n
  s.allSlots.foldl (fun s (c, i) => s.tryWaitm c i) s

/-- Test the SIGWAITs parked on a word (R373). -/
def testSignals (s : State) (a n : Nat) : State :=
  s.allSlots.foldl (fun s (c, i) =>
    match (s.slot c i).wait with
    | some (.signal w _ bound d _ len) =>
      if decide (a ≤ w) && decide (w < a + n) then
        let t := s.bankWord w
        if t.poison || BitVec.sle t.val bound then s.complete c i len (s.regWrite c i d t) else s
      else s
    | _ => s) s

/-- Test the wait signals of queued heads whose VALUE lies among some bytes (R397): one that is at most WAITVAL releases its head. -/
def testWaits (s : State) (a n : Nat) : State :=
  let hit (r : LaunchRec) : Bool := !r.released && r.waitAt.any fun w => decide (a ≤ w) && decide (w < a + n) &&
    !(s.bankWord w).poison && (s.bankWord w).val.sle r.waitVal
  if s.dies.any fun (_, d) => d.queue.any hit then
    { s with dies := s.dies.map fun (i, d) => (i, { d with
        queue := d.queue.map fun r => if hit r then { r with released := true } else r }) }
  else s

/-- The masters of a context: handle slot, block 0's virtual address, blocks (R106). -/
def masters (k : Ctx) : List (Nat × Nat × Nat) :=
  k.handles.filterMap fun (n, _, h) => match h with
    | .master w0 w1 => some (n, fieldOf w0 12 36 * 4096, fieldOf w1 0 25)
    | _ => none

/-- The key of a block's version or tag record. -/
def blockKey (h b : Nat) : Nat := 2 ^ 32 * h + b

/-- Queue a view block at its churn, or set its PEND bit (R109, R117). -/
def queueBlock (s : State) (ctx view block : Nat) (w0 : Word) : State :=
  let d := fieldOf w0 10 2
  let it : ChurnItem := ⟨ctx, view, block⟩
  let k := s.ctx ctx
  if (s.die d).churn.contains it || fieldOf (aget k.tags 0 (blockKey view block)) 29 1 == 1 then s
  else if (s.die d).churn.length < 4096 then s.modDie d fun x => { x with churn := x.churn ++ [it] }
  else s.modCtx ctx fun k => { k with
    tags := aset k.tags (blockKey view block) (setField (aget k.tags 0 (blockKey view block)) 29 1 1) }

/-- A master write: the block's version rises and the block is queued for every view (R108, R109). -/
def masterWrite (s : State) (ctx gen : Nat) (va : Nat) : State :=
  let k := s.ctx ctx
  if k.gen ≠ gen then s
  else
    (masters k).foldl (fun s (n, base, nblk) =>
      if base ≤ va ∧ va < base + nblk * 4096 then
        let b := (va - base) / 4096
        let s := s.modCtx ctx fun k => { k with
          versions := aset k.versions (blockKey n b) (aget k.versions 0 (blockKey n b) + 1) }
        k.handles.foldl (fun s (v, _, h) => match h with
          | .view m w0 .. => if m = n then s.queueBlock ctx v b w0 else s
          | _ => s) s
      else s) s

/-- Bytes have been written: monitors, parked signals and the wait signals of launches see it (R171, R373, R397). -/
def noteWrite (s : State) (a n : Nat) : State := ((s.noteMonitors a n).testSignals a n).testWaits a n

/-- The effects of an accepted write (R158): the data, with the tags of R54, then monitors, signals and the wait signals of launches. A failed slice drops
it (R47). -/
def acceptBytes (s : State) (a : Nat) (bs : List Byte) (p : List Bool) : State :=
  if s.inFailed a then s
  else
    let whole := (wordsOf a bs.length).filter fun w => decide (a ≤ 8 * w) && decide (8 * w + 8 ≤ a + bs.length)
    let s := s.setBytes a bs p
    let s := { s with uncorr := s.uncorr.filter (fun w => !whole.contains w) }
    let s := s.modPkg fun k => { k with logged := k.logged.filter fun l => s.uncorr.any (fun w => w / 8 = l) }
    s.noteWrite a bs.length

/-- The value of a word whose used reduction slots are added in ascending logical core number (R193). -/
def flushVal (acc : BitVec 32) (l : List RedSlot) : BitVec 32 :=
  l.foldl (fun a r => BitVec.ofNat 32 (fAdd Fmt.f32 (f32 a.toNat) (f32 r.value.toNat)).1) acc

/-- Insert a reduction slot by logical core number. Slots of several contexts at one core are added in the order of their last
contribution, a choice of the model (log entry 32). -/
def redInsert (r : RedSlot) : List RedSlot → List RedSlot
  | [] => [r]
  | x :: t => if r.core ≤ x.core then r :: x :: t else x :: redInsert r t

/-- Flush the contributions held for a word before the bank accepts another access to it (R193). -/
def flushWord (s : State) (w : Nat) : State :=
  let l := s.redSlots.filter (·.word = w)
  if l.isEmpty then s
  else
    let l := l.foldr redInsert []
    let t := s.bankWord (8 * w)
    let v := flushVal (t.val.setWidth 32) l
    { s with redSlots := s.redSlots.filter (·.word ≠ w) }.acceptBytes (8 * w)
      (natBytes 8 (setField t.val 0 32 v.toNat).toNat) [t.poison || l.any (·.poison)]

/-- Prepare the words of an access: an uncorrectable line is logged, reductions flush. -/
def touchWords (s : State) (a n : Nat) : State :=
  (wordsOf a n).foldl (fun s w => (s.logUncorr w).flushWord w) s

/-- The bytes of an access and whether a word of it is poisoned, in the prepared state. -/
def bankRead (s : State) (a n : Nat) : List Byte × Bool :=
  (mread s.mem a n, (wordsOf a n).any fun w => (s.bankWord (8 * w)).poison)

/-- A write of bytes accepted by a bank (R158): reductions held for its words flush first (R193). -/
def bankWrite (s : State) (a : Nat) (bs : List Byte) (p : List Bool) : State :=
  (s.touchWords a bs.length).acceptBytes a bs p

/-- A whole-word write accepted by a bank. -/
def bankSetWord (s : State) (a : Nat) (t : Tagged) : State := s.bankWrite a (natBytes 8 t.val.toNat) [t.poison]

/-! ### Full-empty words (R60 to R66) -/

/-- Is the word engine-held (R71)? -/
def isHeld (s : State) (a : Nat) : Bool := s.held.contains (a / 8)

/-- Can a waiting operation proceed on the word (R60, R71)? -/
def feReady (s : State) (op : FeOp) (a : Nat) : Bool :=
  match op with
  | .ldf | .ldfe => s.isFull a
  | .ste => !s.isFull a && !s.isHeld a
  | _ => true

/-- The word's new state under an operation that proceeds, and the result (R60, R71). -/
def fePerform (s : State) (op : FeOp) (a : Nat) (v : Tagged) : State × Tagged :=
  let t := s.word a
  match op with
  | .ldf => (s, t)
  | .ldfe => (s.setFull a false, t)
  | .ste => ((s.bankSetWord a v).setFull a true, t)
  | .stf => ({ ((s.bankSetWord a v).setFull a true) with held := ndel s.held (a / 8) }, t)
  | .feset => ({ (s.setFull a true) with held := ndel s.held (a / 8) }, t)
  | .feclr => (s.setFull a false, t)
  | .feqry => (s, ⟨if s.isFull a then 1 else 0, false⟩)

/-- Does the operation return a result? -/
def FeOp.hasResult : FeOp → Bool
  | .ldf | .ldfe | .feqry => true
  | _ => false

/-- The register writes of a completed synchronising access: its result and its base update (R293). -/
def syncWrites (s : State) (c : Site) (i : Nat) (r : SyncReq) (t : Tagged) : List WordWrite :=
  (if FeOp.hasResult r.op then s.regWrite c i r.d t else []) ++
    (match r.base with
     | some (b, v) => s.regWrite c i b v
     | none => [])

/-- One pass of Settle over the waiting requests of a word, in arrival order: who completed (R63). -/
def settlePass (s : State) (owner : Site) (w : Nat) : List Parked → State × Bool
  | [] => (s, false)
  | p :: rest =>
    if p.req.addr / 8 = w && s.feReady p.req.op p.req.addr then
      let (s, t) := s.fePerform p.req.op p.req.addr p.req.value
      let s := s.modCore owner fun k => { k with park := k.park.erase p }
      let s := s.complete p.core p.slot p.req.len (s.syncWrites p.core p.slot p.req t)
      ((settlePass s owner w rest).1, true)
    else settlePass s owner w rest

/-- Settle(word) (R63): passes until one completes none. Every pass but the last frees an entry of the park table. -/
def settleFuel : Nat → State → Site → Nat → State
  | 0, s, _, _ => s
  | n + 1, s, owner, w =>
    match settlePass s owner w (s.core owner).park with
    | (s, true) => settleFuel n s owner w
    | (s, false) => s

/-- The core whose buffer holds an address (R53). -/
def ownerOf (a : Nat) : Site := a / 2 ^ 20 % 4096

/-- Settle the word at an address. -/
def settle (s : State) (a : Nat) : State := settleFuel 66 s (ownerOf a) (a / 8)

/-- An engine write of a word: data, full, no longer held, Settle (R195). The first of two commands that hold one word ends the
hold, a choice of the model (log entry 11). -/
def engineWrite (s : State) (a : Nat) (t : Tagged) : State :=
  let s := s.bankSetWord a t
  if a < 2 ^ 40 then s
  else { (s.setFull a true) with held := ndel s.held (a / 8) }.settle a

/-- Empty a destination word and hold it for an engine, where it has a full-empty bit (R71). -/
def engineHold (s : State) (a : Nat) : State :=
  let b := (a - 2 ^ 40) / 2 ^ 17 % 8
  if a ≥ 2 ^ 40 ∧ a < 2 ^ 80 ∧ (b = 1 ∨ b = 3) then
    { (s.setFull a false) with held := nset s.held (a / 8) }
  else s

/-- Put a request in its owner's park table. -/
def parkAt (s : State) (owner : Site) (c : Site) (i : Nat) (r : SyncReq) : State :=
  (s.modCore owner fun k => { k with park := k.park ++ [⟨c, i, r⟩] }).park c i (.sync r)

/-- A refused request waits for its backoff (R64); its refusals are counted. -/
def refuse (s : State) (c : Site) (i : Nat) (r : SyncReq) : State :=
  s.park c i (.backoff { r with refusals := r.refusals + 1 } (s.cyc + 64 * 2 ^ (min (r.refusals + 1) 4)))

/-- A synchronising access arrives at its owner core and completes, parks or is refused (R62). -/
def syncArrive (s : State) (c : Site) (i : Nat) (r : SyncReq) : State :=
  let owner := ownerOf r.addr
  let table := (s.core owner).park
  match r.op with
  | .ldf | .ldfe | .ste =>
    if table.any (fun p => p.req.addr / 8 = r.addr / 8) then
      if table.length < 64 then (s.parkAt owner c i r).settle r.addr else s.refuse c i r
    else if s.feReady r.op r.addr then
      let (s, t) := s.fePerform r.op r.addr r.value
      s.complete c i r.len (s.syncWrites c i r t)
    else if table.length < 64 then s.parkAt owner c i r
    else s.refuse c i r
  | _ =>
    let (s, t) := s.fePerform r.op r.addr r.value
    let s := s.complete c i r.len (s.syncWrites c i r t)
    if r.op = .feqry then s else s.settle r.addr

/-! ### Reservations (R186 to R189) -/

/-- The reservation of a word. -/
def reservedBy (s : State) (w : Nat) : Option Reservation := s.reservations.find? (·.word = w)

/-- Does a reservation hold a write of a word by a unit of the part (R186, R187)? -/
def isReserved (s : State) (a : Nat) : Bool := (s.reservedBy (a / 8)).isSome

/-- Is a request held by another slot's reservation (R187)? A SIGDEC, which takes a reservation of its own, waits for any
reservation of its word and for the requests queued before it (R186, R372), and for another slot's reservation of the word of ARMED,
which the same step may write. -/
def heldReq (s : State) (r : Request) : Bool :=
  (wordsOf r.addr r.bytes.length).any fun w =>
    if r.sig.isSome then
      (s.reservedBy w).isSome || s.resQueue.any (·.1 = w) ||
        (s.reservedBy (w + 1)).any fun v => !(v.core == r.core && v.slot == r.slot)
    else match s.reservedBy w with
      | some v => !(v.core == r.core && v.slot == r.slot)
      | none => false

/-- The depth-1 ancestor of a context, or the context itself (R230). -/
def partitionOf (s : State) : Nat → Nat → Nat
  | 0, n => n
  | f + 1, n => if (s.ctx n).depth ≤ 1 then n else partitionOf s f (s.ctx n).parent

/-! ### The links between dies (R180, R433) -/

/-- A link. -/
def link_ (s : State) (l : Nat) : Link := aget s.pkg.links Link.reset l

/-- Change a link. -/
def modLink (s : State) (l : Nat) (f : Link → Link) : State := s.modPkg fun p => { p with links := aset p.links l (f (s.link_ l)) }

/-- The link of a shared edge that serves a row or a column: itself or, where it is retired, the next live one of the edge
(R431). After link 31 comes link 0, a choice of the model (log entry 37). -/
def edgeLink (s : State) (edge i : Nat) : Option Nat :=
  ((List.range 32).map fun j => 8 + 32 * edge + (i + j) % 32).find? fun l => !(s.link_ l).ret

/-- The die-to-die links that an agent's request crosses to another die (R180, R433): first east or west, on the link of the agent's
row, then north or south, on the link of its column. -/
def crossing (s : State) (c : Site) (die : Nat) : List Nat :=
  let d := Site.die c
  (if d % 2 = die % 2 then [] else (s.edgeLink (d / 2) (Site.y c)).toList) ++
    (if d / 2 = die / 2 then [] else (s.edgeLink (2 + die % 2) (Site.x c)).toList)

/-- The die of the bank of a device or mesh address (R1, R44, R53). -/
def dieOf (a : Nat) : Nat := if a < 2 ^ 40 then a / 2 ^ 32 / 48 else Site.die (ownerOf a)

/-- Note the traffic of a partition's access on the links that it crosses (R430, R431). The root's is no partition's. -/
def noteTraffic (s : State) (c : Site) (ctx a : Nat) : State :=
  if (s.ctx ctx).depth = 0 ∨ dieOf a = Site.die c then s
  else (s.crossing c (dieOf a)).foldl (fun s l => s.modLink l fun k =>
    { k with traffic := aset k.traffic (s.partitionOf 8 ctx) s.cyc }) s

/-- Send the vector of a signal object for a context: of its partition's virtual function, or of the PF for a root
context, values 2 to 63 (R372). -/
def sendVector (s : State) (ctx : Nat) (w1 : Word) : State :=
  let vec := fieldOf w1 0 11
  if (s.ctx ctx).depth = 0 then
    if 2 ≤ vec ∧ vec ≤ 63 then s.modPkg fun p => { p with msi := (0, vec) :: p.msi } else s
  else
    let p := s.partitionOf 8 ctx
    match s.pkg.vfs.find? fun v => v.2.ctx == some (p, (s.ctx p).gen) with
    | some (n, _) => s.modPkg fun k => { k with msi := (n, vec) :: k.msi }
    | none => s

/-- An accepted SIGDEC (R372): the decrement, and the vector when the result is at most 0 and ARMED is set. -/
def sigAccept (s : State) (r : Request) (v : Word) : State :=
  let s := s.touchWords r.addr 16
  let t := s.bankWord r.addr
  if t.poison || r.poison.any id then s
  else
    let n := t.val - v
    let s := s.bankSetWord r.addr ⟨n, false⟩
    let s := if r.viewed then s.masterWrite r.ctx r.gen r.va.toNat else s
    let w1 := s.word (r.addr + 8)
    if n.sle 0 && w1.val.getLsbD 63 then
      (s.bankSetWord (r.addr + 8) ⟨setField w1.val 63 1 0, w1.poison⟩).sendVector r.ctx w1.val
    else s

/-- The reduction region of a context holds a virtual address (R191, R388). -/
def inRegion (k : Ctx) (va : Nat) : Bool :=
  let base := fieldOf k.redrgn 3 45 * 8
  decide (base ≤ va) && decide (va < base + 8 * fieldOf k.redrgn 48 9)

/-- Perform an accepted RED (R192): into the core's slot of the word, or onto the word outside any region. -/
def redAccept (s : State) (r : Request) (v : BitVec 32) : State :=
  let p := r.poison.any id
  let w := r.addr / 8
  let k := s.ctx r.ctx
  if k.gen = r.gen && inRegion k r.va.toNat then
    let n := s.logical r.core
    let mine (x : RedSlot) : Bool := x.word == w && x.ctx == r.ctx && x.gen == r.gen && x.core == n
    let old := (s.redSlots.find? mine).getD ⟨w, r.ctx, r.gen, n, 0, false⟩
    let new : RedSlot := { old with
      value := BitVec.ofNat 32 (fAdd Fmt.f32 (f32 old.value.toNat) (f32 v.toNat)).1, poison := old.poison || p }
    { s with redSlots := s.redSlots.filter (fun x => !mine x) ++ [new] }
  else
    let s := s.logUncorr w
    let t := s.bankWord (8 * w)
    let x := (fAdd Fmt.f32 (f32 (t.val.setWidth 32).toNat) (f32 v.toNat)).1
    let s := s.acceptBytes (8 * w) (natBytes 8 (setField t.val 0 32 x).toNat) [t.poison || p]
    if r.viewed then s.masterWrite r.ctx r.gen r.va.toNat else s

/-- A bank accepts a request and performs it (R76, R157). -/
def acceptReq (s : State) (r : Request) : State :=
  let s := { s with reqs := s.reqs.erase r }
  match r.red with
  | some v => s.redAccept r v
  | none => match r.sig with
  | some v => s.sigAccept r v
  | none =>
    let s := s.bankWrite r.addr r.bytes r.poison
    if r.viewed then s.masterWrite r.ctx r.gen r.va.toNat else s

/-- Do two requests come from one slot to one bank? -/
def sameSource (q r : Request) : Bool := q.core == r.core && q.slot == r.slot && bankOf q.addr == bankOf r.addr

/-- Is a store or RED one of the holder of a reservation of its word (R187)? -/
def holderReq (s : State) (r : Request) : Bool :=
  r.sig.isNone && (wordsOf r.addr r.bytes.length).any fun w => match s.reservedBy w with
    | some v => v.core == r.core && v.slot == r.slot
    | none => false

/-- Is a request held by a reservation, or behind one of its slot at its bank that is (R187)? -/
def stuck (s : State) (q : Request) : Bool :=
  s.heldReq q || (!s.holderReq q && s.reqs.any fun h => sameSource h q && decide (h.n < q.n) && s.heldReq h)

/-- Must a request wait for an earlier one (R161, R174, R177)? A bank accepts the requests of one slot in order, and all of a slot's
requests follow its earlier SIGDECs (R356); but the holder of a reservation has its own stores accepted at once, past those that
another reservation keeps from their bank (R187). -/
def waitsFor (s : State) (r q : Request) : Bool :=
  let meets := decide (q.addr < r.addr + r.bytes.length) && decide (r.addr < q.addr + q.bytes.length)
  (q.core == r.core && q.slot == r.slot && q.sig.isSome) || (sameSource q r && !(s.holderReq r && s.stuck q && !meets))

/-- The first request of the list that its bank can accept now: it waits for no earlier one, and no reservation holds it
(R161, R177, R187). -/
def firstAcceptable (s : State) (p : Request → Bool) : List Request → List Request → Option Request
  | _, [] => none
  | seen, r :: t =>
    if p r && !s.heldReq r && !seen.any (s.waitsFor r) then some r
    else firstAcceptable s p (seen ++ [r]) t

/-- Accept every request that satisfies a test and can be accepted, in order. -/
def drainFuel : Nat → State → (Request → Bool) → State
  | 0, s, _ => s
  | n + 1, s, p =>
    match s.firstAcceptable p [] s.reqs with
    | some r => drainFuel n (s.acceptReq r) p
    | none => s

/-- Accept the requests that satisfy a test. -/
def drain (s : State) (p : Request → Bool) : State := drainFuel s.reqs.length s p

/-- Does a reservation of a word hold a host write, which its bank accepts before the next grant (R186, R187)? -/
def holdsHost (s : State) (w : Nat) : Bool := s.pkg.hostWrites.any fun h => h.heldBy.contains w

/-- Take a reservation for a slot if the word is free and no earlier request waits; else queue for it (R186). -/
def reserve (s : State) (c : Site) (i : Nat) (w : Nat) : Option State :=
  let blocked := (s.reservedBy w).isSome || s.holdsHost w
  let first := (s.resQueue.find? (·.1 = w)).all fun q => q == (w, c, i)
  if blocked || !first then none
  else some { s with resQueue := s.resQueue.filter (· != (w, c, i)) }

/-- Join the queue of a word's reservations, once (R186). -/
def enqueueRes (s : State) (c : Site) (i : Nat) (w : Nat) : State :=
  if s.resQueue.contains (w, c, i) then s else { s with resQueue := s.resQueue ++ [(w, c, i)] }

/-- Accept a request that a reservation held, after the earlier requests of its slot to its bank that nothing holds. -/
def acceptHeld (s : State) (r : Request) : State :=
  let s := s.drain fun q => sameSource q r && decide (q.n < r.n)
  if s.reqs.contains r && !s.heldReq r then s.acceptReq r else s

/-- End the reservation of a word: the stores and REDs it held are accepted in arrival order (R186). Host writes it held go
before the next grant (`reserve`). -/
def endReservation (s : State) (w : Nat) : State :=
  let s := { s with reservations := s.reservations.filter (·.word ≠ w) }
  (s.reqs.filter fun r => (wordsOf r.addr r.bytes.length).contains w || (r.sig.isSome && r.addr / 8 + 1 == w)).foldl acceptHeld s

/-- Drop a slot's RSV reservation, if it holds one, without a write (R189, R367). -/
def dropRsv (s : State) (c : Site) (i : Nat) : State :=
  match (s.slot c i).rsv with
  | some w => (s.modSlot c i fun sl => { sl with rsv := none }).endReservation w
  | none => s

/-- Can a slot parked on held accesses or on a queued reservation go on (R186, R187)? -/
def drainReady (s : State) (c : Site) (i : Nat) : Bool :=
  (s.resQueue.filter fun q => q.2 == (c, i)).all (fun q => (s.reserve c i q.1).isSome) &&
    !s.reqs.any fun r => r.core == c && r.slot == i && s.heldReq r

/-! ### Scopes (R160, R176) -/

/-- The touched bit of a bank (R176): its slice, or its die's class. -/
def touchBit (a : Nat) : Nat := if a < 2 ^ 40 then a / 2 ^ 32 else 192 + Site.die (ownerOf a)

/-- Is a physical address's bank inside a scope of a core (R160)? -/
def inScope (sc : Scope) (c : Site) (a : Nat) : Bool :=
  match sc with
  | .ctx => false
  | .core => decide (a ≥ 2 ^ 40) && ownerOf a == c
  | .clu => decide (a ≥ 2 ^ 40) && Site.cluster (ownerOf a) == Site.cluster c
  | .die => if a < 2 ^ 40 then a / 2 ^ 32 / 48 == Site.die c else Site.die (ownerOf a) == Site.die c
  | .dev | .pool => true

/-- The touched bits of a scope, which a fence clears when it completes (R178). -/
def scopeMask (sc : Scope) (c : Site) : BitVec 196 :=
  match sc with
  | .ctx | .core | .clu => 0
  | .die => BitVec.ofNat 196 ((2 ^ 48 - 1) * 2 ^ (48 * Site.die c) + 2 ^ (192 + Site.die c))
  | .dev | .pool => BitVec.allOnes 196

/-- The requests of a slot to banks in a scope. -/
def mine (c : Site) (i : Nat) (sc : Scope) (r : Request) : Bool :=
  r.core == c && r.slot == i && inScope sc c r.addr

/-- Has a slot earlier accesses in a scope that no bank has accepted? -/
def outstanding (s : State) (c : Site) (i : Nat) (sc : Scope) : Bool := s.reqs.any (mine c i sc)

/-- Settle every earlier access of a slot in a scope, as a release does (R175); some may stay held (R187). -/
def settleScope (s : State) (c : Site) (i : Nat) (sc : Scope) : State :=
  let s := s.drain (mine c i sc)
  if s.outstanding c i sc then s else s.modSlot c i fun sl => { sl with touched := sl.touched &&& ~~~scopeMask sc c }

end State

end Sys2Proof.Machine
end

