-- ==== Sys2Proof/Machine/Translate.lean ====
section
/-!
DEFINITION. Addresses: the interleave (R44 to R48), stage 1 and stage 2 with their checks (R17 to R28), mesh addresses
(R30 to R32), the TLBs, and the resolution of an access of an instruction.
-/

namespace Sys2Proof.Machine

/-! ### Trap causes and details (R29, R234, R235) -/

/-- A trap of the issuing context itself. -/
def ownTrap (cause detail : Nat) (addr info : Word) (acc : Nat) : Trap :=
  { cause := cause, detail := detail, addr := addr, info := info, owner := .own, acc := acc, straddle := false }

/-- ACC of an access kind (R211). -/
def Kind.acc : Kind → Nat
  | .read => 0 | .write => 1 | .fetch => 2

/-- A translation fault (R28, R29): a fetch reports cause FETCH; FLT2 is the guest-physical address of a PAGE or
REVOKED fault where it is known (R234). -/
def xlTrap (k : Kind) (cause detail : Nat) (owner : Owner) (va gpa : Nat) : Trap :=
  { cause := if k = .fetch then 2 else cause, detail := detail, addr := wordOf va
    info := if k = .fetch || cause == 4 then 0 else wordOf gpa
    owner := owner, acc := k.acc, straddle := false }

namespace State

/-! ### Machine addresses -/

/-- The live slice count N (R44). -/
def liveSlices (s : State) : Nat := if s.pkg.retired.isSome then 191 else 192

/-- The physical number of a live slice (R44). -/
def physSlice (s : State) (n : Nat) : Nat :=
  match s.pkg.retired with
  | some r => if n < r then n else n + 1
  | none => n

/-- MapInterleaved (R46): the physical address of a machine address of the interleaved region. -/
def mapInterleaved (s : State) (a : Nat) : Nat :=
  let n := s.liveSlices
  let g := a / 4096
  let o := a % 4096
  let st := s.pkg.irsize / (n * 4096)
  if g < st * n then devAddr (s.physSlice ((g % n + g / n) % n)) (g / n * 4096 + o)
  else devAddr (s.physSlice (g - st * n)) (st * 4096 + o)

/-- The physical address at an offset of a target (R46, R48, R50). -/
def targetAddr (s : State) (t : Target) (off : Nat) : Nat :=
  match t with
  | .inter a => s.mapInterleaved (a + off)
  | .cb sl o => devAddr (s.physSlice sl) (o + off)
  | .pool id f o => poolAddr id f (o + off)

/-- A target moved up by an offset. -/
def targetPlus (t : Target) (off : Nat) : Target :=
  match t with
  | .inter a => .inter (a + off)
  | .cb sl o => .cb sl (o + off)
  | .pool id f o => .pool id f (o + off)

/-! ### Stage 2 (R24 to R27) -/

/-- The target of a stage-2 entry, or none where it is malformed (R26, R48). -/
def s2Target (s : State) (e : Word) : Option Target :=
  let cb := e.getLsbD 5
  let pool := e.getLsbD 6
  if cb && pool then none
  else if pool then some (.pool (fieldOf e 12 16) (fieldOf e 28 36) 0)
  else if cb then
    if fieldOf e 31 33 = 0 ∧ fieldOf e 12 8 < s.liveSlices ∧ fieldOf e 20 11 < s.pkg.cbs / 2 ^ 21 then
      some (.cb (fieldOf e 12 8) (2 ^ 32 - s.pkg.cbs + fieldOf e 20 11 * 2 ^ 21))
    else none
  else if fieldOf e 40 24 = 0 ∧ fieldOf e 12 9 = 0 ∧ fieldOf e 21 19 < s.pkg.irsize / 2 ^ 21 then
    some (.inter (fieldOf e 21 19 * 2 ^ 21))
  else none

/-- Does an entry permit a kind of access (R20, R25)? Both stages have X, W, R in bits 3 to 1. -/
def permits (e : Word) (k : Kind) : Bool :=
  match k with
  | .read => e.getLsbD 1
  | .write => e.getLsbD 2
  | .fetch => e.getLsbD 3

/-- The physical address of a context's stage-2 entry (R18, R24). -/
def s2Addr (s : State) (ctx i : Nat) : Nat := s.mapInterleaved ((s.ctx ctx).s2base * 4096 + 8 * i)

/-- The physical address of the line of a context's dirty sub-bitmap (R27). -/
def subAddr (s : State) (ctx i : Nat) : Nat := s.mapInterleaved ((s.ctx ctx).darr * 4096 + 64 * i)

/-- Do two ranges of machine frames have none in common? -/
def framesApart (a n b m : Nat) : Bool := decide (a + n ≤ b) || decide (b + m ≤ a)

/-- Is a range of machine frames in no context's memory and in no array of one (R18)? -/
def framesFree (s : State) (a n : Nat) : Bool :=
  s.ctxs.all fun (_, k) => !k.live ||
    (framesApart a n k.s2base (k.s2len / 512) && (k.darr == 0 || framesApart a n k.darr (k.s2len / 64)) &&
      k.s2.all fun (_, e) => !e.getLsbD 0 || e.getLsbD 5 || e.getLsbD 6 || framesApart a n (fieldOf e 21 19 * 512) 512)

/-- The first free place for an array among `room` machine frames from `lo` on, from the `x`-th upward by 2 MiB and around. -/
def seekFrames (s : State) (n lo room : Nat) : Nat → Nat → Nat
  | 0, x => lo + x % room
  | f + 1, x => if s.framesFree (lo + x % room) n then lo + x % room else seekFrames s n lo room f (x + 512)

/-- A place in interleaved memory for an array of `n` machine frames (R18), not below frame `lo`: a free choice among those that no
context uses; where there is none, any (log entry 23). -/
def placeFrames (s : State) (n lo : Nat) : Nat × State :=
  let (x, s) := s.drawNat Config.freeNat
  (s.seekFrames n lo (s.pkg.irsize / 4096 + 1 - n - lo) 294912 x, s)

/-- Is a word of tables poison as its slice returns it (R47, R78)? -/
def lostWord (s : State) (a : Nat) : Bool := s.poison.contains (a / 8) || s.uncorr.contains (a / 8) || s.inFailed a

/-- A word of tables has been written: its line is clean there. -/
def cleanWord (s : State) (a : Nat) : State :=
  { s with
    poison := ndel s.poison (a / 8)
    uncorr := ndel s.uncorr (a / 8) }

/-- Write a stage-2 entry, one 64-bit write (R24, R40); a failed slice drops it (R47). -/
def s2Write (s : State) (ctx i : Nat) (e : Word) : State :=
  if s.inFailed (s.s2Addr ctx i) then s
  else (s.cleanWord (s.s2Addr ctx i)).modCtx ctx fun c => { c with s2 := if e = 0 then adel c.s2 i else aset c.s2 i e }

/-- Write a dirty sub-bitmap (R27); a failed slice drops it (R47). -/
def subWrite (s : State) (ctx i : Nat) (b : BitVec 512) : State :=
  if s.inFailed (s.subAddr ctx i) then s
  else s.modCtx ctx fun c => { c with sub := if b = 0 then adel c.sub i else aset c.sub i b }

/-- MCHECK of a walk whose table entry has an uncorrectable error (R28, R234): owned by the root. FLT1 is the address of the
entry, guest-physical for stage 1 and physical for stage 2; FLT2 is its physical address until the record's number takes its place, when
the trap is raised. -/
def walkCheck (k : Kind) (a phys : Nat) : Trap := { ownTrap 0x15 1 (wordOf a) (wordOf phys) k.acc with owner := .root }

/-- A table entry held by a second-level TLB for a context (R35). -/
def cachedTable (tc : List TableEntry) (ctx gen level index : Nat) : Option Word :=
  (tc.find? fun x => x.ctx == ctx && x.gen == gen && x.level == level && x.index == index).map (·.word)

/-- The stage-2 step of R28: the entry that covers a guest-physical address, with its index and target; `tc` are the table
entries held by the walker's TLB. `k` is the kind reported, `p` the permission needed. -/
def stage2With (s : State) (tc : List TableEntry) (ctx : Nat) (va gpa : Nat) (k p : Kind) :
    Except Trap (Nat × Word × Target) :=
  let c := s.ctx ctx
  let i := gpa / 2 ^ 21
  let held := cachedTable tc ctx c.gen 0 i
  let e := held.getD (aget c.s2 0 i)
  let owner := Owner.depth (fieldOf e 8 3)
  if i ≥ c.s2len then .error (xlTrap k 3 0x8 .parent va gpa)
  else if held.isNone && s.lostWord (s.s2Addr ctx i) then .error (walkCheck k (s.s2Addr ctx i) (s.s2Addr ctx i))
  else if !e.getLsbD 0 && e.getLsbD 11 then .error (xlTrap k 0x12 0x9 owner va gpa)
  else if !e.getLsbD 0 then .error (xlTrap k 3 0x5 owner va gpa)
  else match s.s2Target e with
    | none => .error (xlTrap k 3 0x7 owner va gpa)
    | some t => if permits e p then .ok (i, e, t) else .error (xlTrap k 4 0x6 owner va gpa)

/-- The stage-2 step for an agent that holds no table entry. -/
def stage2 (s : State) (ctx : Nat) (va gpa : Nat) (k p : Kind) : Except Trap (Nat × Word × Target) :=
  s.stage2With [] ctx va gpa k p

/-- Record a write through a stage-2 entry: D in the array, and the sub-bit of a dirty-tracked entry (R25, R27). -/
def markDirty2 (s : State) (ctx i gpa : Nat) (e : Word) : State :=
  let c := s.ctx ctx
  let s := s.s2Write ctx i (aget c.s2 0 i ||| 0x10)
  if e.getLsbD 7 then s.subWrite ctx i (aget c.sub 0 i ||| (1#512 <<< (gpa % 2 ^ 21 / 4096))) else s

/-! ### Stage 1 (R19 to R23) -/

/-- Is a valid stage-1 entry malformed at its level (R20 to R22)? -/
def s1Bad (e : Word) (level : Nat) : Bool :=
  let leaf := e.getLsbD 6
  fieldOf e 40 16 != 0 || e.getLsbD 11 || fieldOf e 4 2 != 0 ||
    (if leaf then
      level ≤ 2 || (e.getLsbD 2 && !e.getLsbD 1) ||
        (if level = 3 then e.getLsbD 9 || fieldOf e 12 9 != 0 else e.getLsbD 9 && fieldOf e 12 4 != 0)
    else level == 4 || fieldOf e 1 11 != 0)

/-- The index of a virtual address at a level (R19). -/
def s1Index (va level : Nat) : Nat := va / 2 ^ (48 - 9 * level) % 512

/-- Read an entry of a stage-1 table through stage 2 (R19): its value and its physical address. -/
def readTable (s : State) (tc : List TableEntry) (ctx va : Nat) (k : Kind) (gpa : Nat) : Except Trap (Word × Nat) :=
  match s.stage2With tc ctx va gpa k .read with
  | .error t => .error t
  | .ok (_, _, .pool ..) => .error (xlTrap k 3 0xA .own va gpa)
  | .ok (_, _, t) =>
    let a := s.targetAddr t (gpa % 2 ^ 21)
    let w := s.bankWord a
    if w.poison then .error (walkCheck k gpa a) else .ok (w.val, a)

/-- The stage-1 walk from the table of level `4 - n`: the leaf entry, its level and its physical address. -/
def walkFrom (s : State) (tc : List TableEntry) (ctx va : Nat) (k : Kind) : Nat → Nat → Except Trap (Word × Nat × Nat)
  | 0, _ => .error (xlTrap k 3 0x4 .own va 0)
  | n + 1, table =>
    let level := 4 - n
    match s.readTable tc ctx va k (table * 4096 + s1Index va level * 8) with
    | .error t => .error t
    | .ok (e, a) =>
      if !e.getLsbD 0 then .error (xlTrap k 3 0x2 .own va 0)
      else if s1Bad e level then .error (xlTrap k 3 0x4 .own va 0)
      else if e.getLsbD 6 then .ok (e, level, a)
      else walkFrom s tc ctx va k n (fieldOf e 12 28)

/-- The table words that a walk reads are touched: contributions held for them flush, an uncorrectable line is logged (R78,
R193). -/
def walkTouch (tc : List TableEntry) (ctx va : Nat) (k : Kind) : Nat → Nat → State → State
  | 0, _, s => s
  | n + 1, table, s =>
    let level := 4 - n
    let gpa := table * 4096 + s1Index va level * 8
    match s.stage2With tc ctx va gpa k .read with
    | .error _ => s
    | .ok (_, _, .pool ..) => s
    | .ok (_, _, t) =>
      let s := s.touchWords (s.targetAddr t (gpa % 2 ^ 21)) 8
      match s.readTable tc ctx va k gpa with
      | .error _ => s
      | .ok (e, _) => if e.getLsbD 0 && !s1Bad e level && !e.getLsbD 6 then walkTouch tc ctx va k n (fieldOf e 12 28) s else s

/-- The stage-1 walk of an agent that holds no table entry. -/
def walk1 (s : State) (ctx va : Nat) (k : Kind) (n table : Nat) : Except Trap (Word × Nat × Nat) :=
  s.walkFrom [] ctx va k n table

/-- Where a walk starts: below the deepest table entry held for the address (R35), else at the root table. -/
def walkStart (s : State) (tc : List TableEntry) (ctx va : Nat) : Nat × Nat :=
  let c := s.ctx ctx
  match cachedTable tc ctx c.gen 3 (va / 2 ^ 21) with
  | some e => (1, fieldOf e 12 28)
  | none => match cachedTable tc ctx c.gen 2 (va / 2 ^ 30) with
    | some e => (2, fieldOf e 12 28)
    | none => (4, c.s1root)

/-- The table entries that a walk from `walkStart` reads (R35): those of stage 1 at levels 2 and 3, and those of stage 2. -/
def walkReads (s : State) (tc : List TableEntry) (ctx va : Nat) (k : Kind) : Nat → Nat → List TableEntry
  | 0, _ => []
  | n + 1, table =>
    let level := 4 - n
    let gen := (s.ctx ctx).gen
    let gpa := table * 4096 + s1Index va level * 8
    let two := match s.stage2With tc ctx va gpa k .read with
      | .ok (i, e, _) => [⟨ctx, gen, 0, i, e⟩]
      | .error _ => []
    match s.readTable tc ctx va k gpa with
    | .ok (e, _) =>
      if e.getLsbD 0 && !s1Bad e level && !e.getLsbD 6 then
        two ++ (if level = 2 ∨ level = 3 then [⟨ctx, gen, level, va / 2 ^ (48 - 9 * level), e⟩] else []) ++
          walkReads s tc ctx va k n (fieldOf e 12 28)
      else two
    | .error _ => two

/-- The page size of a leaf (R21). -/
def leafSize (e : Word) (level : Nat) : Nat := if level = 3 then 2 ^ 21 else if e.getLsbD 9 then 2 ^ 16 else 4096

/-- Set bits of a leaf entry by an atomic OR at its slice (R23): a write that monitors see (R171). Setting what is set changes
nothing. The spec does not say whether it counts as a write of the table's own 4 KiB for dirty tracking (R27): in the model it sets no
D and no sub-bit of the stage-2 entry that maps the table, a choice of the model (log entry 23). -/
def orLeaf (s : State) (a : Nat) (e bits : Word) : State :=
  if e ||| bits = e then s else s.acceptBytes a (natBytes 8 (e ||| bits).toNat) [false]

/-- Translate (R28) for a virtual address whose form has passed, by a walker that holds the table entries `tc`: the composed
entry, and the state with A, D and the sub-bit set unless `touch` is off. -/
def translateWith (s : State) (tc : List TableEntry) (ctx va : Nat) (k : Kind) (touch : Bool) :
    Except Trap (TlbEntry × State) :=
  let c := s.ctx ctx
  let b := s.walkStart tc ctx va
  let s := if touch then walkTouch tc ctx va k b.1 b.2 s else s
  match s.walkFrom tc ctx va k b.1 b.2 with
  | .error t => .error t
  | .ok (e, level, a) =>
    if !permits e k then .error (xlTrap k 4 0x3 .own va 0)
    else
      let size := leafSize e level
      let gpa := fieldOf e 12 28 * 4096 / size * size + va % size
      match s.stage2With tc ctx va gpa k k with
      | .error t => .error t
      | .ok (_, _, .pool ..) => .error (xlTrap k 3 0xA .own va gpa)
      | .ok (i, e2, t) =>
        let wr := k == .write
        let s := if touch then s.orLeaf a e (if wr then 0x180 else 0x80) else s
        let s := if touch && wr then s.markDirty2 ctx i gpa e2 else s
        let psz := if e2.getLsbD 7 then 4096 else size
        .ok ({ slot := 11, ctx := ctx, gen := c.gen, size := psz, page := va / psz * psz
               target := targetPlus t (gpa / psz * psz % 2 ^ 21)
               r := e.getLsbD 1 && e2.getLsbD 1, w := e.getLsbD 2 && e2.getLsbD 2
               x := e.getLsbD 3 && e2.getLsbD 3, d := wr, viewed := e.getLsbD 10 }, s)

/-- Translate for an agent that holds no table entry. -/
def translate (s : State) (ctx va : Nat) (k : Kind) (touch : Bool) : Except Trap (TlbEntry × State) :=
  s.translateWith [] ctx va k touch

/-- The table entries a walk learns: those on its way, and the stage-2 entry of its page. -/
def walkLearns (s : State) (tc : List TableEntry) (ctx va : Nat) (k : Kind) : List TableEntry :=
  let b := s.walkStart tc ctx va
  s.walkReads tc ctx va k b.1 b.2 ++
    (match s.walkFrom tc ctx va k b.1 b.2 with
     | .ok (e, level, _) =>
       let size := leafSize e level
       match s.stage2With tc ctx va (fieldOf e 12 28 * 4096 / size * size + va % size) k k with
       | .ok (i, e2, _) => [⟨ctx, (s.ctx ctx).gen, 0, i, e2⟩]
       | .error _ => []
     | .error _ => [])

/-- Is a virtual address canonical (R17)? -/
def canonical (va : Word) : Bool := fieldOf va 48 15 == 0

/-- Translate for an agent without a TLB of its own (an engine, a sequencer, a walker for the tree logic): the physical
address, VIEWED, and the state after the walk. -/
def translateDirect (s : State) (ctx : Nat) (va : Word) (k : Kind) : Except Trap (Nat × Bool × State) :=
  if !canonical va then .error (xlTrap k 3 0x1 .own va.toNat 0)
  else match s.translate ctx va.toNat k true with
    | .error t => .error t
    | .ok (e, s) => .ok (s.targetAddr e.target (va.toNat % e.size), e.viewed, s)

/-! ### TLBs (R33 to R36) -/

/-- Does a TLB entry translate an access of a context? -/
def tlbHit (e : TlbEntry) (ctx gen va : Nat) (k : Kind) : Bool :=
  e.ctx == ctx && e.gen == gen && e.page ≤ va && decide (va < e.page + e.size) &&
    (match k with
     | .read => e.r
     | .write => e.w && e.d
     | .fetch => e.x)

/-- Do two entries translate the same page for the same holder? -/
def samePage (a b : TlbEntry) : Bool :=
  a.slot == b.slot && a.ctx == b.ctx && a.gen == b.gen && a.page == b.page && a.size == b.size

/-- Install an entry in a TLB of a given capacity; which entry a full TLB gives up is free (R35). -/
def tlbInsert (l : List TlbEntry) (cap victim : Nat) (e : TlbEntry) : List TlbEntry :=
  let l := l.filter fun x => !samePage x e
  if l.length < cap then e :: l else e :: l.eraseIdx (victim % l.length)

/-- The leaf of a second-level entry. -/
def L2Entry.leaf? : L2Entry → Option TlbEntry
  | .leaf e => some e
  | .table _ => none

/-- The table entry of a second-level entry. -/
def L2Entry.table? : L2Entry → Option TableEntry
  | .leaf _ => none
  | .table t => some t

/-- The set of a second-level entry: for a leaf, six bits of its virtual address above the page offset (R35); for a table
entry, the low six bits of its index (log entry 6). -/
def l2Set : L2Entry → Nat
  | .leaf e => e.page / e.size % 64
  | .table t => t.index % 64

/-- Do two second-level entries stand for the same page or table entry? -/
def l2Same : L2Entry → L2Entry → Bool
  | .leaf a, .leaf b => samePage a b
  | .table a, .table b => a.ctx == b.ctx && a.gen == b.gen && a.level == b.level && a.index == b.index
  | _, _ => false

/-- Install an entry in a second-level TLB of 64 sets and 8 ways; which entry of a full set goes is free (R35). -/
def l2Insert (l : List L2Entry) (victim : Nat) (e : L2Entry) : List L2Entry :=
  let l := l.filter fun x => !l2Same x e
  let mine := l.filter fun x => l2Set x == l2Set e
  if mine.length < 8 then e :: l else e :: l.erase (mine.getD (victim % mine.length) e)

/-- Look an address up in a second-level TLB: page sizes 4 KiB, 64 KiB and 2 MiB in turn (R35). -/
def l2Find (l : List L2Entry) (ctx gen va : Nat) (k : Kind) : Option TlbEntry :=
  [4096, 2 ^ 16, 2 ^ 21].findSome? fun size => (l.filterMap L2Entry.leaf?).find? fun e => e.size == size && tlbHit e ctx gen va k

/-- Take an entry of a list away: every TLB entry may be dropped at any time and walked again (R35, R391). -/
def dropOne {α : Type} (l : List α) (victim : Nat) : List α := l.eraseIdx (victim % (l.length + 1))

/-- What resolving an address gives. -/
inductive Resolved where
  /-- A physical address; whether it is the core's own buffer; the leaf's VIEWED bit. -/
  | at_ (addr : Nat) (own viewed : Bool)
  | fault (t : Trap)
  | miss
  deriving DecidableEq, Repr

/-- Resolve a virtual address for the issuing slot through its data TLB (R28, R33, R36). -/
def resolveVa (s : State) (va : Word) (k : Kind) : Resolved :=
  let sl := s.me
  let v := va.toNat
  if !canonical va then .fault (xlTrap k 3 0x1 .own v 0)
  else
    match ((s.core s.cur.1).dtlb ++ sl.lanes).find? fun e => e.slot == s.cur.2 && tlbHit e sl.ctx sl.gen v k with
    | some e => .at_ (s.targetAddr e.target (v - e.page)) false e.viewed
    | none =>
      match sl.walkFault with
      | some (p, k', t) => if p = v / 4096 ∧ k' = k then .fault { t with addr := if t.cause = 0x15 then t.addr else va }
          else .miss
      | none => .miss

/-- Bits of a mesh address as a signed five-bit number. -/
def signed5 (n : Nat) : Int := if n ≥ 16 then (n : Int) - 32 else n

/-- The site, buffer and offset a mesh address names, with the form checks of R31. -/
def meshForm (s : State) (c : Site) (va : Word) : Except Trap (Site × Buf × Nat) :=
  let mode := fieldOf va 61 2
  let die := fieldOf va 59 2
  let y := fieldOf va 54 5
  let x := fieldOf va 49 5
  let bad := ownTrap 4 0xB va 0 3
  let gone := ownTrap 0x11 0xE va 0 3
  match Buf.ofCode (fieldOf va 46 3) with
  | none => .error bad
  | some b =>
    if mode ≥ 2 ∨ fieldOf va 20 26 ≠ 0 ∨ (mode = 1 ∧ die ≠ 0) then .error bad
    else
      let ry := if mode = 1 then (Site.y c : Int) + signed5 y else y
      let rx := if mode = 1 then (Site.x c : Int) + signed5 x else x
      if ry < 0 ∨ ry > 31 ∨ rx < 0 ∨ rx > 31 then .error gone
      else
        let t := Site.mk (if mode = 1 then Site.die c else die) rx.toNat ry.toNat
        if s.fused t then .error gone else .ok (t, b, fieldOf va 0 20)

/-- Is a context, by number and generation, the root (R452)? -/
def rootCtx (s : State) (ctx gen : Nat) : Bool := (s.ctx ctx).live && (s.ctx ctx).depth == 0 && (s.ctx ctx).gen == gen

/-- Is a mesh access of a context to a core admitted (R32)? -/
def admitted (s : State) (ctx gen : Nat) (t : Site) : Bool := s.rootCtx ctx gen || (s.core t).chain.contains (ctx, gen)

/-- The checks of R31 and R55 on a mesh address: the physical address, and whether it is the core's own. -/
def meshCheck (s : State) (c : Site) (ctx gen : Nat) (va : Word) (size : Nat) (k : Kind) : Except Trap (Nat × Bool) :=
  match s.meshForm c va with
  | .error t => .error { t with acc := k.acc }
  | .ok (t, b, off) =>
    if off + size > b.size then .error (ownTrap 4 0xC va 0 k.acc)
    else if !s.admitted ctx gen t then .error (ownTrap 4 0xD va 0 k.acc)
    else if k = .write ∧ b = .c then .error (ownTrap 4 0xB va 0 k.acc)
    else .ok (bufAddr t b off, t == c)

/-- Is the address in mesh space (R16)? -/
def isMesh (va : Word) : Bool := va.getLsbD 63

/-- Resolve an address of the issuing slot (R293). -/
def resolve (s : State) (va : Word) (size : Nat) (k : Kind) : Resolved :=
  if isMesh va then
    match s.meshCheck s.cur.1 s.me.ctx s.me.gen va size k with
    | .ok (a, own) => .at_ a own false
    | .error t => .fault t
  else s.resolveVa va k

/-- Resolve an address for an agent that acts for a context from a core (an engine, the strand unit). -/
def resolveDirect (s : State) (c : Site) (ctx : Nat) (va : Word) (size : Nat) (k : Kind) :
    Except Trap (Nat × Bool × State) :=
  if isMesh va then
    match s.meshCheck c ctx (s.ctx ctx).gen va size k with
    | .ok (a, _) => .ok (a, false, s)
    | .error t => .error t
  else s.translateDirect ctx va k

/-- Are two requests for the same page of a context (R36)? -/
def missJoins (a b : MissReq) : Bool := a.ctx == b.ctx && a.gen == b.gen && a.va / 4096 == b.va / 4096

/-- The first request for each page of a cluster's list: the one that is walked for every request that joins it. -/
def missHeads : List MissReq → List MissReq
  | [] => []
  | r :: l => r :: (missHeads l).filter fun x => !missJoins r x

/-- The places taken of the 32 in a cluster's miss queue (R36). A choice of the model (log entry 6): a request at a walker has
left the queue, and a request that joins another takes no place. -/
def missPages (q : List MissReq) : Nat := (missHeads q).length - 4

/-- A core TLB miss sends a request to the cluster and parks the slot; a full queue of 32 refuses it (R36). -/
def missPark (s : State) (c : Site) (i : Nat) (va : Nat) (k : Kind) : State :=
  let sl := s.slot c i
  let r : MissReq := ⟨c, i, sl.ctx, sl.gen, va, k⟩
  let q := (s.cluster (Site.cluster c)).misses
  if q.any (missJoins r) || decide (missPages q < 32) then
    (s.modCluster (Site.cluster c) fun x => { x with misses := x.misses ++ [r] }).park c i (.walk va k)
  else s.park c i (.missRefused va k s.cyc)

/-- A slot waits for its instruction to be fetched (R36): that instruction has not issued, so it has not parked (R242). -/
def fetchPark (s : State) (c : Site) (i : Nat) (va : Nat) : State :=
  (s.missPark c i va .fetch).modSlot c i fun sl => { sl with
    waitSince := (s.slot c i).waitSince
    asIssued := (s.slot c i).asIssued }

/-- Put a reply into its cell of the fault-reply area (R413): a trap that finds its entry occupied sets OVF there, and of WALK
entries the last nine are kept. A core that the context no longer holds has no cell of its. -/
def storeReply (s : State) (r : Reply) : State :=
  let dup (q : Reply) : Bool := q.core == r.core && q.slot == r.slot &&
    (match q.trap, r.trap with
     | some a, some b => a.cause == b.cause
     | _, _ => false)
  let mark (q : Reply) : Reply :=
    { q with
      trap := q.trap.map fun t => { t with ovf := true } }
  if !s.admitted r.ctx r.gen r.core then s
  else s.modCtx r.ctx fun k =>
    let walks := k.replies.filter fun q => q.walk.isSome && q.core == r.core
    let room := if r.walk.isSome && walks.length ≥ 9 then k.replies.erase (walks.getD 0 r) else k.replies
    { k with
      replies := if k.replies.any dup then k.replies.map fun q => if dup q then mark q else q else room ++ [r] }

/-- Is a context stopped, or an ancestor of it (R382)? -/
def isStopped (s : State) : Nat → Nat → Bool
  | 0, n => (s.ctx n).stopped
  | f + 1, n => (s.ctx n).stopped || ((s.ctx n).depth != 0 && isStopped s f (s.ctx n).parent)

/-- Answer one request of a finished walk: install the entry in the slot's TLB, or record the fault; the slot wakes. A reply for a
halted or saved context goes to its reply cell, as R412 gives, with an outcome that is free (log entry 31). A request
of another kind than the walk's is answered with the same entry, which may not serve it, and a fault is recorded only for the
walk's own kind: such a request misses again, a choice of the model (log entry 6). -/
def missAnswer (s : State) (r : MissReq) (res : Except Trap TlbEntry) (k : Kind) : State :=
  let (v, s) := s.drawNat Config.freeNat
  let sl := s.slot r.core r.slot
  let waits := match sl.wait with
    | some (.walk va _) => va / 4096 == r.va / 4096
    | _ => false
  if (s.ctx r.ctx).gen ≠ r.gen then s
  else if !(sl.ctx == r.ctx && sl.gen == r.gen && sl.state != .free && sl.state != .halted) then
    if sl.state = .halted ∨ s.isStopped 8 r.ctx then
      let (n, s) := s.fresh
      s.storeReply ⟨n, r.core, r.ctx, r.gen, r.slot, sl.wp, none, none, some (wordOf r.va, wordOf v)⟩
    else s
  else
  let s := match res with
    | .ok e =>
      let e := { e with slot := r.slot }
      if r.kind == Kind.fetch then s.modCore r.core fun c => { c with itlb := tlbInsert c.itlb 6 v e }
      else
        let s := s.modCore r.core fun c => { c with dtlb := tlbInsert c.dtlb 16 v e }
        if waits then s.modSlot r.core r.slot fun sl => { sl with lanes := e :: sl.lanes } else s
    | .error t =>
      if r.kind = k && waits then s.modSlot r.core r.slot fun sl => { sl with walkFault := some (r.va / 4096, k, t) } else s
  if waits then s.wakeRetry r.core r.slot else s

/-- A walk of a cluster completes (WALK_COMPLETE, R36): one of those at its 4 walkers, of a free choice, answers its request and
every request joined to it. -/
def walkDone (s : State) (cl : Nat) : State :=
  let walking := (missHeads (s.cluster cl).misses).take 4
  let (w, s) := if walking.length < 2 then (0, s) else s.drawNat Config.freeNat
  match walking[w % walking.length]? with
  | none => s
  | some r =>
    let all := (s.cluster cl).misses.filter (missJoins r)
    let s := s.modCluster cl fun x => { x with misses := x.misses.filter fun x => !missJoins r x }
    let answer (s : State) (res : Except Trap TlbEntry) : State := all.foldl (fun s x => s.missAnswer x res r.kind) s
    match l2Find (s.cluster cl).l2 r.ctx r.gen r.va r.kind with
    | some e => answer s (.ok e)
    | none =>
      let tc := (s.cluster cl).l2.filterMap L2Entry.table?
      let b := s.walkStart tc r.ctx r.va
      let s := walkTouch tc r.ctx r.va r.kind b.1 b.2 s
      let learn (s : State) (e : L2Entry) : State :=
        let (v, s) := s.drawNat Config.freeNat
        s.modCluster cl fun x => { x with l2 := l2Insert x.l2 v e }
      let new := s.walkLearns tc r.ctx r.va r.kind
      match s.translateWith tc r.ctx r.va r.kind true with
      | .error t => answer ((new.map L2Entry.table).foldl learn s) (.error t)
      | .ok (e, s) => answer (learn ((new.map L2Entry.table).foldl learn s) (.leaf e)) (.ok e)

/-- Remove entries of a page range, a context or a child from every TLB of a core. -/
def purgeCore (s : State) (c : Site) (p : TlbEntry → Bool) : State :=
  s.modCore c fun k => { k with
    itlb := k.itlb.filter fun e => !p e
    dtlb := k.dtlb.filter fun e => !p e
    slots := k.slots.map fun (i, sl) => (i, { sl with lanes := sl.lanes.filter fun e => !p e }) }

/-- A core's TLBs and its cluster's give up one entry each, of a free choice (R391). -/
def dropTlb (s : State) (c : Site) : State :=
  let (v, s) := s.drawNat Config.freeNat
  let (w, s) := s.drawNat Config.freeNat
  let (x, s) := s.drawNat Config.freeNat
  let s := s.modCore c fun k => { k with itlb := dropOne k.itlb v, dtlb := dropOne k.dtlb w }
  s.modCluster (Site.cluster c) fun k => { k with l2 := dropOne k.l2 x }

end State

end Sys2Proof.Machine
end

