-- ==== Sys2Proof/Machine/Ops.lean ====
section
/-!
DEFINITION. The operations every meaning is built from: posting a result with its distance and moving on (R204, R205),
the checking scoreboard (R206), taking an exception (R221, R222, R225, R231, R236, R237) and returning from one (R223),
loads and stores at a resolved address.
-/

namespace Sys2Proof.Machine

/-- Is the operation an MMA? -/
def MatOp.isMma : MatOp → Bool
  | .mma .. => true
  | _ => false

/-- The accumulator set an operation of the matrix queue works on. -/
def MatOp.accSet : MatOp → Bool
  | .mma _ _ _ _ set .. => set
  | .zero set => set
  | .out _ set .. => set

namespace State

/-! ### Loading and halting slots (R165, R236, R237) -/

/-- Clear the reserved bits of a control-block word, and clamp VL (R208 to R211). -/
def cbClean (i : Nat) (w : Word) : Word :=
  match i with
  | 1 =>
    let w := w &&& 0x07FFF1F1
    if fieldOf w 16 8 > 128 then setField w 16 8 128 else w
  | 12 => w &&& 0xFFFF3F01
  | 13 => w &&& 0x11F
  | 14 => w &&& 0x03FF0FF9
  | 16 => w &&& 0xFFFFFF
  | 17 => w &&& 0xFFFFFF00FFF0FFFF
  | _ => w

/-- Write the held control block back to the workspace, with its tags (R165); monitors see the write (R171). -/
def writeBack (s : State) (c : Site) (i : Nat) : State :=
  let sl := s.slot c i
  let base := wsBase c sl.wp + 0xA00
  ((List.range 32).foldl (fun s j => s.setWord (base + 8 * j) ⟨sl.cbWord j, sl.cbPoison.contains j⟩) s).flagMonitors base 256

/-- Load a slot with a workspace: its control block is read from the buffer (R165). -/
def loadSlot (s : State) (c : Site) (i : Nat) (wp : BitVec 5) : State :=
  let base := wsBase c wp + 0xA00
  let cb := (List.range 32).foldl (fun l j =>
    let v := cbClean j (s.word (base + 8 * j)).val
    let v := if j = cbStat then setField v 12 4 i else v
    if v = 0 then l else aset l j v) []
  let ps := (List.range 32).filter fun j => (s.word (base + 8 * j)).poison
  s.modSlot c i fun sl =>
    { sl with
      wp := wp, cb := cb, cbPoison := ps, pend := [], asIssued := [], frame := none, wait := none, waitSince := none
      walkFault := none, lanes := [], yielding := none, state := .ready }

/-- End a view request of a slot: its destination words become full again and settle (R361). -/
def endViewReq (s : State) (c : Site) (i : Nat) : State :=
  (List.range 4).foldl (fun s d =>
    let gone := (s.die d).viewReqs.filter fun r => r.core == c && r.slot == i
    let s := s.modDie d fun x => { x with viewReqs := x.viewReqs.filter fun r => !(r.core == c && r.slot == i) }
    gone.foldl (fun s r => match r.dst with
      | some a => (List.range (r.bytes / 8)).foldl (fun s j =>
          { (s.setFull (a + 8 * j) true) with held := ndel s.held (a / 8 + j) }.settle (a + 8 * j)) s
      | none => s) s) s

/-- Withdraw what a parked slot waits for (R66, R237). A walk goes on, and its reply is handled as R412 gives. An accepted pool
command completes outside the halt, so the slot moves past it. -/
def withdraw (s : State) (c : Site) (i : Nat) : State :=
  let s := { s with
    syncs := s.syncs.filter fun q => !(q.2.1 == c && q.2.2.1 == i)
    resQueue := s.resQueue.filter fun q => !(q.2.1 == c && q.2.2 == i) }
  match (s.slot c i).wait with
  | some (.sync r) => s.modCore (ownerOf r.addr) fun k =>
      { k with park := k.park.filter fun p => !(p.core == c && p.slot == i) }
  | some (.view ..) => s.endViewReq c i
  | some (.pool _ _ len) => s.modSlot c i fun sl => (sl.setStat 24 3 0).advance len
  | _ => s

/-- The members of a core's gang; a core that no launch placed is a gang of its own (R214). -/
def gangOf (s : State) (c : Site) : List Site :=
  match (s.core c).placed with
  | none => [c]
  | some p => (s.cores.filter fun (_, k) => match k.placed with
      | some q => q.launch == p.launch && q.gang == p.gang
      | none => false).map (·.1)

/-- Has the occupancy of a member's step ended (R336)? The step of the member with gang index j starts j cycles after the gang's
and lasts 256 cycles, beside those in which the freeze line held it. -/
def occEnded (s : State) (c : Site) (e : MatEntry) : Bool :=
  e.started.any fun t => decide (t + (s.gangOf c).idxOf c + 256 + e.frozen ≤ s.cyc)

/-- The MMA step in progress at a core. -/
def runningStep (s : State) (c : Site) : Option MatEntry :=
  (s.core c).matrix.find? fun e => e.started.isSome && MatOp.isMma e.op

/-- Steps that a halted slot has in the matrix queue run again from their first cycle on resume, unless the occupancy of the
step has ended in a member: it lands before the halt completes (R340). -/
def rewindSteps (s : State) (c : Site) (i : Nat) : State :=
  let ended := (s.gangOf c).any fun t => (s.runningStep t).any fun e => e.slot == i && s.occEnded t e
  s.modCore c fun k => { k with
    matrix := k.matrix.map fun e =>
      if e.slot == i && MatOp.isMma e.op && !(ended && e.started.isSome) then
        { e with started := none, since := none, frozen := 0, fetchA := 0, fetchW := 0, lines := [] }
      else e }

/-- Halt a slot at an instruction boundary (R236, R237): results land, the wait is withdrawn, the control block is
written back. A halt of the whole context also carries out the fence of R179 and ends the RSV reservation (R189). -/
def haltSlot (s : State) (c : Site) (i : Nat) (whole : Bool) : State :=
  let s := s.drainResults c i
  let s := if (s.slot c i).state = .parked then s.withdraw c i else s
  let s := if whole then ((s.settleScope c i .dev).dropRsv c i).rewindSteps c i else s
  let s := s.modSlot c i fun sl =>
    { sl with
      wait := none, waitSince := none, walkFault := none, lanes := [], asIssued := [], frame := none, yielding := none
      touched := if whole then 0 else sl.touched }
  s.writeBack c i

/-- Is the status of a pool command that the workspace of a slot issued, in this slot or in another, still to land (R237)? -/
def poolDue (s : State) (c : Site) (sl : Slot) : Bool :=
  (s.cluster (Site.cluster c)).engine.any (fun e =>
    e.kind != .cpy && e.core == c && e.ctx == sl.ctx && e.gen == sl.gen && e.wp == sl.wp) ||
  s.replies.any fun r => r.status.isSome && r.core == c && r.ctx == sl.ctx && r.gen == sl.gen && r.wp == sl.wp

/-- A slot that resumes waits for the status of its accepted pool command (R237). -/
def resumeSlot (s : State) (c : Site) (i : Nat) : State :=
  if s.poolDue c (s.slot c i) then s.modSlot c i fun sl => { sl with
    state := .parked
    wait := some .status }
  else s

/-- A slot that waits for the status of a pool command goes on once it has landed (R237). -/
def statusDue (s : State) (c : Site) (i : Nat) : State :=
  if s.poolDue c (s.slot c i) then s else s.modSlot c i fun sl => { sl with
    state := .ready
    wait := none }

/-! ### Taking an exception -/

/-- FLT0 of a trap of a slot, with the depth of its receiver (R211). -/
def flt0 (t : Trap) (ctx gen slot lvl : Nat) : Word :=
  wordOf (ctx * 2 ^ 48 + gen * 2 ^ 40 + slot * 2 ^ 28 + t.acc * 2 ^ 26 + t.ovf.toNat * 2 ^ 25 + t.straddle.toNat * 2 ^ 24
    + lvl * 2 ^ 20 + t.detail * 2 ^ 8 + t.cause)

/-- Write the fault record into a slot's control block, held and in the buffer (R211, R221). -/
def writeFault (s : State) (c : Site) (i : Nat) (t : Trap) (ctx gen slot lvl : Nat) : State :=
  (s.modSlot c i fun sl =>
    ((sl.setCb cbFlt (flt0 t ctx gen slot lvl)).setCb (cbFlt + 1) t.addr).setCb (cbFlt + 2) t.info).writeBack c i

/-- Is upcall delivery possible: UPV.EN with a handler workspace that exists (R210, R207)? -/
def upvOk (sl : Slot) : Bool := (sl.cbWord cbUpv).getLsbD 8 && wpOk (sl.cbWord cbUpv)

/-- EnterHandler (R222): slot 0 is halted, its workspace recorded as interrupted, and the handler's workspace loaded
with UM = 1, w1, w2 and w3. -/
def enterHandler (s : State) (c : Site) (w1 w2 : Word) : State :=
  let s := match (s.slot c 0).state with
    | .ready | .parked => s.haltSlot c 0 false
    | _ => s
  let wp := (s.slot c 0).wp
  let hwp := BitVec.ofNat 5 (fieldOf ((s.slot c 0).cbWord cbUpv) 0 5)
  let s := s.modCore c fun k => { k with interrupted := wp }
  let s := (s.loadSlot c 0 hwp).modSlot c 0 fun sl => sl.setStat 8 1 1
  s.landAll c 0 (s.regWrite c 0 1 ⟨w1, false⟩ ++ s.regWrite c 0 2 ⟨w2, false⟩
    ++ s.regWrite c 0 3 ⟨wordOf wp.toNat, false⟩)

/-- Is context `n` the context `a` or one of its descendants (R382)? -/
def inTree (s : State) (a : Nat) : Nat → Nat → Bool
  | 0, n => n == a
  | f + 1, n => n == a || ((s.ctx n).depth != 0 && inTree s a f (s.ctx n).parent)

/-- Disarm the monitor lines of a slot (R170). -/
def disarm (s : State) (c : Site) (i : Nat) : State :=
  s.modSlot c i fun sl => { sl with
    monitors := sl.monitors.map fun (n, m) => (n, match m.armed with
      | some (_, va) => { m with
        armed := none
        stopped := some va }
      | none => m) }

/-- The trap that a slot's fault record holds (R211). -/
def recordTrap (sl : Slot) : Trap :=
  let f := sl.cbWord cbFlt
  ⟨fieldOf f 0 8, fieldOf f 8 8, sl.cbWord (cbFlt + 1), sl.cbWord (cbFlt + 2), .own, fieldOf f 26 2, f.getLsbD 24, f.getLsbD 25⟩

/-- Halt a context's slot (R236): it is HALTED until its context runs again. A trap queued behind another's upcall is kept
(R231). -/
def haltWhole (s : State) (c : Site) (i : Nat) : State :=
  (s.haltSlot c i true).modSlot c i fun sl => { sl with
    state := .halted
    queued := false
    kept := if sl.state == .faulted && sl.queued then ⟨recordTrap sl, none⟩ :: sl.kept else sl.kept }

/-- Halt every slot of a context and its descendants (R225, R382, R411). CTX.STOP disarms their monitor lines, those of
HALTED slots too (R170). -/
def haltTree (s : State) (a : Nat) : State :=
  s.allSlots.foldl (fun s (c, i) =>
    let sl := s.slot c i
    if s.inTree a 8 sl.ctx && sl.gen == (s.ctx sl.ctx).gen then
      match sl.state with
      | .ready | .parked | .faulted => (s.haltWhole c i).disarm c i
      | .halted => s.disarm c i
      | _ => s
    else s) s

/-- Stop a context, and halt its descendants with it, as CTX.STOP does (R382): a descendant stays as its own parent left
it. -/
def stopTree (s : State) (a : Nat) : State := (s.haltTree a).modCtx a fun k => { k with stopped := true }

/-- Does the halt of a context's tree still wait: for accesses that no bank has accepted (R179), or for matrix operations in
progress (R340)? -/
def treeBusy (s : State) (n : Nat) : Bool :=
  (s.reqs.any fun r => s.inTree n 8 r.ctx && r.gen == (s.ctx r.ctx).gen) ||
    s.cores.any fun (c, k) => k.matrix.any fun e => e.started.isSome &&
      s.inTree n 8 (s.slot c e.slot).ctx && (s.slot c e.slot).gen == (s.ctx (s.slot c e.slot).ctx).gen

/-- The ancestor of a context whose parent stands at depth `d`: where a climb to depth `d` starts. -/
def childAt (s : State) (d : Nat) : Nat → Nat → Nat
  | 0, n => n
  | f + 1, n => if (s.ctx n).depth ≤ d + 1 then n else childAt s d f (s.ctx n).parent

/-- Akmon receives a trap (R225, R452). -/
def toAkmon (s : State) (t : Trap) (ctx gen slot : Nat) : State :=
  s.modPkg fun p => { p with akmon := ⟨t, ctx, gen, slot⟩ :: p.akmon }

/-- A context takes a trap that climbs at a reflection target, where its slot 0 holds it (R225): kept while that slot is
HALTED, else an upcall where the control context takes one. A trap without a faulting slot, slot 15, has its fault record
written into the workspace the handler enters (R451). -/
def takeAt (s : State) (t : Trap) (o : Origin) (a : Nat) (site : Site) : Option State :=
  let sl := s.slot site 0
  if sl.ctx == a && sl.gen == (s.ctx a).gen && sl.state != .free then
    if sl.state = .halted then
      some (s.modSlot site 0 fun sl => { sl with kept := sl.kept ++ [⟨t, some o⟩] })
    else if upvOk sl && !sl.um then
      let s := s.enterHandler site 15 (wordOf (o.ctx * 2 ^ 16 + o.gen))
      some (if o.slot = 15 then s.writeFault site 0 t o.ctx o.gen o.slot (s.ctx a).depth else s)
    else none
  else none

/-- Climb from a context to its parent's reflection target and on (R225): the new state, and the receiver's depth. -/
def climb (s : State) (t : Trap) (o : Origin) : Nat → Nat → State × Nat
  | 0, _ => (s.toAkmon t o.ctx o.gen o.slot, 0)
  | f + 1, n =>
    if (s.ctx n).depth = 0 then (s.toAkmon t o.ctx o.gen o.slot, 0)
    else
      let a := (s.ctx n).parent
      match s.takeAt t o a (s.ctx n).reflect with
      | some s => (s, (s.ctx a).depth)
      | none => climb s t o f a

/-- A trap climbs from a context, and the fault record, with the receiver's depth, is written into the faulting slot's control block
(R211, R225). -/
def climbFrom (s : State) (t : Trap) (o : Origin) (start : Nat) : State :=
  let (s, lvl) := s.climb t o 9 start
  let sl := s.slot o.core o.slot
  if o.slot < 11 && sl.ctx == o.ctx && sl.gen == o.gen then s.writeFault o.core o.slot t o.ctx o.gen o.slot lvl else s

/-- A trap of a stopped context climbs (R225). -/
def climbNow (s : State) (p : PendingClimb) : State := s.climbFrom p.trap ⟨p.ctx, p.gen, p.core, p.slot⟩ p.start

/-- Reflect a trap of a slot to the ancestor at a depth (R225): the context is stopped with its descendants, and the trap
climbs once the halt is complete, accesses of the halted slots included (R179). -/
def reflect (s : State) (c : Site) (i : Nat) (t : Trap) (d : Nat) : State :=
  let sl := s.slot c i
  let s := s.stopTree sl.ctx
  let p : PendingClimb := ⟨t, c, i, sl.ctx, sl.gen, s.childAt d 8 sl.ctx⟩
  if s.treeBusy sl.ctx then { s with climbs := s.climbs ++ [p] } else s.climbNow p

/-- The climbs whose halt has completed since take place (R179, R225). -/
def climbsDue (s : State) : State :=
  s.climbs.foldl (fun s p => if s.treeBusy p.ctx then s else { s with climbs := s.climbs.erase p }.climbNow p) s

/-- Deliver (R221): an own trap of a slot as an upcall to the control context of its core, or reflected to the parent
where that control context takes no upcall. -/
def deliver (s : State) (c : Site) (i : Nat) (t : Trap) : State :=
  let sl := s.slot c i
  let s := s.haltSlot c i false
  let s := s.writeFault c i t sl.ctx sl.gen i (s.ctx sl.ctx).depth
  let s := s.modSlot c i fun sl => { sl with state := .faulted }
  let z := s.slot c 0
  if !upvOk z || (z.um && i == 0) then s.reflect c i t ((s.ctx sl.ctx).depth - 1)
  else if z.um then s.modSlot c i fun sl => { sl with queued := true }
  else s.enterHandler c (wordOf i) (wordOf sl.wp.toNat)

/-- Akmon logs the machine check of a failed walk (R234): FLT2 is the number of its record. Before, it holds the physical address
of the table entry. -/
def withRecord (s : State) (t : Trap) (ctx gen : Nat) : State × Trap :=
  if t.cause = 0x15 ∧ t.detail = 1 then
    (s.logCheck ⟨0x15, 1, ctx % 65536, gen % 256, t.addr, s.cyc, t.info.toNat / 2 ^ 32⟩,
      { t with info := wordOf s.pkg.log.length })
  else (s, t)

/-- Raise a trap at a slot: to its owner (R230). -/
def raiseAt (s : State) (c : Site) (i : Nat) (t : Trap) : State :=
  let k := s.ctx (s.slot c i).ctx
  let (s, t) := s.withRecord t (s.slot c i).ctx (s.slot c i).gen
  match t.owner with
  | .own => s.deliver c i t
  | .parent => s.reflect c i t (k.depth - 1)
  | .depth n => s.reflect c i t (min n (k.depth - 1))
  | .partition => if k.depth ≤ 1 then s.deliver c i t else s.reflect c i t 1
  | .root => s.reflect c i t 0

/-- Raise a fault of the issuing instruction (R229): it has no effect, and the saved PC is its address. -/
def raise (s : State) (t : Trap) : State := s.raiseAt s.cur.1 s.cur.2 t

/-- A notice for a slot (R229, R231): taken at the boundary, kept in the slot's reply cell while it is halted (R413) and beside
the slot while it is faulted; a further notice of the cause a faulted slot holds sets OVF (R224). A free slot has no context
to receive it. -/
def notice (s : State) (c : Site) (i : Nat) (t : Trap) : State :=
  let sl := s.slot c i
  match sl.state with
  | .ready | .parked => s.raiseAt c i t
  | .halted =>
    let (n, s) := s.fresh
    s.storeReply ⟨n, c, sl.ctx, sl.gen, i, sl.wp, none, some t, none⟩
  | .faulted =>
    if fieldOf (sl.cbWord cbFlt) 0 8 = t.cause then
      (s.modSlot c i fun sl => sl.setCb cbFlt (setField (sl.cbWord cbFlt) 25 1 1)).writeBack c i
    else s.modSlot c i fun sl => { sl with kept := sl.kept ++ [⟨t, none⟩] }
  | _ => s

/-- The lowest-numbered slot of a core queued as FAULTED (R223). -/
def queuedSlot (s : State) (c : Site) : Option Nat :=
  (List.range 11).find? fun i => (s.slot c i).queued && (s.slot c i).state = .faulted

/-- Return from an upcall (R223): slot h is loaded with a workspace, slot 0 returns to the interrupted one with UM = 0,
and the handler is entered again for the lowest-numbered queued slot. -/
def upcallReturn (s : State) (c : Site) (h : Nat) (wp : BitVec 5) : State :=
  let back := (s.core c).interrupted
  let s := (s.haltSlot c 0 false).modSlot c 0 fun sl => sl.setStat 8 1 0
  let s := s.writeBack c 0
  let s := if h = 0 then s.loadSlot c 0 wp
    else (((s.loadSlot c h wp).modSlot c h fun sl => { sl with queued := false }).resumeSlot c h).loadSlot c 0 back
  let s := (s.modSlot c 0 fun sl => sl.setStat 8 1 0).resumeSlot c 0
  match s.queuedSlot c with
  | some q =>
    let s := s.modSlot c q fun sl => { sl with queued := false }
    if upvOk (s.slot c 0) then s.enterHandler c (wordOf q) (wordOf (s.slot c q).wp.toNat)
    else s.reflect c q (recordTrap (s.slot c q)) ((s.ctx (s.slot c q).ctx).depth - 1)
  | none => s

/-! ### Issuing (R204 to R206, R226, R227) -/

/-- The places a scalar register read names: none for w0 (R164). -/
def regDests (s : State) (rs : List Reg) : List Dest :=
  (rs.filter (· ≠ 0)).map fun r => .word (s.regAddr s.cur.1 s.cur.2 r)

/-- The places a vector register read names. -/
def vregDests (s : State) (vs : List VReg) : List Dest :=
  vs.flatMap fun v => (List.range 8).map fun j => .word (s.vregAddr s.cur.1 s.cur.2 v + 8 * j)

/-- The workspace offset of a result's place (R243); a mask is held in its K word. -/
def wsOffset (s : State) (d : Dest) : Word :=
  match d with
  | .word a | .line a => wordOf (a - wsBase s.cur.1 s.me.wp)
  | .mask k => wordOf (0xAA0 + 8 * (k / 2))

/-- The first of some places with a result in flight, and the turns still to come (R206). -/
def shortDest (sl : Slot) (ds : List Dest) : Option (Dest × Nat) :=
  ds.findSome? fun d => (sl.pend.find? fun l => l.writes.any (·.dest == d)).map fun l => (d, l.turns)

/-- STALL_SHORT (R206, R234). -/
def stallShort (s : State) (d : Dest) (left : Nat) : Trap := ownTrap 7 0 (s.wsOffset d) (wordOf left) 3

/-- Go on unless the checking scoreboard finds a result of a source still in flight (R206). -/
def readCheck (s : State) (ds : List Dest) (k : State) : State :=
  if s.me.chk then
    match shortDest s.me ds with
    | some (d, left) => s.raise (s.stallShort d left)
    | none => k
  else k

/-- The first earlier result to the same place that would land after a result of distance `d` (R206). -/
def lateDest (sl : Slot) (d : Nat) (ws : List WordWrite) : Option (Dest × Nat) :=
  ws.findSome? fun w =>
    ((sl.pend.find? fun l => decide (l.turns > d) && l.writes.any (·.dest == w.dest))).map fun l => (w.dest, l.turns)

/-- Move the issuing slot past its instruction of `len` bytes with stall count `st`, which has no effect where the instruction
has parked its context (R204, R242, R289). -/
def retire (s : State) (st : Stall) (len : Nat) : State :=
  s.modMe fun sl => { ((sl.setStat 24 3 (sl.stallOf st)).advance len) with
    waitSince := none, walkFault := none, lanes := [], asIssued := [] }

/-- Send the issuing slot to a target: a taken transfer of control (R285). -/
def transfer (s : State) (st : Stall) (target : Word) : State :=
  s.modMe fun sl => { ((sl.setStat 24 3 (sl.stallOf st)).setPc target) with
    waitSince := none, walkFault := none, lanes := [], asIssued := [] }

/-- Put a result in flight at a distance (R205). -/
def post (s : State) (d : Nat) (ws : List WordWrite) : State :=
  if ws.isEmpty then s else s.modMe fun sl => { sl with pend := sl.pend ++ [⟨d, ws⟩] }

/-- Finish an instruction that does not park: results go in flight at their distances, and the slot moves on. With
CHK = 1, a result that an earlier one would overtake raises STALL_SHORT instead (R206). -/
def finish (s : State) (st : Stall) (len : Nat) (rs : List (Nat × List WordWrite)) : State :=
  match if s.me.chk then rs.findSome? (fun (d, ws) => lateDest s.me d ws) else none with
  | some (a, left) => s.raise (s.stallShort a left)
  | none => (rs.foldl (fun s (d, ws) => s.post d ws) s).retire st len

/-- The write of a scalar register by the issuing slot. -/
def wr (s : State) (d : Reg) (v : Word) (p : Bool) : List WordWrite := s.regWrite s.cur.1 s.cur.2 d ⟨v, p⟩

/-- Complete a parking instruction of the issuing slot at once: everything lands and the slot moves on (R205). -/
def done (s : State) (len : Nat) (ws : List WordWrite) : State :=
  (s.complete s.cur.1 s.cur.2 len ws).modMe fun sl => { sl with walkFault := none, lanes := [] }

/-- Park the issuing slot. -/
def parkMe (s : State) (w : Wait) : State := s.park s.cur.1 s.cur.2 w

/-- The first poisoned register of a list. -/
def poisonReg (s : State) (rs : List Reg) : Option Reg := rs.find? fun r => (s.reg r).poison

/-- POISON at a workspace word (R227, R234). -/
def poisonTrap (off : Word) : Trap := ownTrap 6 0 off 0 3

/-- Go on unless an operand that is a use is poisoned (R227), after the scoreboard's check of every source. -/
def useRegs (s : State) (rs : List Reg) (k : State) : State :=
  s.readCheck (s.regDests rs)
    (match s.poisonReg rs with
     | some r => s.raise (poisonTrap (wordOf (8 * r.toNat)))
     | none => k)

/-- ILL (R234): FLT1 is the instruction's first word. -/
def illTrap (w : Nat) : Trap := ownTrap 1 0 (wordOf w) 0 3

/-- ALIGN (R234): the address and the access size. -/
def alignTrap (va : Word) (size acc : Nat) : Trap := ownTrap 5 0 va (wordOf size) acc

/-! ### Accesses at a resolved address (R161, R163, R174, R176) -/

/-- Is a physical address in the issuing slot's workspace block (R163)? -/
def selfAlias (s : State) (a : Nat) : Bool :=
  let b := wsBase s.cur.1 s.me.wp
  decide (b ≤ a) && decide (a < b + 4096)

/-- An access leaves the pipeline: its touched bit is set (R176), and the links it crosses carry its partition's traffic (R430). -/
def touch (s : State) (a : Nat) (own : Bool) : State :=
  if own then s
  else (s.noteTraffic s.cur.1 s.me.ctx a).modMe fun sl => { sl with touched := sl.touched ||| (1#196 <<< touchBit a) }

/-- Results in flight to the words of an access land first: a self-alias access waits for them (R163), and so does an
own-pipeline access for a pointer destination (R304). -/
def settleOwn (s : State) (a n : Nat) (own : Bool) : State :=
  if own then (wordsOf a n).foldl (fun s w => s.landWord s.cur.1 s.cur.2 (8 * w)) s else s

/-- Has the issuing slot operations in its core's matrix queue that satisfy a test? -/
def matPending (s : State) (p : MatOp → Bool) : Bool :=
  (s.core s.cur.1).matrix.any fun e => e.slot == s.cur.2 && p e.op

/-- Go on with a load unless it reads an accumulator set that the slot's own operations still change (R197). -/
def waitAcc (s : State) (a : Nat) (own : Bool) (k : State) : State :=
  let set := decide ((a - bufAddr s.cur.1 .c 0) / 0x4000 = 1)
  if own && decide (bufAddr s.cur.1 .c 0 ≤ a) && decide (a < bufAddr s.cur.1 .c 0x8000)
      && s.matPending (fun o => MatOp.accSet o == set) then s.parkMe (.matrix (.accSet set))
  else k

/-- Do two byte ranges overlap? -/
def overlaps (a n b m : Nat) : Bool := decide (a < b + m) && decide (b < a + n)

/-- Is a request a SIGDEC of the issuing slot? It is an acquire: every later access of the slot is accepted after it (R174, R356). -/
def mySig (s : State) (r : Request) : Bool := r.core == s.cur.1 && r.slot == s.cur.2 && r.sig.isSome

/-- Accept the slot's own earlier accesses to the bank of an access (R177), and its SIGDECs (R174); false where a SIGDEC or one to
overlapping bytes stays held (R161, R187). -/
def orderOwn (s : State) (a n : Nat) : State × Bool :=
  let p (r : Request) : Bool := s.mySig r || (r.core == s.cur.1 && r.slot == s.cur.2 && overlaps a n r.addr r.bytes.length)
  let q (r : Request) : Bool := s.mySig r || (r.core == s.cur.1 && r.slot == s.cur.2 && bankOf r.addr == bankOf a)
  let s := if s.reqs.any q then s.drain q else s
  (s, !s.reqs.any p)

/-- Go on with an access of the own pipeline after the SIGDECs of the slot (R174, R356); the slot waits for one that a reservation
holds. -/
def afterSig (s : State) (own : Bool) (k : State → State) : State :=
  if own && s.reqs.any s.mySig then
    let s := s.drain s.mySig
    if s.reqs.any s.mySig then s.parkMe .drain else k s
  else k s

/-- Post a store of the issuing slot (R161): its own buffer performs it at once; another bank accepts it later. -/
def store (s : State) (a : Nat) (own viewed : Bool) (va : Word) (bs : List Byte) (p : List Bool) : State :=
  let s := s.touch a own
  if own then s.bankWrite a bs p
  else
    let (n, s) := s.fresh
    { s with reqs := s.reqs ++ [⟨n, s.cur.1, s.cur.2, s.me.ctx, s.me.gen, a, bs, p, none, none, va, viewed⟩] }

/-- Carry out a release at a scope before an access, as a FENCE there (R175, R178): results and own-pipeline writes in flight
land, the instruction keeping what it read as it issued (R162), and at CTX and CORE the slot's matrix steps end first (R197); an access
held by a reservation parks the slot. -/
def withRelease (s : State) (sc : Scope) (k : State → State) : State :=
  if (sc == .ctx || sc == .core) && s.matPending (fun _ => true) then s.parkMe (.matrix .drained)
  else
    let s := (s.landUnder s.cur.1 s.cur.2).settleScope s.cur.1 s.cur.2 sc
    if s.outstanding s.cur.1 s.cur.2 sc then s.parkMe .drain else k s

end State

end Sys2Proof.Machine
end

