-- ==== Sys2Proof/Machine/Operands.lean ====
section
/-!
DEFINITION. The operand forms of the formats: immediates and branch targets (R245, R246), effective addresses and base
updates of format M (R247, R248, R293), and the operands of format V with pointer operands, masks and lanes (R249 to
R251, R300 to R304).
-/

namespace Sys2Proof.Machine

/-! ### Immediates and targets -/

/-- The sign-extended immediate of format I (R245). -/
def immValue : Imm → Word
  | .short v => v.signExtend 64
  | .long v => v.signExtend 64

/-- The sign-extended displacement of format B in bytes (R246). -/
def dispBytes : Disp → Word
  | .short v => v.signExtend 64 * 4
  | .long v => v.signExtend 64 * 4

/-- The length in bytes of an instruction with an immediate. -/
def immLen : Imm → Nat
  | .short _ => 4
  | .long _ => 8

/-- The length in bytes of an instruction with a displacement. -/
def dispLen : Disp → Nat
  | .short _ => 4
  | .long _ => 8

/-- The length in bytes of a format-M instruction. -/
def mLen : MForm → Nat
  | .short _ => 4
  | .long _ _ => 8

/-! ### Format M (R247, R248, R293) -/

/-- An address of format M: its registers, displacement, mode, index scale and access size. -/
structure MAddr where
  base : Reg
  mode : Nat
  /-- The index register of mode 0b11. -/
  index : Reg
  disp : Word
  scale : Nat
  size : Nat
  deriving DecidableEq, Repr

/-- The access size of a form: that of its short form, or its SZ code (R248). -/
def mSize (f : MForm) (short : Nat) : Nat :=
  match f with
  | .short _ => short
  | .long st _ => 2 ^ st.sz.toNat

/-- The address of a form with a given access size; `scaled` for LDX and STX (R247, R248). -/
def mAddr (b : Reg) (m : BitVec 2) (f : MForm) (size : Nat) (scaled : Bool) : MAddr :=
  match f with
  | .short x => ⟨b, m.toNat, x, x.signExtend 64 * wordOf size, if scaled then size else 1, size⟩
  | .long _ e => ⟨b, m.toNat, e.setWidth 6, e.signExtend 64, if scaled then size else 1, size⟩

/-- Does a long form sign-extend its load (R248)? -/
def mSigned : MForm → Bool
  | .short _ => false
  | .long st _ => st.sx

/-- The registers that form an address, in operand order (R293). -/
def mRegs (m : MAddr) : List Reg := if m.mode = 3 then [m.base, m.index] else [m.base]

namespace State

/-- The effective address (R293). -/
def ea (s : State) (m : MAddr) : Word :=
  if m.mode = 3 then (s.reg m.base).val + (s.reg m.index).val * wordOf m.scale else (s.reg m.base).val + m.disp

/-- The base register's new value, where the mode updates it: a7's poison goes with it (R293). -/
def baseAfter (s : State) (m : MAddr) : Option Tagged :=
  if m.mode = 1 then some ⟨(s.reg m.base).val + wordOf m.size, false⟩
  else if m.mode = 2 then some ⟨(s.reg m.base).val + (s.reg 63).val, (s.reg 63).poison⟩
  else none

/-- The base update as a result, which lands at distance 1 (R205, R247). -/
def baseWrite (s : State) (m : MAddr) : List WordWrite :=
  match s.baseAfter m with
  | some t => s.regWrite s.cur.1 s.cur.2 m.base t
  | none => []

/-- Every scalar source of an access: address registers, and a7 in mode 0b10. -/
def mSources (m : MAddr) : List Reg := mRegs m ++ (if m.mode = 2 then [63] else [])

/-- The first poisoned word among address registers and data words, in operand order, by workspace offset (R227). -/
def firstPoison (s : State) (rs : List Reg) (data : List (Nat × Bool)) : Option Word :=
  match s.poisonReg rs with
  | some r => some (wordOf (8 * r.toNat))
  | none => (data.find? (·.2)).map fun d => wordOf d.1

/-- The checks of an access before its address is resolved: scoreboard, POISON, ALIGN (R206, R227, R293). `data` are the
data words it stores, by workspace offset, and `ds` their places. -/
def withEa (s : State) (m : MAddr) (kd : Kind) (ds : List Dest) (data : List (Nat × Bool)) (k : Word → State) :
    State :=
  s.readCheck (s.regDests (mSources m) ++ ds)
    (match s.firstPoison (mRegs m) data with
     | some off => s.raise (poisonTrap off)
     | none =>
       let ea := s.ea m
       if ea.toNat % m.size ≠ 0 then s.raise (alignTrap ea m.size kd.acc) else k ea)

/-- Go on at the resolved address; a fault is raised, a miss parks (R28, R31, R36). -/
def withTarget (s : State) (va : Word) (size : Nat) (kd : Kind) (k : Nat → Bool → Bool → State) : State :=
  match s.resolve va size kd with
  | .at_ a own viewed => k a own viewed
  | .fault t => s.raise t
  | .miss => s.missPark s.cur.1 s.cur.2 va.toNat kd

/-! ### Format V (R249 to R251, R300 to R304) -/

end State

/-- The extension of a short form: every field zero (R249). -/
def VExt.zero : VExt := ⟨0, 0, false, false, false, 0, false, 0⟩

/-- A vector instruction's operands: its length, fields, element type code VT and extension. -/
structure VForm where
  len : Nat
  d : VReg
  a : VReg
  b : VReg
  k : KReg
  vt : Nat
  x : VExt
  deriving DecidableEq, Repr

/-- The operands of a short form. -/
def vShort (d a b : VReg) (k : KReg) (t : BitVec 2) : VForm := ⟨4, d, a, b, k, t.toNat, VExt.zero⟩

/-- The operands of a long form: VT is TX × 4 + t (R249). -/
def vLong (d a b : VReg) (k : KReg) (t : BitVec 2) (x : VExt) : VForm := ⟨8, d, a, b, k, x.tx.toNat * 4 + t.toNat, x⟩

/-- The kind of an element type (R249). -/
inductive VTy where
  | flt (f : Fmt)
  | sint
  | uint
  deriving DecidableEq, Repr

/-- The element type with a code (R249). -/
def VTy.ofCode (vt : Nat) : VTy :=
  match vt with
  | 0 => .flt Fmt.f32 | 1 => .flt Fmt.b16 | 4 => .flt Fmt.f16
  | 2 | 3 | 7 => .sint
  | _ => .uint

/-- The lane width of an element type code (R300). -/
def laneWidth (vt : Nat) : Nat :=
  match vt with
  | 0 | 2 | 5 => 32
  | 7 | 8 => 8
  | _ => 16

/-- Lane `i` of a 512-bit register as a number. -/
def laneOf (v w i : Nat) : Nat := v / 2 ^ (w * i) % 2 ^ w

/-- A 512-bit number from lanes of width `w`, lane 0 first. -/
def ofLanes (w : Nat) : List Nat → Nat
  | [] => 0
  | x :: t => x % 2 ^ w + 2 ^ w * ofLanes w t

/-- The lanes of a register. -/
def lanesOf (v w : Nat) : List Nat := (List.range (512 / w)).map (laneOf v w)

/-- The 512-bit value of eight words. -/
def vecNat (ws : List Tagged) : Nat := ofLanes 64 (ws.map (·.val.toNat))

/-- A lane as a signed number. -/
def signedLane (w x : Nat) : Int := if x ≥ 2 ^ (w - 1) then (x : Int) - 2 ^ w else x

/-- A signed number as a lane. -/
def laneOfInt (w : Nat) (i : Int) : Nat := (i % 2 ^ w).toNat

/-- Is lane `i` active under a mask and VL (R301)? -/
def laneActive (mask : BitVec 32) (vl w i : Nat) : Bool :=
  decide (i < vl) && mask.getLsbD (if w = 8 then i / 2 else i)

/-- The bits of the lanes that satisfy a test. -/
def laneBits (w n : Nat) (p : Nat → Bool) : Nat :=
  ofLanes w ((List.range n).map fun i => if p i then 2 ^ w - 1 else 0)

/-- What a vector operation reads at issue (R302): 512-bit sources with the poison of their words, and q. -/
structure VIn where
  d : Nat
  a : Nat
  b : Nat
  c : Nat
  pd : List Bool
  pa : List Bool
  pb : List Bool
  pc : List Bool
  q : Word
  mask : BitVec 32
  vl : Nat
  deriving DecidableEq, Repr

/-- What a vector operation gives: its value, the bits it writes, the poison of each word, its flags. -/
structure VOut where
  value : Nat
  bits : Nat
  poison : List Bool
  flags : Flags
  deriving DecidableEq, Repr

/-- No poison. -/
def noPoison : List Bool := List.replicate 8 false

/-- Element-wise poison: word j from words j of the sources (R226). -/
def wisePoison (a b : List Bool) : List Bool := (a.zip b).map fun (x, y) => x || y

/-- Cross-lane poison: every word, if any source word is poisoned (R226). -/
def crossPoison (l : List Bool) : List Bool := List.replicate 8 (l.any id)

namespace State

/-- The address register of a pointer operand (R251). -/
def ptrReg (v : VReg) : Reg := 56 + v.setWidth 6

/-- The target of a pointer operand, or of TBLSET: aligned to 64 and in the core's own A or S buffer (R251). FLT2 of
its ALIGN is 64, for TBLSET too, whose image has 272 bytes (R325): DEDUCED (log entry 8). -/
def ptrTarget (s : State) (va : Word) (size : Nat) (kd : Kind) : Except Trap Nat :=
  if va.toNat % 64 ≠ 0 then .error (alignTrap va 64 kd.acc)
  else if !isMesh va then .error (ownTrap 4 0xB va 0 kd.acc)
  else match s.meshCheck s.cur.1 s.me.ctx s.me.gen va size kd with
    | .error t => .error t
    | .ok (a, own) =>
      let b := (a - 2 ^ 40) / 2 ^ 17 % 8
      if own && (b == 1 || b == 3) then .ok a else .error (ownTrap 4 0xB va 0 kd.acc)

/-- What a vector instruction fixes as it issues (R162): where each operand lies, its register or a line; the increments of
its address registers; and whether q or the mask poisons every result word. -/
structure VPlaces where
  d : Option Nat
  a : Option Nat
  b : Option Nat
  incs : List WordWrite
  taint : Bool
  deriving DecidableEq, Repr

/-- The place of one vector operand, by its pointer flag. -/
def vPlace (s : State) (p : Bool) (v : VReg) (kd : Kind) : Except Trap (Option Nat) :=
  if p then match s.ptrTarget (s.reg (ptrReg v)).val 64 kd with
    | .error t => .error t
    | .ok a => .ok (some a)
  else .ok none

/-- The pointer registers a form names. -/
def vPtrs (f : VForm) : List Reg :=
  (if f.x.pd then [ptrReg f.d] else []) ++ (if f.x.pa then [ptrReg f.a] else []) ++
    (if f.x.pb then [ptrReg f.b] else [])

/-- The address registers named by pointer operands, each once (R251). -/
def vIncs (s : State) (f : VForm) : List WordWrite :=
  (vPtrs f).eraseDups.flatMap fun r => s.wr r ((s.reg r).val + 64) false

/-- Are all result words poisoned by q or by the mask (R304, R310)? -/
def vTaint (s : State) (f : VForm) : Bool := (s.reg f.x.q).poison || s.me.kpoison f.k.toNat

/-- The places of a form's operands, in operand order. -/
def vPlaces (s : State) (f : VForm) : Except Trap VPlaces :=
  match s.vPlace f.x.pd f.d .write, s.vPlace f.x.pa f.a .read, s.vPlace f.x.pb f.b .read with
  | .error t, _, _ => .error t
  | _, .error t, _ => .error t
  | _, _, .error t => .error t
  | .ok d, .ok a, .ok b => .ok ⟨d, a, b, s.vIncs f, s.vTaint f⟩

/-- The eight words of a vector source: a register as the instruction issues (R162), a line once the waits for it have ended,
in the state `t` (R304). -/
def vSource (s t : State) (p : Option Nat) (v : VReg) : List Tagged :=
  match p with
  | some a => (List.range 8).map fun j => t.bankWord (a + 8 * j)
  | none => s.vreg v

/-- The places that a vector instruction reads, for the scoreboard (R206): `ud` to `uc` say which sources it uses. -/
def vReads (s : State) (f : VForm) (ud ua ub uc : Bool) : List Dest :=
  s.regDests (vPtrs f) ++
    s.vregDests ((if ud && !f.x.pd then [f.d] else []) ++ (if ua && !f.x.pa then [f.a] else []) ++
      (if ub && !f.x.pb then [f.b] else []) ++ (if uc then [f.x.vc] else [])) ++
    s.regDests [f.x.q] ++ (if f.k = 0 then [] else [.mask f.k.toNat])

/-- The sources: registers, q, mask and VL as the instruction issues, lines as they stand in `t` (R162, R304). -/
def vInputs (s t : State) (f : VForm) (p : VPlaces) : VIn :=
  let d := s.vSource t p.d f.d
  let a := s.vSource t p.a f.a
  let b := s.vSource t p.b f.b
  let c := s.vreg f.x.vc
  { d := vecNat d, a := vecNat a, b := vecNat b, c := vecNat c
    pd := d.map (·.poison), pa := a.map (·.poison), pb := b.map (·.poison), pc := c.map (·.poison)
    q := (s.reg f.x.q).val, mask := s.me.kmask f.k.toNat, vl := s.me.vl }

/-- Results in flight to a pointer operand's line land before it is used (R304). -/
def vSettle (s : State) (p : VPlaces) : State :=
  [p.d, p.a, p.b].foldl (fun s o => match o with | some a => s.settleOwn a 64 true | none => s) s

/-- The eight words of a vector result at its destination. -/
def vWrites (s : State) (f : VForm) (p : VPlaces) (o : VOut) : List WordWrite :=
  (List.range 8).map fun j =>
    let dest := match p.d with
      | some a => Dest.line (a + 8 * j)
      | none => Dest.word (s.vregAddr s.cur.1 s.cur.2 f.d + 8 * j)
    ⟨dest, ⟨wordOf (laneOf o.value 64 j), p.taint || o.poison.getD j false⟩, wordOf (laneOf o.bits 64 j)⟩

/-- Go on with a vector instruction's sources, after the scoreboard, POISON of an address register, and the pointer
checks (R206, R251, R304). -/
def withVec (s : State) (f : VForm) (ud ua ub uc : Bool) (k : State → VPlaces → VIn → State) : State :=
  s.readCheck (s.vReads f ud ua ub uc)
    (match s.poisonReg (vPtrs f) with
     | some r => s.raise (poisonTrap (wordOf (8 * r.toNat)))
     | none => match s.vPlaces f with
       | .error t => s.raise t
       | .ok p =>
         let t := s.vSettle p
         k t p (s.vInputs t f p))

end State

end Sys2Proof.Machine
end

