-- ==== Sys2Proof/Machine/Atomics.lean ====
section
/-!
DEFINITION. Atomics, reservations and reductions (R186 to R193, R365 to R367), fences (R178, R368), monitors (R170 to R172,
R369), barriers (R370), signals (R371 to R374), and the events of banks and waits that belong to them.
-/

namespace Sys2Proof.Machine

/-- AMO's operation on the old value and the operand (R366). -/
def amoApply (op : AmoOp) (old b : Word) : Word :=
  match op with
  | .add => old + b
  | .and => old &&& b
  | .or => old ||| b
  | .xor => old ^^^ b
  | .min => if old.sle b then old else b
  | .max => if b.sle old then old else b
  | .minu => if old.ule b then old else b
  | .maxu => if b.ule old then old else b
  | .swap => b

namespace State

/-! ### The word of an atomic (R365) -/

/-- The checks of R365: POISON, alignment, a mesh address, translation. -/
def withAtom (s : State) (rs : List Reg) (va : Word) (align : Nat) (k : Kind) (f : Nat → Bool → State) : State :=
  s.useRegs rs
    (if va.toNat % align ≠ 0 then s.raise (alignTrap va align k.acc)
     else if isMesh va then s.raise (ownTrap 4 0xB va 0 k.acc)
     else s.withTarget va 8 k fun a _ viewed => f a viewed)

/-- Go on when the slot's own earlier stores to the word are accepted (R161); else wait for the reservation that holds
them. -/
def inOrder (s : State) (a n : Nat) (k : State → State) : State :=
  match s.orderOwn a n with
  | (s, true) => k s
  | (s, false) => s.parkMe .drain

/-- Go on with the grant of a word's reservation; else queue for it (R186). -/
def granted (s : State) (a : Nat) (k : State → State) : State :=
  s.inOrder a 8 fun s =>
    match s.reserve s.cur.1 s.cur.2 (a / 8) with
    | some s => k (s.touchWords a 8)
    | none => (s.enqueueRes s.cur.1 s.cur.2 (a / 8)).parkMe .drain

/-- Write a word under a reservation; a write to a viewed master is a master write (R365). -/
def atomWrite (s : State) (a : Nat) (viewed : Bool) (va v : Word) : State :=
  let s := s.bankSetWord a ⟨v, false⟩
  if viewed then s.masterWrite s.me.ctx s.me.gen va.toNat else s

/-- One whole reservation of AMO or CAS, which sets its bank's touched bit after the release it carries out (R176): `f` gives the value written, if any; a poisoned grant carries no write (R190). -/
def atomic (s : State) (d : Reg) (rs : List Reg) (va : Word) (rel : Option Scope) (f : Word → Option Word) : State :=
  s.withAtom rs va 8 .write fun a viewed =>
    let go (s : State) : State := (s.touch a false).granted a fun s =>
      let t := s.bankWord a
      let s := match f t.val with
        | some v => if t.poison then s else s.atomWrite a viewed va v
        | none => s
      s.done 8 (s.wr d t.val t.poison)
    match rel with
    | some sc => s.withRelease sc go
    | none => go s

/-- The reservation the issuing slot holds on a word. -/
def myReservation (s : State) (p : Reservation → Bool) : Option Reservation :=
  s.reservations.find? fun r => r.core == s.cur.1 && r.slot == s.cur.2 && s.me.rsv == some r.word && p r

/-! ### Fences (R178, R368) -/

/-- Has a slot engine commands that are not complete (R75)? -/
def enginePending (s : State) (c : Site) (i : Nat) : Bool :=
  (s.cluster (Site.cluster c)).engine.any fun e => e.core == c && e.slot == i

/-- The banks a fence still waits for: those that have not accepted an earlier access of the slot (R177). Banks that
have echo at once. -/
def probesOf (s : State) (c : Site) (i : Nat) (sc : Scope) : List Nat :=
  ((s.reqs.filter (mine c i sc)).map fun r => bankOf r.addr).eraseDups

/-- Complete a parked fence whose waits have ended: the probed bits clear (R178). -/
def tryFence (s : State) (c : Site) (i : Nat) : State :=
  match (s.slot c i).wait with
  | some (.fence [] mask eng _ len) =>
    if eng && s.enginePending c i then s
    else (s.complete c i len []).modSlot c i fun sl => { sl with touched := sl.touched &&& ~~~mask }
  | _ => s

/-- A fence (R178, R368). FENCE.CTX and FENCE.CORE wait for the context's matrix operations (R197). -/
def fenceMe (s : State) (sc : Scope) (eng : Bool) : State :=
  let (c, i) := s.cur
  if (sc == .ctx || sc == .core) && s.matPending (fun _ => true) then s.parkMe (.matrix .drained)
  else
  (s.parkMe (.fence (s.probesOf c i sc) (scopeMask sc c) eng sc 4)).tryFence c i

/-! ### Barriers (R214, R370) -/

/-- The cores a barrier may join, for a core. -/
def barCores (s : State) (b : Barrier) (c : Site) : List Site :=
  match b with
  | .clu => s.liveIn (Site.cluster c * 8) 8
  | .bar | .gang => s.gangOf c

/-- The participants of a barrier round, fixed at its first arrival (R370): the cores whose slot holds a context of the
issuer's placement group and is neither FREE nor EXITED. Every member of a gang takes part in its wired barrier (R214). -/
def barParts (s : State) (b : Barrier) (c : Site) (i : Nat) : List Site :=
  (s.barCores b c).filter fun t =>
    b == .gang || ((s.core t).group == (s.core c).group &&
      (match (s.slot t i).state with
       | .free | .exited => false
       | _ => true))

/-- Does a slot wait at a barrier, and with which participants? -/
def barWait (s : State) (b : Barrier) (t : Site) (i : Nat) : Option (Nat × Nat × List Site) :=
  match (s.slot t i).wait with
  | some (.barrier b' u g ps _) => if b' = b then some (u, g, ps) else none
  | _ => none

/-- The round open at a barrier, as its waiters hold it. -/
def barRound (s : State) (b : Barrier) (c : Site) (i : Nat) : Option (Nat × Nat × List Site) :=
  (s.barCores b c).findSome? fun t =>
    if (s.core t).group == (s.core c).group then
      match s.barWait b t i with
      | some (u, g, ps) => if ps.isEmpty then none else some (u, g, ps)
      | none => none
    else none

/-- Slots that wait for the next round issue their instruction again (R370). At the gang's wired barrier they stay parked
(R334). -/
def barNext (s : State) (b : Barrier) (c : Site) (i : Nat) : State :=
  if b = .gang then s
  else (s.barCores b c).foldl (fun s t =>
    match s.barWait b t i with
    | some (_, _, []) => s.wakeRetry t i
    | _ => s) s

/-- Has a core's slot joined the round open at a barrier? -/
def barJoined (s : State) (b : Barrier) (t : Site) (i : Nat) : Bool := (s.barWait b t i).any fun w => !w.2.2.isEmpty

/-- Is another slot index's round pending at a gang's wired barrier (R334)? -/
def barTaken (s : State) (b : Barrier) (c : Site) (i : Nat) : Bool :=
  b == .gang && (s.barCores b c).any fun t => (List.range 11).any fun j =>
    j != i && (match s.barWait b t j with
      | some (_, _, ps) => !ps.isEmpty
      | none => false)

/-- Wake every participant of a round: `f` completes one. -/
def barOpen (s : State) (b : Barrier) (c : Site) (i : Nat) (ps : List Site) (f : State → Site → State) : State :=
  (ps.foldl f s).barNext b c i

/-- Arrive at a barrier: open it as the last participant, else park (R370). `f` completes one participant. -/
def barArrive (s : State) (b : Barrier) (len : Nat) (f : State → Site → State) : State :=
  let (c, i) := s.cur
  let (u, g, ps) := match s.barRound b c i with
    | some r => r
    | none => (s.cyc + s.me.gtmo, s.me.gtmo, s.barParts b c i)
  if !ps.contains c || s.barTaken b c i then s.parkMe (.barrier b u g [] len)
  else
    let s := s.parkMe (.barrier b u g ps len)
    if ps.all fun t => s.barJoined b t i then s.barOpen b c i ps f else s

/-- BAR: each participant moves past it. -/
def barrierMe (s : State) (b : Barrier) : State :=
  s.barArrive b 4 fun s' t => s'.complete t s.cur.2 4 []

/-- A barrier's round expires: every waiting participant receives GANG_TIMEOUT and the barrier resets (R216, R370). -/
def barExpire (s : State) (b : Barrier) (c : Site) (i : Nat) : State :=
  match s.barRound b c i with
  | some (u, g, ps) =>
    if s.cyc < u then s
    else (ps.foldl (fun s t => if s.barJoined b t i then
        s.raiseAt t i (ownTrap 0x0B 0 (wordOf g) 0 3) else s) s).barNext b c i
  | none => match s.barWait b c i with
    | some (u, g, _) => if s.cyc < u then s else s.raiseAt c i (ownTrap 0x0B 0 (wordOf g) 0 3)
    | none => s

/-! ### Monitors and signals -/

/-- Register a monitor line at the line's bank (R170). -/
def armMonitor (s : State) (line : Nat) (a : Nat) (va : Word) : State :=
  s.modMe fun sl => { sl with monitors := aset sl.monitors line ⟨some (a / 64, va), false, none⟩ }

/-- Can a request be accepted now: no reservation holds it, and it waits for no earlier one (R177, R187)? -/
def acceptable (s : State) (r : Request) : Bool := !s.heldReq r && !(s.reqs.takeWhile (·.n ≠ r.n)).any (s.waitsFor r)

/-- Accept request `n` at a slice or at a buffer, if it can be accepted now (R76, R157). -/
def acceptN (s : State) (n : Nat) (slice : Bool) : State :=
  match s.reqs.find? (·.n = n) with
  | some r => if decide (r.addr < 2 ^ 40) == slice && s.acceptable r then s.acceptReq r else s
  | none => s

end State

/-- AMO (R265, R366). -/
def execAmo (_st : Stall) (op : AmoOp) (d a b : Reg) (_acq rel : Bool) (scope : Scope) (s : State) : Out :=
  .next (s.atomic d [a, b] (s.reg a).val (if rel then some scope else none)
    fun old => some (amoApply op old (s.reg b).val))

/-- CAS (R265, R366). -/
def execCas (_st : Stall) (d a b c : Reg) (_acq rel : Bool) (scope : Scope) (s : State) : Out :=
  .next (s.atomic d [a, b, c] (s.reg a).val (if rel then some scope else none)
    fun old => if old = (s.reg b).val then some (s.reg c).val else none)

/-- RSV: takes a reservation and keeps it; one held before is ended first (R366, R367). -/
def execRsv (_st : Stall) (d a : Reg) (s : State) : Out :=
  let va := (s.reg a).val
  .next (s.withAtom [a] va 8 .write fun p _ =>
    let s := (s.touch p false).dropRsv s.cur.1 s.cur.2
    s.granted p fun s =>
      let t := s.bankWord p
      let r : Reservation := ⟨p / 8, s.cur.1, s.cur.2, s.cyc, va, t.poison⟩
      let s := { s with reservations := s.reservations ++ [r] }
      let s := s.modMe fun sl => { sl with rsv := some (p / 8) }
      s.done 4 (s.wr d t.val t.poison))

/-- RWB: writes and releases, or returns LOST (R366, R367). -/
def execRwb (_st : Stall) (d a b : Reg) (s : State) : Out :=
  let va := (s.reg a).val
  .next (s.withAtom [a, b] va 8 .write fun p viewed =>
    (s.touch p false).inOrder p 8 fun s =>
      match s.myReservation fun r => r.word = p / 8 with
      | some r =>
        let s := if r.poisoned then s else s.atomWrite p viewed va (s.reg b).val
        let s := s.dropRsv s.cur.1 s.cur.2
        s.done 4 (s.wr d 0 false)
      | none => s.done 4 (s.wr d 1 false))

/-- RLSN: releases without a write, and without a translation (R365, R366). -/
def execRlsn (_st : Stall) (d a : Reg) (s : State) : Out :=
  let va := (s.reg a).val
  .next (s.useRegs [a]
    (if va.toNat % 8 ≠ 0 then s.raise (State.alignTrap va 8 1)
     else if State.isMesh va then s.raise (ownTrap 4 0xB va 0 1)
     else match s.myReservation fun r => r.va = va with
       | some _ =>
         let s := s.dropRsv s.cur.1 s.cur.2
         s.done 4 (s.wr d 0 false)
       | none => s.done 4 (s.wr d 1 false)))

/-- RED.F32: the contribution is on its way to its word's slice (R192, R366). It does not park. -/
def execRedF32 (st : Stall) (a b : Reg) (s : State) : Out :=
  let va := (s.reg a).val
  .next (s.withAtom [a, b] va 8 .write fun p viewed =>
    let (n, s) := (s.touch p false).fresh
    let r : Request := ⟨n, s.cur.1, s.cur.2, s.me.ctx, s.me.gen, p, natBytes 8 0, [false],
      some ((s.reg b).val.setWidth 32), none, va, viewed⟩
    { s with reqs := s.reqs ++ [r] }.retire st 4)

/-- FENCE.scope (R178). -/
def execFence (_st : Stall) (scope : Scope) (s : State) : Out := .next (s.fenceMe scope false)

/-- FENCE.E, with a scope: it completes when both waits have ended (R368). -/
def execFenceE (_st : Stall) (scope : Scope) (s : State) : Out := .next (s.fenceMe scope true)

/-- MON (R170, R369). -/
def execMon (_st : Stall) (line : BitVec 2) (a : Reg) (s : State) : Out :=
  let va := (s.reg a).val
  .next (s.useRegs [a] (s.withTarget va 1 .read fun p _ _ =>
    (s.armMonitor line.toNat p va).done 4 []))

/-- MOFF (R170, R369). -/
def execMoff (st : Stall) (line : BitVec 2) (s : State) : Out :=
  .next ((s.modMe fun sl => { sl with monitors := adel sl.monitors line.toNat }).retire st 4)

/-- WAITM: at once for a pending event, else parked until one (R172); a poisoned deadline counts as reached (R369). -/
def execWaitm (_st : Stall) (d a : Reg) (s : State) : Out :=
  .next (s.readCheck (s.regDests [a]) ((s.parkMe (.waitm d (s.reg a) 4)).tryWaitm s.cur.1 s.cur.2))

/-- BAR.CLU (R370). -/
def execBarClu (_st : Stall) (s : State) : Out := .next (s.barrierMe .clu)

/-- BAR.GANG, whose barrier is not GANG's (R370). -/
def execBarGang (_st : Stall) (s : State) : Out := .next (s.barrierMe .bar)

/-- SIGDEC: a release; the decrement is on its way to the word's slice, and the context does not park (R372). Its later accesses are
accepted after it (R356): see `orderOwn`, `afterSig` and `waitsFor`. -/
def execSigdec (st : Stall) (a b : Reg) (s : State) : Out :=
  let va := (s.reg a).val
  .next (s.withAtom [a, b] va 8 .write fun p viewed =>
    s.withRelease .dev fun s =>
      let (n, s) := (s.touch p false).fresh
      let r : Request := ⟨n, s.cur.1, s.cur.2, s.me.ctx, s.me.gen, p, natBytes 8 0, [false], none,
        some (s.reg b).val, va, viewed⟩
      { s with reqs := s.reqs ++ [r] }.retire st 4)

/-- SIGWAIT: tested at arrival, then parked at the word's bank (R373). -/
def execSigwait (_st : Stall) (d a b : Reg) (s : State) : Out :=
  let va := (s.reg a).val
  .next (s.withAtom [a, b] va 8 .read fun p _ =>
    (s.touch p false).inOrder p 8 fun s =>
      let s := s.touchWords p 8
      let t := s.bankWord p
      if t.poison || t.val.sle (s.reg b).val then s.done 4 (s.wr d t.val t.poison)
      else
        let since := s.me.parkedSince.getD s.cyc
        s.parkMe (.signal p va (s.reg b).val d (since + s.me.ftmo) 4))

/-- INTH: sends the vector at once when VALUE is at most 0, else arms the object (R374). Its write of ARMED waits for another slot's
reservation of that word (R187). -/
def execInth (_st : Stall) (a : Reg) (s : State) : Out :=
  let va := (s.reg a).val
  .next (s.withAtom [a] va 16 .write fun p viewed =>
    s.withRelease .dev fun s =>
      if (s.reservedBy (p / 8 + 1)).any fun v => !(v.core == s.cur.1 && v.slot == s.cur.2) then s.parkMe .drain
      else (s.touch p false).granted p fun s =>
        let s := s.touchWords (p + 8) 8
        let t := s.bankWord p
        let w1 := s.word (p + 8)
        let now := !t.poison && t.val.sle 0
        let s := s.bankSetWord (p + 8) ⟨setField w1.val 63 1 (if now then 0 else 1), w1.poison⟩
        let s := if viewed then s.masterWrite s.me.ctx s.me.gen (va.toNat + 8) else s
        let s := if now then s.sendVector s.me.ctx w1.val else s
        s.done 4 [])

/-- SLICE_REQUEST: a slice accepts request `n` (R76); a request that cannot be accepted now waits. -/
def execSliceRequest (n : Nat) (s : State) : Out := .next (s.acceptN n true)

/-- BUFFER_REQUEST: a core's buffer performs request `n` (R157). -/
def execBufferRequest (n : Nat) (s : State) : Out := .next (s.acceptN n false)

/-- PROBE_ECHO: a bank echoes once every earlier access of the slot to it is accepted (R177, R178). -/
def execProbeEcho (core slot bank : Nat) (s : State) : Out :=
  .next (match (s.slot core slot).wait with
    | some (.fence ps mask eng sc len) =>
      if s.reqs.any fun r => r.core == core && r.slot == slot && bankOf r.addr == bank then s
      else (s.modSlot core slot fun sl =>
        { sl with wait := some (.fence (ps.filter (· ≠ bank)) mask eng sc len) }).tryFence core slot
    | _ => s)

/-- RESERVATION_EXPIRY: a reservation of RSV not released within 4,096 cycles is ended without a write (R189). -/
def execReservationExpiry (word : Nat) (s : State) : Out :=
  .next (match s.reservedBy word with
    | some r => if s.cyc > r.since + 4096 then s.dropRsv r.core r.slot else s
    | none => s)

/-- WAITM_DEADLINE: a WAITM whose deadline CYC has reached returns TIMEOUT (R172). -/
def execWaitmDeadline (core slot : Nat) (s : State) : Out := .next (s.tryWaitm core slot)

/-- BAR_TIMEOUT: a barrier not opened within the first arrival's GTMO (R370). -/
def execBarTimeout (core slot : Nat) (s : State) : Out :=
  .next ((s.barExpire .clu core slot).barExpire .bar core slot)

/-- SIGWAIT_TIMEOUT (R373). -/
def execSigwaitTimeout (core slot : Nat) (s : State) : Out :=
  .next (match (s.slot core slot).wait with
    | some (.signal _ va _ _ u _) => if s.cyc ≥ u then s.raiseAt core slot (ownTrap 8 2 va 0 0) else s
    | _ => s)

end Sys2Proof.Machine
end

