-- ==== Sys2Proof/Machine/Engine.lean ====
section
/-!
DEFINITION. The copy engines and the pool behind them (R50 to R52, R67 to R75, R85, R86, R182 to R184, R195, R364).
-/

namespace Sys2Proof.Machine

/-- The pieces of a range that lie on one 4 KiB page each: address and bytes. -/
def pieces : Nat → Nat → Nat → List (Nat × Nat)
  | 0, _, _ => []
  | f + 1, a, n =>
    if n = 0 then []
    else
      let k := min n (4096 - a % 4096)
      (a, k) :: pieces f (a + k) (n - k)

/-- A word of a range as an engine holds it: physical address, guest-physical address, VIEWED. -/
structure HeldWord where
  addr : Nat
  gpa : Option Nat
  viewed : Bool
  deriving DecidableEq, Repr

namespace State

/-! ### Acceptance (R69) -/

/-- The guest-physical address of a virtual address, from its stage-1 leaf. -/
def guestAddr (s : State) (ctx va : Nat) (k : Kind) : Option Nat :=
  match s.walk1 ctx va k 4 (s.ctx ctx).s1root with
  | .ok (e, level, _) =>
    let size := leafSize e level
    some (fieldOf e 12 28 * 4096 / size * size + va % size)
  | .error _ => none

/-- The words of `n` bytes from a physical address. -/
def heldWords (a n : Nat) (gpa : Option Nat) (viewed : Bool) : List HeldWord :=
  (List.range (n / 8)).map fun j => ⟨a + 8 * j, gpa.map (· + 8 * j), viewed⟩

/-- Translate every piece of a range with a translation `f`; the first failure ends it. -/
def heldPieces (ctx : Nat) (k : Kind) (f : State → Word → Except Trap (Nat × Bool × State)) :
    List (Nat × Nat) → State → Except Trap (List HeldWord × State)
  | [], s => .ok ([], s)
  | (va, n) :: rest, s =>
    match f s (wordOf va) with
    | .error t => .error t
    | .ok (a, v, s) =>
      match heldPieces ctx k f rest s with
      | .error t => .error t
      | .ok (l, s') => .ok (heldWords a n (s.guestAddr ctx va k) v ++ l, s')

/-- One local range of a command: translated page by page, or checked as a mesh operand (R31, R55, R69). -/
def heldRange (s : State) (c : Site) (ctx : Nat) (va : Word) (n : Nat) (k : Kind) :
    Except Trap (List HeldWord × State) :=
  if isMesh va then
    match s.meshCheck c ctx (s.ctx ctx).gen va n k with
    | .error t => .error t
    | .ok (a, _) =>
      if (a - 2 ^ 40) / 2 ^ 17 % 8 = 4 then .error (ownTrap 4 0xB va 0 k.acc) else .ok (heldWords a n none false, s)
  else heldPieces ctx k (fun s v => s.translateDirect ctx v k) (pieces (n / 4096 + 2) va.toNat n) s

/-- Translate the pool side of a command, through R28 up to the check that a pool page fails (R51): the pool word, or
none for a page that is not a pool page. The walk reads flushed words (R193). -/
def translatePool (s : State) (ctx : Nat) (va : Word) (k : Kind) : Except Trap (Option Nat × State) :=
  let v := va.toNat
  if isMesh va then .error (ownTrap 4 0xB va 0 k.acc)
  else if !canonical va then .error (xlTrap k 3 0x1 .own v 0)
  else
    let s := walkTouch [] ctx v k 4 (s.ctx ctx).s1root s
    match s.walk1 ctx v k 4 (s.ctx ctx).s1root with
    | .error t => .error t
    | .ok (e, level, _) =>
      if !permits e k then .error (xlTrap k 4 0x3 .own v 0)
      else
        let size := leafSize e level
        let gpa := fieldOf e 12 28 * 4096 / size * size + v % size
        match s.stage2 ctx v gpa k k with
        | .error t => .error t
        | .ok (_, _, .pool id f _) => .ok (some (poolAddr id f (gpa % 2 ^ 21)), s)
        | .ok _ => .ok (none, s)

/-- The pool range of a command: each piece's words, none for a page that is not a pool page. -/
def poolPieces (s : State) (ctx : Nat) (k : Kind) : List (Nat × Nat) → Except Trap (List (Option HeldWord) × State)
  | [] => .ok ([], s)
  | (va, n) :: rest =>
    match s.translatePool ctx (wordOf va) k with
    | .error t => .error t
    | .ok (p, s) => match poolPieces s ctx k rest with
      | .error t => .error t
      | .ok (l, s') => .ok ((match p with
          | some a => (heldWords a n (s.guestAddr ctx va k) false).map some
          | none => List.replicate (n / 8) none) ++ l, s')

/-- ALIGN of an engine operand (R68). -/
def engAlign (dst src len : Word) (limit : Nat) : Option Trap :=
  if dst.toNat % 8 ≠ 0 then some (alignTrap dst 8 1)
  else if src.toNat % 8 ≠ 0 then some (alignTrap src 8 0)
  else if len.toNat % 8 ≠ 0 ∨ len.toNat < 8 ∨ len.toNat > limit then some (alignTrap len 8 3)
  else none

/-- The distance between two dies on the 2 × 2 grid (R70). -/
def dieDistance (a b : Nat) : Nat := (if a % 2 = b % 2 then 0 else 1) + (if a / 2 = b / 2 then 0 else 1)

/-- What one end adds to the latency of a copy (R70); `a` is its first physical address. -/
def endLatency (die : Nat) (va : Word) (a : Nat) : Nat :=
  if isMesh va then 20 * dieDistance die (Site.die (ownerOf a)) else 64

/-- Promise (R70). -/
def promiseOf (acc lat tail len bw : Nat) : Nat := max (acc + lat) tail + (len + bw - 1) / bw

/-- The promise of the command accepted just before by an engine, or 0 where it has completed (R70). A pool command carries no
promise: after an incomplete one the tail is 0, a choice of the model (log entry 11). -/
def engTail (s : State) (cl : Nat) : Nat :=
  match (s.cluster cl).engine.getLast? with
  | some e => e.promise
  | none => 0

/-- Has a cluster's engine queue its 16 commands (R67)? -/
def engFull (s : State) (cl : Nat) : Bool := decide ((s.cluster cl).engine.length ≥ 16)

/-- Put a command of the issuing slot in its cluster's queue; destination words of A and S are emptied and held (R71). -/
def engAccept (s : State) (kind : EngKind) (words : List EngWord) (promise : Nat) (d : Reg) : Nat × State :=
  let s := words.foldl (fun s w => match w.dst with
    | some a => s.engineHold a
    | none => s) s
  let (id, s) := s.fresh
  (id, s.modCluster (Site.cluster s.cur.1) fun k => { k with
    engine := k.engine ++ [⟨id, kind, s.me.ctx, s.me.gen, s.cur.1, s.cur.2, words, promise, none, s.me.wp, d, 0, none⟩] })

/-- ENG.CPY (R68 to R71, R183). -/
def engCopy (s : State) (d a b c : Reg) : State :=
  s.useRegs [a, b, c]
    (let dst := (s.reg a).val
     let src := (s.reg b).val
     let len := (s.reg c).val
     match engAlign dst src len 0x100000 with
     | some t => s.raise t
     | none => s.withRelease .dev fun s =>
       let cl := Site.cluster s.cur.1
       match s.heldRange s.cur.1 s.me.ctx dst len.toNat .write with
       | .error t => s.raise t
       | .ok (ds, s) => match s.heldRange s.cur.1 s.me.ctx src len.toNat .read with
         | .error t => s.raise t
         | .ok (ss, s) =>
           if s.engFull cl then s.parkMe .engQueue
           else
             let die := Site.die s.cur.1
             let first (l : List HeldWord) : Nat := match l with
               | h :: _ => h.addr
               | [] => 0
             let lat := 40 + endLatency die src (first ss) + endLatency die dst (first ds)
             let bw := if isMesh dst && isMesh src then 64 else 32
             let p := promiseOf s.cyc lat (s.engTail cl) len.toNat bw
             let words := (ss.zip ds).map fun (x, y) =>
               EngWord.mk (some x.addr) (some y.addr) x.gpa y.gpa dst y.viewed
             let words := (words.zip (List.range words.length)).map fun (w, j) => { w with va := dst + wordOf (8 * j) }
             let (id, s) := s.engAccept .cpy words p d
             let s := s.modMe fun sl => { sl with promises := sl.promises ++ [(id, p)] }
             s.done 8 (s.wr d (wordOf p) false))

/-- ENG.POOLRD and ENG.POOLWR (R85, R183): the slot parks until the command completes. -/
def engPool (s : State) (rd : Bool) (d a b c : Reg) : State :=
  s.useRegs [a, b, c]
    (let dst := (s.reg a).val
     let src := (s.reg b).val
     let len := (s.reg c).val
     match engAlign dst src len 0x40000 with
     | some t => s.raise t
     | none => s.withRelease .dev fun s =>
       let ctx := s.me.ctx
       let n := len.toNat
       let pool (s : State) (va : Word) (k : Kind) := s.poolPieces ctx k (pieces (n / 4096 + 2) va.toNat n)
       let checked : Except Trap (List EngWord × State) :=
         if rd then
           match s.heldRange s.cur.1 ctx dst n .write with
           | .error t => .error t
           | .ok (ds, s) => match pool s src .read with
             | .error t => .error t
             | .ok (ps, s) => .ok ((ps.zip ds).map fun (p, y) =>
                 ⟨p.map (·.addr), some y.addr, p.bind (·.gpa), y.gpa, dst, y.viewed⟩, s)
         else
           match pool s dst .write with
           | .error t => .error t
           | .ok (ps, s) => match s.heldRange s.cur.1 ctx src n .read with
             | .error t => .error t
             | .ok (ss, s) => .ok ((ss.zip ps).map fun (x, p) =>
                 ⟨some x.addr, p.map (·.addr), x.gpa, p.bind (·.gpa), dst, false⟩, s)
       match checked with
       | .error t => s.raise t
       | .ok (words, s) =>
         if s.engFull (Site.cluster s.cur.1) then s.parkMe .engQueue
         else
           let words := (words.zip (List.range words.length)).map fun (w, j) => { w with va := dst + wordOf (8 * j) }
           let (id, s) := s.engAccept (if rd then .poolrd else .poolwr) words 0 d
           s.parkMe (.pool id d 8))

/-! ### Running (R67, R71, R73, R195) -/

/-- Is a physical address in a pool frame? -/
def isPool (a : Nat) : Bool := decide (2 ^ 80 ≤ a)

/-- Record a write of a command through its held translation: D, and the sub-bit, which a harvest may have cleared since (R25,
R27). -/
def engDirty (s : State) (e : EngCmd) (w : EngWord) : State :=
  match w.dgpa with
  | some g =>
    let k := s.ctx e.ctx
    let e2 := aget k.s2 0 (g / 2 ^ 21)
    if k.gen = e.gen && e2.getLsbD 0 && !e2.getLsbD 6 then s.markDirty2 e.ctx (g / 2 ^ 21) g e2 else s
  | none => s

/-- Does a command still reach the buffer that holds a destination (R66, R73)? -/
def engReaches (s : State) (e : EngCmd) (a : Nat) : Bool :=
  decide (a < 2 ^ 40) || isPool a || s.admitted e.ctx e.gen (ownerOf a)

/-- Copy one word of a command: a source that was not read gives poison, and a destination out of reach is dropped
(R73); a write through a VIEWED leaf is a master write (R108). An emptied destination word whose write is dropped stays empty
and engine-held, a choice of the model (log entry 11). -/
def engMove (s : State) (e : EngCmd) (w : EngWord) : State :=
  let (s, t) := match w.src with
    | some a =>
      let s := (if isPool a then s else s.noteTraffic e.core e.ctx a).touchWords a 8
      (s, s.bankWord a)
    | none => (s, ⟨0, true⟩)
  match w.dst with
  | none => s
  | some a =>
    if !s.engReaches e a then s
    else if isPool a then s.setWord a t
    else
      let s := (s.noteTraffic e.core e.ctx a).engDirty e w
      let s := s.engineWrite a t
      if w.viewed then s.masterWrite e.ctx e.gen w.va.toNat else s

/-- Change the first command of a cluster's queue. -/
def modHead (s : State) (cl : Nat) (f : EngCmd → EngCmd) : State :=
  s.modCluster cl fun k => { k with engine := match k.engine with
    | [] => []
    | e :: rest => f e :: rest }

/-- COPY_START (R67): the first command starts once the one before it has completed. -/
def engStart (s : State) (cl : Nat) : State :=
  s.modHead cl fun e => if e.started.isNone then { e with started := some s.cyc } else e

/-- Copy words of the running copy of a cluster, up to the first whose destination a reservation holds (R187); how many its first
`n` words are, and when, is not architected. The words land in ascending address order, at every bank: a choice of the model, for the
writes of a command to different banks are unordered (R195, log entry 11). -/
def engAdvance (s : State) (cl n : Nat) : State :=
  match (s.cluster cl).engine with
  | e :: _ =>
    if e.kind == .cpy && e.started.isSome then
      let now := (e.words.take n).takeWhile fun w => !w.dst.any s.isReserved
      (now.foldl (fun s w => s.engMove e w) s).modHead cl fun e => { e with words := e.words.drop now.length }
    else s
  | [] => s

/-- Complete the first command of a cluster (R70): it leaves the queue, slots that wait for an entry issue again, fences
are tried, and a pool command's status is on its way as a reply (R85, R412). -/
def engFinish (s : State) (cl : Nat) : State :=
  match (s.cluster cl).engine with
  | [] => s
  | e :: rest =>
    let s := s.modCluster cl fun k => { k with engine := rest }
    let s := if e.kind == .cpy then s
      else
        { s with replies := s.replies ++ [⟨e.id, e.core, e.ctx, e.gen, e.slot, e.wp, some (e.d, wordOf e.status), none, none⟩] }
    s.allSlots.foldl (fun s (c, i) => match (s.slot c i).wait with
      | some .engQueue => if Site.cluster c = cl then s.wakeRetry c i else s
      | _ => s) s

/-- COPY_COMPLETE (R70): when the last write of the running command has been accepted. -/
def engComplete (s : State) (cl : Nat) : State :=
  match (s.cluster cl).engine with
  | e :: _ => if e.started.isSome && e.words.isEmpty then s.engFinish cl else s
  | [] => s

/-! ### The pool (R50, R52, R85, R86, R182, R184) -/

/-- The directory key of the frame that holds a pool address. -/
def poolKey (a : Nat) : Nat := (a - 2 ^ 80) / 2 ^ 21

/-- End a pool command with a status: the words of a POOLRD that are not written become poisoned and full (R85), those that a
reservation holds once it has ended (R187). -/
def poolStop (s : State) (cl status : Nat) : State :=
  match (s.cluster cl).engine with
  | e :: _ =>
    let held := if e.kind == .poolrd then e.words.filter fun w => w.dst.any s.isReserved else []
    let now := if e.kind == .poolrd then e.words.filter fun w => !w.dst.any s.isReserved else []
    (now.foldl (fun s w => s.engMove e { w with src := none }) s).modHead cl fun e => { e with
      words := held
      status := status }
  | [] => s

/-- The pool address of a word of a pool command. -/
def poolSide (e : EngCmd) (w : EngWord) : Option Nat := if e.kind == .poolrd then w.src else w.dst

/-- Note the traffic of a pool line on the Korxo port that carries it (R430, R431): a live one, which the spec does not choose. -/
def notePort (s : State) (ctx : Nat) : State :=
  let live := (List.range 8).filter fun l => (s.link_ l).up && !(s.link_ l).ret
  let (v, s) := s.drawNat Config.freeNat
  match live[v % live.length]? with
  | none => s
  | some l => s.modLink l fun k => { k with traffic := aset k.traffic (s.partitionOf 8 ctx) s.cyc }

/-- POOL_LINE_ACCEPT: the appliance serves the next line of a POOLRD, or accepts that of a POOLWR (R86, R182). A pool
frame the directory does not list is held by no appliance; a write needs the directory to name this device (R52). -/
def poolLine (s : State) (cl : Nat) : State :=
  match (s.cluster cl).engine with
  | e :: _ =>
    if e.kind == .cpy || e.started.isNone then s
    else if e.status ≠ 0 then s.poolStop cl e.status
    else match e.words with
      | [] => s
      | w :: _ =>
        if w.dst.any s.isReserved then s
        else match poolSide e w with
        | none =>
          if e.kind == .poolwr && w.dgpa.isSome then
            s.modHead cl fun e => { e with words := e.words.drop 1 }
          else if e.kind == .poolrd && w.sgpa.isSome then
            (s.engMove e w).modHead cl fun e => { e with words := e.words.drop 1 }
          else s.poolStop cl 2
        | some a =>
          match s.pkg.owners.find? fun o => o.1 = poolKey a with
          | none => s.poolStop cl 2
          | some o =>
            if e.kind == .poolwr && o.2 ≠ s.pkg.device.toNat then s.poolStop cl 1
            else
              let line := e.words.takeWhile fun w => (poolSide e w).any fun b => b / 64 == a / 64
              if line.any fun w => w.dst.any s.isReserved then s
              else (line.foldl (fun s w => s.engMove e w) (s.notePort e.ctx)).modHead cl fun e => { e with
                words := e.words.drop line.length
                frame := some (poolKey a) }
  | [] => s

/-- A payload flit arrives for the running POOLRD of a cluster (R86, R428): it holds the line that the appliance accepted last. -/
def poolFlit (s : State) (cl : Nat) (flit : BitVec 512) : State :=
  match (s.cluster cl).engine with
  | e :: _ =>
    if e.kind != .poolrd || e.started.isNone || e.status ≠ 0 then s
    else match e.words.head?.bind (poolSide e) with
      | none => s
      | some a => ((List.range 8).foldl (fun s j =>
          s.setWord (a / 64 * 64 + 8 * j) ⟨flit.extractLsb' (64 * j) 64, false⟩) s).poolLine cl
  | [] => s

/-- The words that the next line of a running command carries: those on the 64-byte line of its next word, by the address that its
unit travels under. -/
def nextLine (e : EngCmd) : List EngWord :=
  let key (w : EngWord) : Option Nat := ((if e.kind == .cpy then w.src.or w.dst else poolSide e w)).map (· / 64)
  match e.words with
  | [] => []
  | w :: _ => e.words.takeWhile fun x => key x == key w

/-- The next line of a running command has lost its payload (R430): its words are still to be delivered, as poison. -/
def loseWords (s : State) (cl : Nat) : State :=
  s.modHead cl fun e =>
    let n := (nextLine e).length
    { e with words := (e.words.take n).map (fun w => { w with src := none }) ++ e.words.drop n }

/-- The next line of a running pool command is delivered as poison: its payload was lost on Korxo (R86, R430). Words that a
reservation holds are delivered once it has ended (R187). -/
def poolLineLost (s : State) (cl : Nat) : State :=
  match (s.cluster cl).engine with
  | e :: _ =>
    if e.kind == .cpy || e.started.isNone || e.status ≠ 0 then s
    else if e.kind == .poolwr then (s.loseWords cl).poolLine cl
    else (nextLine e).foldl (fun s _ => s.poolLine cl) (s.loseWords cl)
  | [] => s

/-- Has a running POOLWR lines of a frame accepted, and others still to come? -/
def poolMidFrame (s : State) (cl key : Nat) : Bool :=
  match (s.cluster cl).engine with
  | e :: _ => e.kind == .poolwr && e.started.isSome && e.frame == some key && (match e.words with
      | w :: _ => w.dst.any fun a => poolKey a == key
      | [] => false)
  | [] => false

/-- Accept the lines of a frame that a running POOLWR has begun. -/
def poolFrameRest : Nat → State → Nat → Nat → State
  | 0, s, _, _ => s
  | n + 1, s, cl, key => if s.poolMidFrame cl key then poolFrameRest n (s.poolLine cl) cl key else s

/-- An ownership move takes effect at the directory in one step (R184). A frame is handled as a unit (R86): the lines of one
that a POOLWR has begun are accepted before the move, so that NOTOWNER never leaves part of a frame written (R85). -/
def moveOwner (s : State) (key owner : Nat) : State :=
  let s := s.clusters.foldl (fun s (cl, _) => poolFrameRest 32768 s cl key) s
  s.modPkg fun p => { p with owners := aset p.owners key owner }

/-- The appliance accepts a line that another device writes to a frame it owns (R182, R184): the frame, the line and the data are
free values. -/
def foreignLine (s : State) : State :=
  let (v, s) := s.drawNat Config.freeNat
  let (x, s) := s.drawNat Config.freeNat
  let others := s.pkg.owners.filter fun o => o.2 ≠ s.pkg.device.toNat
  match others[v % others.length]? with
  | none => s
  | some o => (List.range 8).foldl (fun s j =>
      let (w, s) := s.drawNat Config.freeNat
      s.setWord (2 ^ 80 + 2 ^ 21 * o.1 + x % 32768 * 64 + 8 * j) ⟨wordOf w, false⟩) s

/-- Has the running pool command of a cluster had no reply for 1,750,000 cycles (R85)? From when they are counted is open: the model
counts from the start of the command, whatever lines have been answered since (log entry 11). -/
def poolLate (s : State) (cl : Nat) : Bool :=
  match (s.cluster cl).engine with
  | e :: _ => e.kind != .cpy && !e.words.isEmpty && e.started.any fun t => decide (t + 1750000 ≤ s.cyc)
  | [] => false

/-- Revoke the translations that accepted commands of a context hold through guest frames (R73). -/
def engRevoke (s : State) (ctx : Nat) (p : Nat → Bool) : State :=
  { s with clusters := s.clusters.map fun (n, k) => (n, { k with engine := k.engine.map fun e =>
      if e.ctx = ctx then
        { e with words := e.words.map fun w => { w with
            src := if w.sgpa.any (fun g => p (g / 2 ^ 21)) then none else w.src
            dst := if w.dgpa.any (fun g => p (g / 2 ^ 21)) then none else w.dst } }
      else e }) }

/-- The remaining writes to a core's buffers, which go to another holder, are dropped from every accepted command but the new
holder's own (R66, R73). -/
def engDrop (s : State) (c : Site) (ctx gen : Nat) : State :=
  let gone (a : Nat) : Bool := decide (2 ^ 40 ≤ a) && !isPool a && ownerOf a == c
  { s with clusters := s.clusters.map fun (n, k) => (n, { k with engine := k.engine.map fun e =>
      if e.ctx = ctx ∧ e.gen = gen then e
      else { e with words := e.words.map fun w => { w with dst := w.dst.filter fun a => !gone a } } }) }

/-! ### Promises and sleep (R72, R74) -/

/-- Is command `id` of a core's engine incomplete? -/
def engHas (s : State) (c : Site) (id : Nat) : Bool := (s.cluster (Site.cluster c)).engine.any (·.id = id)

/-- Judge one promise of a slot that is due (R72): a miss is taken at once by a slot that sleeps in SLEEPU, recorded for one that
is halted (R413) or faulted, and kept for the next turn by any other. -/
def judgeOne (s : State) (c : Site) (i : Nat) (id p : Nat) : State :=
  let sl := s.slot c i
  let t := ownTrap 0x0A 0 (wordOf p) (wordOf s.cyc) 3
  if !s.engHas c id then s
  else match sl.state, sl.wait with
    | .free, _ => s
    | .exited, _ => s
    | .faulted, _ => s.notice c i t
    | .halted, _ => s.notice c i t
    | _, some (.sleepu ..) => s.raiseAt c i t
    | _, _ => s.modSlot c i fun sl => { sl with kept := sl.kept ++ [⟨t, none⟩] }

/-- Judge every promise of a slot that is due, each on its own (R72). -/
def judgePromise (s : State) (c : Site) (i : Nat) : State :=
  let due := (s.slot c i).promises.filter fun p => decide (p.2 ≤ s.cyc)
  if due.isEmpty then s
  else
    let s := s.modSlot c i fun sl => { sl with promises := sl.promises.filter fun p => !decide (p.2 ≤ s.cyc) }
    due.foldl (fun s (id, p) => s.judgeOne c i id p) s

end State

/-- ENG.CPY (R68, R70). -/
def execEngCpy (_st : Stall) (d a b c : Reg) (s : State) : Out := .next (s.engCopy d a b c)

/-- ENG.POOLRD (R85). -/
def execEngPoolrd (_st : Stall) (d a b c : Reg) (s : State) : Out := .next (s.engPool true d a b c)

/-- ENG.POOLWR (R85). -/
def execEngPoolwr (_st : Stall) (d a b c : Reg) (s : State) : Out := .next (s.engPool false d a b c)

/-- ENG.SLEEPU (R74): a wake cycle already reached does not park. -/
def execEngSleepu (_st : Stall) (a : Reg) (s : State) : Out :=
  let wake := (s.reg a).val.toNat
  .next (s.useRegs [a] (if wake ≤ s.cyc then s.done 4 [] else s.parkMe (.sleepu wake 4)))

/-- COPY_START (R67). -/
def execCopyStart (cluster : Nat) (s : State) : Out := .next (s.engStart cluster)

/-- COPY_COMPLETE (R70). -/
def execCopyComplete (cluster : Nat) (s : State) : Out := .next (s.engComplete cluster)

/-- PROMISE_MISS (R72). -/
def execPromiseMiss (core slot : Nat) (s : State) : Out := .next (s.judgePromise core slot)

/-- SLEEPU_WAKE (R74). -/
def execSleepuWake (core slot : Nat) (s : State) : Out :=
  .next (match (s.slot core slot).wait with
    | some (.sleepu wake len) => if wake ≤ s.cyc then s.complete core slot len [] else s
    | _ => s)

/-- POOL_TIMEOUT (R85): the command completes with TIMEOUT. -/
def execPoolTimeout (cluster : Nat) (s : State) : Out :=
  .next (if s.poolLate cluster then s.poolStop cluster 3 else s)

/-- POOL_LINE_ACCEPT (R182). -/
def execPoolLineAccept (cluster : Nat) (s : State) : Out := .next (s.poolLine cluster)

/-- OWNERSHIP_MOVE: the directory names a new owner in one step (R184). -/
def execOwnershipMove (pool frame owner : Nat) (s : State) : Out :=
  .next (s.moveOwner (pool * 2 ^ 36 + frame) owner)

end Sys2Proof.Machine
end

