-- ==== Sys2Proof/Machine/Budget.lean ====
section
/-!
DEFINITION. Budgets (R403) and the parameter blocks that instructions read (R378).
-/

namespace Sys2Proof.Machine

/-- The budgets of R403, by code. -/
inductive Budget where
  | weight | memBytes | poolPages | children | launches
  deriving DecidableEq, Repr

/-- The code of a budget (R403). -/
def Budget.code : Budget → Nat
  | .weight => 1 | .memBytes => 2 | .poolPages => 3 | .children => 4 | .launches => 5

/-- A context's limit of a budget (R380). -/
def Ctx.limit (k : Ctx) (b : Budget) : Nat :=
  match b with
  | .weight => k.weight | .memBytes => k.memBytes | .poolPages => k.poolPages | .children => k.children
  | .launches => k.launches

/-- What a context has used of a budget. -/
def Ctx.usedOf (k : Ctx) (b : Budget) : Nat := aget k.used 0 b.code

/-- What a context has left of a budget. -/
def Ctx.left (k : Ctx) (b : Budget) : Nat := k.limit b - k.usedOf b

/-- BUDGET (R234, R403): owned by the ancestor that granted the exhausted context its budgets. -/
def budgetTrap (b : Budget) (amount : Nat) : Trap :=
  { cause := 0x13, detail := 0, addr := wordOf b.code, info := wordOf amount, owner := .parent, acc := 3
    straddle := false }

namespace State

/-- Charge an amount to a context's budget. -/
def charge (s : State) (n : Nat) (b : Budget) (amount : Nat) : State :=
  if amount = 0 then s else s.modCtx n fun k => { k with used := aset k.used b.code (k.usedOf b + amount) }

/-- Return an amount to a context's budget. -/
def refund (s : State) (n : Nat) (b : Budget) (amount : Nat) : State :=
  if amount = 0 then s else s.modCtx n fun k => { k with used := aset k.used b.code (k.usedOf b - amount) }

/-- Read `n` words at a virtual address of a context (R28); a mesh address is PERM with detail MFORM. -/
def readBlock (s : State) (ctx : Nat) (va : Word) : Nat → Except Trap (List Tagged × State)
  | 0 => .ok ([], s)
  | n + 1 =>
    if isMesh va then .error (ownTrap 4 0xB va 0 0)
    else match s.translateDirect ctx va .read with
      | .error t => .error t
      | .ok (a, _, s) =>
        let s := s.touchWords a 8
        match readBlock s ctx (va + 8) n with
        | .error t => .error t
        | .ok (l, s) => .ok (s.bankWord a :: l, s)

/-- Go on with an aligned parameter block of the issuing slot (R356, R361, R378): ALIGN, the release, then the read. -/
def withBlock (s : State) (va : Word) (align n : Nat) (k : List Tagged → State → State) : State :=
  if va.toNat % align ≠ 0 then s.raise (alignTrap va align 0)
  else s.withRelease .dev fun s => match s.readBlock s.me.ctx va n with
    | .error t => s.raise t
    | .ok (l, s) => k l s

end State

/-- Word `i` of a block. -/
def blockWord (l : List Tagged) (i : Nat) : Word := (l.getD i ⟨0, false⟩).val

end Sys2Proof.Machine
end

