-- ==== Sys2Proof/WellFormed.lean ====
section
/-!
DEFINITION. Which instructions are well formed: the conditions R243 to R273 and R303 put on the fields that the
syntax still allows. A word whose instruction is not well formed raises ILL (R271). Events carry no encoding and are
always well formed.
-/

namespace Sys2Proof

/-- The element type codes of R249, VT := TX × 4 + t. -/
inductive VType where
  | f32 | b16 | s32 | s16 | f16 | z32 | z16 | s8 | z8
  deriving DecidableEq, Repr

namespace VType

/-- The element type with code `n` (R249); codes above 8 are unused. -/
def ofCode (n : Nat) : Option VType :=
  match n with
  | 0 => some .f32 | 1 => some .b16 | 2 => some .s32 | 3 => some .s16 | 4 => some .f16
  | 5 => some .z32 | 6 => some .z16 | 7 => some .s8 | 8 => some .z8 | _ => none

/-- The lane width W of R300, in bits. -/
def width : VType → Nat
  | .f32 | .s32 | .z32 => 32
  | .b16 | .f16 | .s16 | .z16 => 16
  | .s8 | .z8 => 8

/-- The lane count L of R300. -/
def lanes (v : VType) : Nat := 512 / v.width

/-- The floating types, F of R303. -/
def isF : VType → Bool
  | .f32 | .b16 | .f16 => true
  | _ => false

/-- The 16-bit and 32-bit integer types, I of R303. -/
def isI : VType → Bool
  | .s32 | .z32 | .s16 | .z16 => true
  | _ => false

/-- The byte types, B of R303. -/
def isB : VType → Bool
  | .s8 | .z8 => true
  | _ => false

/-- The signed integer types. -/
def isS : VType → Bool
  | .s32 | .s16 | .s8 => true
  | _ => false

end VType

namespace VecOp

/-- Does the instruction accept the element type (R303)? The conversions and special functions require VT = 0. -/
def accepts (op : VecOp) (v : VType) : Bool :=
  match op with
  | .vadd | .vsub | .vmin | .vmax | .vand | .vor | .vxor | .vsel | .vmov | .vperm | .vslide | .vcmpr => true
  | .vmul | .vfma | .vcmpeq | .vcmplt | .vcmple | .vredadd | .vredmax | .vredmin | .vscan | .vcnt => v.isF || v.isI
  | .vabs | .vneg => v.isF || v.isS
  | .vshl | .vshr | .vidx => v.isI
  | .vsar => v == .s32 || v == .s16
  | .vkey | .vsumgt => v.isF
  | .vhist => v == .z32 || v == .z16
  | _ => v == .f32

/-- Is va a source of the instruction (R303)? -/
def usesA : VecOp → Bool
  | .vcnt | .vidx => false
  | _ => true

/-- Is vb a vector source of the instruction (R303)? -/
def usesB : VecOp → Bool
  | .vadd | .vsub | .vmul | .vfma | .vmin | .vmax | .vand | .vor | .vxor | .vshl | .vshr | .vsar
  | .vcmpeq | .vcmplt | .vcmple | .vsel | .vperm | .vslide | .vscan => true
  | _ => false

/-- Does the instruction take scales, a base, an amount or a control word from q (R303)? -/
def usesQ : VecOp → Bool
  | .vslide | .vscan | .vidx | .vhist | .vsumgt | .cvtF4F32 | .cvtF32F4 => true
  | _ => false

/-- Is the destination a mask register (R303)? -/
def isCompare : VecOp → Bool
  | .vcmpeq | .vcmplt | .vcmple => true
  | _ => false

/-- The conversions, which alone give RM and SAT a meaning (R94). -/
def isCvt : VecOp → Bool
  | .cvtB16F32 | .cvtF16F32 | .cvtF32B16 | .cvtF32F16 | .cvtE4F32 | .cvtE5F32 | .cvtF32E4 | .cvtF32E5
  | .cvtM8F32 | .cvtF32M8 | .cvtF4F32 | .cvtF32F4 | .cvtF32S32 | .cvtS32F32 => true
  | _ => false

/-- The largest value the vb field may hold when it is no vector source: the PART bounds of R321, the FORM bound of
R327, and 0 otherwise (R249). -/
def maxB : VecOp → Nat
  | .cvtB16F32 | .cvtF16F32 | .cvtF32B16 | .cvtF32F16 => 1
  | .cvtE4F32 | .cvtE5F32 | .cvtF32E4 | .cvtF32E5 | .cvtM8F32 | .cvtF32M8 => 3
  | .cvtF4F32 | .cvtF32F4 => 7
  | .vtli => 1
  | _ => 0

end VecOp

/-- The short form's extension: nothing set (R249, R250). -/
def VExt.none : VExt := ⟨0, 0, false, false, false, 0, false, 0⟩

/-- Are the fields of a format V instruction those R249 to R251 and R303 allow? -/
def vecWf (op : VecOp) (d a b : VReg) (t : BitVec 2) (x : VExt) : Bool :=
  (match VType.ofCode (x.tx.toNat * 4 + t.toNat) with
    | some v => op.accepts v
    | none => false)
  && (op.usesA || (a == 0 && !x.pa))
  && (if op.usesB then true else decide (b.toNat ≤ op.maxB) && !x.pb)
  && (op == .vscan || x.vc == 0)
  && (op.usesQ || x.q == 0)
  && (!op.isCompare || (decide (d.toNat < 8) && !x.pd))
  && (op.isCvt || (x.rm == 0 && !x.sat))
  && (!x.pd || decide (d.toNat < 8)) && (!x.pa || decide (a.toNat < 8)) && (!x.pb || decide (b.toNat < 8))

/-- Is the displacement or index part of a long form M instruction well formed for its mode (R248)? -/
def extOk (m : BitVec 2) (x : BitVec 32) : Bool := m != 3 || decide (x.toNat < 64)

/-- The size-type code of an operation that has no choice of it, here with size code `sz` (R248). -/
def SizeType.plain (sz : BitVec 2) : SizeType := ⟨0, false, sz⟩

/-- Is the size-type code one of a load (R248)? -/
def SizeType.loadOk (st : SizeType) : Bool := st.ox == 0 && (!st.sx || st.sz != 3)

/-- Is the form well formed for a load of a scalar (R247, R248)? -/
def scalarLoadOk (d b : Reg) (m : BitVec 2) (f : MForm) : Bool :=
  !((m == 1 || m == 2) && d == b)
  && (match f with
      | .short _ => true
      | .long st x => st.loadOk && extOk m x)

/-- Is the form well formed for an operation whose size-type code is fixed to `sz` (R248, R297, R298)? -/
def fixedOk (sz : BitVec 2) (m : BitVec 2) (f : MForm) : Bool :=
  match f with
  | .short _ => true
  | .long st x => st == SizeType.plain sz && extOk m x

/-- Is the shift immediate within 0 to 63 (R277)? -/
def Imm.shiftOk : Imm → Bool
  | .short v => decide (v.toNat < 64)
  | .long v => decide (v.toNat < 64)

/-- Is the gather or scatter form well formed (R248, R299)? -/
def gatherOk : MForm → Bool
  | .short x => decide (x.toNat < 32)
  | .long st x => st.ox == 0 && !st.sx && (st.sz == 1 || st.sz == 2) && decide (x.toNat < 256)

/-- An even register, as a pair field must hold (R243). -/
def evenReg (r : Reg) : Bool := r.toNat % 2 == 0

/-- Is the number one of the registers of R386? -/
def csrListed (n : BitVec 12) : Bool :=
  decide (n.toNat ≤ 0x20) || (decide (0x100 ≤ n.toNat) && decide (n.toNat ≤ 0x108)) || n == 0x110 || n == 0x111

/-- Is the number one whose write has no behaviour of its own, so that its row is CSRW? -/
def csrwPlain (n : BitVec 12) : Bool :=
  csrListed n && n != 0x110 && n != 0x111 && n != 0x103 && n != 0x106 && n != 0x107

namespace Instr

/-- Well-formedness of an instruction: the conditions of R243 to R273 on its operands. -/
def wf : Instr → Bool
  | .add _ _ _ _ t | .sub _ _ _ _ t | .mul _ _ _ _ t | .mulh _ _ _ _ t | .mulhu _ _ _ _ t
  | .div _ _ _ _ t | .divu _ _ _ _ t | .rem _ _ _ _ t | .remu _ _ _ _ t
  | .shl _ _ _ _ t | .shr _ _ _ _ t | .sar _ _ _ _ t | .rotl _ _ _ _ t
  | .min _ _ _ _ t | .max _ _ _ _ t | .minu _ _ _ _ t | .maxu _ _ _ _ t
  | .seq _ _ _ _ t | .sne _ _ _ _ t | .slt _ _ _ _ t | .sltu _ _ _ _ t
  | .clz _ _ _ t | .ctz _ _ _ t | .popc _ _ _ t => t != 3
  | .shli _ _ _ i | .shri _ _ _ i | .sari _ _ _ i => i.shiftOk
  | .lea _ _ _ m _ => m == 0 || m == 3
  | .leaLong _ _ _ m ty x => (m == 0 || m == 3) && ty == SizeType.plain 3 && extOk m x
  | .fcvt _ _ _ pair _ _ => decide (pair.toNat ≤ 6)
  | .loop _ _ i _ => decide (2 ≤ i.toNat)
  | .loopr _ _ _ i => decide (1 ≤ i.toNat)
  | .loopm _ _ _ i => decide (1 ≤ i.toNat)
  | .ld _ d b m x => scalarLoadOk d b m (.short x)
  | .ldLong _ d b m ty x => scalarLoadOk d b m (.long ty x)
  | .stLong _ _ _ m ty x => ty.ox == 0 && !ty.sx && extOk m x
  | .ldx _ _ _ f => (match f with | .short _ => true | .long ty x => ty.loadOk && extOk 3 x)
  | .stx _ _ _ f => (match f with | .short _ => true | .long ty x => ty.ox == 0 && !ty.sx && extOk 3 x)
  | .lds _ d b m f | .ldAcq _ d b m f => scalarLoadOk d b m f
  | .pref _ _ m f | .feset _ _ m f | .feclr _ _ m f => fixedOk 3 m f
  | .ldf _ d b m f | .ldfe _ d b m f | .feqry _ d b m f => fixedOk 3 m f && !((m == 1 || m == 2) && d == b)
  | .ste _ _ _ m f | .stf _ _ _ m f => fixedOk 3 m f
  | .ldv _ _ _ m f | .stv _ _ _ m f => fixedOk 0 m f
  | .ldvx _ _ _ f | .stvx _ _ _ f => gatherOk f
  | .ldvb _ _ _ m f => (match f with | .short _ => true | .long ty x => ty.ox == 0 && !ty.sx && extOk m x)
  | .stRel _ _ _ m _ _ x => extOk m x
  | .amo _ _ _ _ _ _ rel sc => rel || sc == .ctx
  | .cas _ _ _ _ _ _ rel sc => rel || sc == .ctx
  | .vadd _ d a b _ t => vecWf .vadd d a b t .none
  | .vsub _ d a b _ t => vecWf .vsub d a b t .none
  | .vmul _ d a b _ t => vecWf .vmul d a b t .none
  | .vfma _ d a b _ t => vecWf .vfma d a b t .none
  | .vmin _ d a b _ t => vecWf .vmin d a b t .none
  | .vmax _ d a b _ t => vecWf .vmax d a b t .none
  | .vabs _ d a _ t => vecWf .vabs d a 0 t .none
  | .vneg _ d a _ t => vecWf .vneg d a 0 t .none
  | .vand _ d a b _ t => vecWf .vand d a b t .none
  | .vor _ d a b _ t => vecWf .vor d a b t .none
  | .vxor _ d a b _ t => vecWf .vxor d a b t .none
  | .vshl _ d a b _ t => vecWf .vshl d a b t .none
  | .vshr _ d a b _ t => vecWf .vshr d a b t .none
  | .vsar _ d a b _ t => vecWf .vsar d a b t .none
  | .vcmpeq _ d a b _ t => vecWf .vcmpeq (d.setWidth 5) a b t .none
  | .vcmplt _ d a b _ t => vecWf .vcmplt (d.setWidth 5) a b t .none
  | .vcmple _ d a b _ t => vecWf .vcmple (d.setWidth 5) a b t .none
  | .vsel _ d a b _ t => vecWf .vsel d a b t .none
  | .vmov _ d a _ t => vecWf .vmov d a 0 t .none
  | .vperm _ d a b _ t => vecWf .vperm d a b t .none
  | .vslide _ d a b _ t => vecWf .vslide d a b t .none
  | .vredadd _ d a _ t => vecWf .vredadd d a 0 t .none
  | .vredmax _ d a _ t => vecWf .vredmax d a 0 t .none
  | .vredmin _ d a _ t => vecWf .vredmin d a 0 t .none
  | .vscan _ d a b _ t => vecWf .vscan d a b t .none
  | .vcnt _ d _ t => vecWf .vcnt d 0 0 t .none
  | .vcmpr _ d a _ t => vecWf .vcmpr d a 0 t .none
  | .vidx _ d _ t => vecWf .vidx d 0 0 t .none
  | .vkey _ d a _ t => vecWf .vkey d a 0 t .none
  | .vhist _ d a _ t => vecWf .vhist d a 0 t .none
  | .vsumgt _ d a _ t => vecWf .vsumgt d a 0 t .none
  | .vectorLong _ op d a b _ t x => vecWf op d a b t x
  | .vcvtB16F32 _ d a p _ => vecWf .cvtB16F32 d a p 0 .none
  | .vcvtF16F32 _ d a p _ => vecWf .cvtF16F32 d a p 0 .none
  | .vcvtF32B16 _ d a p _ => vecWf .cvtF32B16 d a p 0 .none
  | .vcvtF32F16 _ d a p _ => vecWf .cvtF32F16 d a p 0 .none
  | .vcvtE4F32 _ d a p _ => vecWf .cvtE4F32 d a p 0 .none
  | .vcvtE5F32 _ d a p _ => vecWf .cvtE5F32 d a p 0 .none
  | .vcvtF32E4 _ d a p _ => vecWf .cvtF32E4 d a p 0 .none
  | .vcvtF32E5 _ d a p _ => vecWf .cvtF32E5 d a p 0 .none
  | .vcvtM8F32 _ d a p _ => vecWf .cvtM8F32 d a p 0 .none
  | .vcvtF32M8 _ d a p _ => vecWf .cvtF32M8 d a p 0 .none
  | .vcvtF4F32 _ d a p _ => vecWf .cvtF4F32 d a p 0 .none
  | .vcvtF32F4 _ d a p _ => vecWf .cvtF32F4 d a p 0 .none
  | .vcvtF32S32 _ d a p _ => vecWf .cvtF32S32 d a p 0 .none
  | .vcvtS32F32 _ d a p _ => vecWf .cvtS32F32 d a p 0 .none
  | .vtli _ d a f _ => vecWf .vtli d a f 0 .none
  | .mmaBB _ a b q _ _ _ _ te => evenReg a && evenReg b && q == 0 && !te
  | .mmaMM _ a b q _ _ _ _ te => evenReg a && evenReg b && q == 0 && !te
  | .mmaEE _ a b _ _ _ _ _ _ | .mmaEF _ a b _ _ _ _ _ _ => evenReg a && evenReg b
  | .mmaBF _ a b _ _ _ _ _ te | .mmaFF _ a b _ _ _ _ _ te => evenReg a && evenReg b && !te
  | .mout _ d _ _ ot _ _ _ => evenReg d && decide (ot.toNat ≤ 5)
  | .skset _ base len => decide (base.toNat + len.toNat ≤ 512)
  | .push _ _ dir _ => decide (dir.toNat ≤ 5)
  | .pushv _ _ dir _ => decide (dir.toNat ≤ 5)
  | .pop _ _ dir _ => decide (dir.toNat ≤ 5)
  | .popv _ _ dir _ => decide (dir.toNat ≤ 5)
  | .peek _ _ dir _ => decide (dir.toNat ≤ 5)
  | .ssplit _ d _ _ | .sloc _ d _ _ | .sstep _ d _ _ => evenReg d
  | .scommit _ d _ _ _ => evenReg d
  | .ssum _ d _ _ _ _ => decide (d.toNat ≤ 27)
  | .csrr _ _ csr => csrListed csr
  | .csrw _ _ csr => csrwPlain csr
  | _ => true

/-- Is the step one that no instruction word encodes: an event of the part? -/
def isEvent : Instr → Bool
  -- Strands and views
  | .strandFree .. | .churnRefresh .. | .pendTake .. | .churnServe .. => true
  -- Engines and the pool
  | .copyStart .. | .copyComplete .. | .promiseMiss .. | .sleepuWake .. | .poolTimeout .. | .poolLineAccept ..
    | .ownershipMove .. => true
  -- A core's results, turns and fetched words
  | .resultLand .. | .spentTurn .. | .illegalInstruction .. => true
  -- Translation
  | .missRepresent .. | .walkComplete .. | .shootdownEcho .. => true
  -- Banks
  | .sliceRequest .. | .bufferRequest .. | .syncRequest .. | .syncRepresent .. | .probeEcho .. | .reservationExpiry .. => true
  -- Waits that end
  | .syncTimeout .. | .waitmDeadline .. | .portTimeout .. | .barTimeout .. | .gangTimeout .. | .viewWaitTimeout ..
    | .sigwaitTimeout .. => true
  -- The matrix units
  | .matrixQueueRun .. | .mmaStepStart .. | .mmaStepEnd .. | .freeze .. | .gangStepTimeout .. | .mzeroDone ..
    | .moutDone .. => true
  -- Sequencers, halts and replies
  | .sequencerChoose .. | .agePromotion .. | .iterationEnd .. | .haltComplete .. | .replyArrival .. => true
  -- Memory errors
  | .scrub .. | .sliceFailure .. => true
  -- The host
  | .hostWindowRead .. | .hostWindowWrite .. | .wbaseWrite .. | .hvClear .. | .doorbell .. | .dblostClear ..
    | .pfDoorbell .. | .vfBind .. | .numvfsWrite .. => true
  -- The mailbox
  | .fwload .. | .quote .. | .ownmove .. | .logread .. | .mailboxUnknown .. | .mailboxAnswer .. | .doneClear .. => true
  -- Power and links
  | .plimWrite .. | .plimEffect .. | .korxoFrame .. | .linkRetry .. | .linkError .. | .linkRetire .. | .linkTrained .. => true
  -- Start-up
  | .powerOn .. | .imageJudge .. | .memoryInit .. | .diePowerUp .. | .rowRelease .. | .bootProgramStart ..
    | .diesIntoService .. => true
  | _ => false

end Instr

end Sys2Proof
end

