-- ==== Sys2Proof/Decode.lean ====
section
/-!
DEFINITION. Decoding and encoding of instruction words (R240 to R273).

An instruction is a first word `w` and, when X = 1, an extension word `e`, both natural numbers below 2^32. Fields are
pulled out by division, so that their round trips are plain arithmetic. The decoder is total: every pair of words gives
an instruction or the row of R271 that makes it ILL. The encoder below it is written from the same tables.
-/

namespace Sys2Proof

/-- The rows of R271 that reject a word at decode, features apart. -/
inductive DecodeError where
  /-- OP 0xFF or a cell marked — in R269. -/
  | unassigned
  /-- A sub value not listed in R270. -/
  | subOpcode
  /-- X = 1 on a short-only instruction, or X = 0 on a long-only one. -/
  | form
  /-- A nonzero reserved or unused field or bit, or a register field above its kind. -/
  | reserved
  /-- An unused code of scope, AMO op, direction, BAR kind, m or mode. -/
  | code
  /-- A field value the instruction's entry rejects (`Instr.wf`). -/
  | operand
  /-- The bytes end before the instruction does; no row of R271, raised on short lists of bytes only. -/
  | truncated
  deriving DecidableEq, Repr

/-- What decoding answers. -/
abbrev Decoded := Except DecodeError Instr

/-- Bits [lo + len − 1 : lo] of a word. -/
def fld (w lo len : Nat) : BitVec len := BitVec.ofNat len (w / 2 ^ lo)

/-- One bit of a word. -/
def bitAt (w lo : Nat) : Bool := w / 2 ^ lo % 2 == 1

/-- Are bits [lo + len − 1 : lo] all zero? -/
def zeroAt (w lo len : Nat) : Bool := w / 2 ^ lo % 2 ^ len == 0

/-- The extension flag X (R240). -/
def xBit (w : Nat) : Bool := bitAt w 31

/-- The major opcode OP (R240). -/
def opField (w : Nat) : Nat := w / 2 ^ 20 % 256

/-- The stall count S (R242). -/
def fS (w : Nat) : Stall := fld w 28 3

/-- Field d of formats A, I, M, and sub of format Y (R244). -/
def fD (w : Nat) : Reg := fld w 14 6

/-- Field a of formats A and I, base of M, d of Y. -/
def fA (w : Nat) : Reg := fld w 8 6

/-- Field b of format A, a of Y. -/
def fB (w : Nat) : Reg := fld w 2 6

/-- Field t of formats A and V, m of Y. -/
def fT (w : Nat) : BitVec 2 := fld w 0 2

/-- Go on with `k` when the condition holds. -/
def need (c : Bool) (e : DecodeError) (k : Decoded) : Decoded := if c then k else .error e

/-- A short-only instruction (R269). -/
def shortOnly (w : Nat) (k : Decoded) : Decoded := need (!xBit w) .form k

/-- A long-only instruction (R269). -/
def longOnly (w : Nat) (k : Decoded) : Decoded := need (xBit w) .form k

/-- Format A with all of d, a, b and t (R244). -/
def decA (w : Nat) (k : Stall → Reg → Reg → Reg → BitVec 2 → Instr) : Decoded :=
  shortOnly w (.ok (k (fS w) (fD w) (fA w) (fB w) (fT w)))

/-- Format A with d, a and b, t zero (R244). -/
def decDAB (w : Nat) (k : Stall → Reg → Reg → Reg → Instr) : Decoded :=
  shortOnly w (need (zeroAt w 0 2) .reserved (.ok (k (fS w) (fD w) (fA w) (fB w))))

/-- Format A with d, a and t, b zero. -/
def decDAT (w : Nat) (k : Stall → Reg → Reg → BitVec 2 → Instr) : Decoded :=
  shortOnly w (need (zeroAt w 2 6) .reserved (.ok (k (fS w) (fD w) (fA w) (fT w))))

/-- Format A with d and a only. -/
def decDA (w : Nat) (k : Stall → Reg → Reg → Instr) : Decoded :=
  shortOnly w (need (zeroAt w 0 8) .reserved (.ok (k (fS w) (fD w) (fA w))))

/-- Format A with a and b only. -/
def decAB (w : Nat) (k : Stall → Reg → Reg → Instr) : Decoded :=
  shortOnly w (need (zeroAt w 14 6 && zeroAt w 0 2) .reserved (.ok (k (fS w) (fA w) (fB w))))

/-- Format A with a only. -/
def decA1 (w : Nat) (k : Stall → Reg → Instr) : Decoded :=
  shortOnly w (need (zeroAt w 14 6 && zeroAt w 0 8) .reserved (.ok (k (fS w) (fA w))))

/-- Format A with no operand. -/
def decNone (w : Nat) (k : Stall → Instr) : Decoded :=
  shortOnly w (need (zeroAt w 0 20) .reserved (.ok (k (fS w))))

/-- The immediate of format I (R245). -/
def fImm (w e : Nat) : Imm := if xBit w then .long (fld e 0 32) else .short (fld w 0 8)

/-- Format I in either form (R245): imm8 is zero in the long form. -/
def decI (w e : Nat) (k : Stall → Reg → Reg → Imm → Instr) : Decoded :=
  need (!xBit w || zeroAt w 0 8) .reserved (.ok (k (fS w) (fD w) (fA w) (fImm w e)))

/-- Format I, long only (R245). -/
def decIL (w e : Nat) (k : Stall → Reg → Reg → BitVec 32 → Decoded) : Decoded :=
  longOnly w (need (zeroAt w 0 8) .reserved (k (fS w) (fD w) (fA w) (fld e 0 32)))

/-- A compare-branch of format B (R246). -/
def decB (w e : Nat) (op : BranchOp) (k : Stall → Reg → Reg → BitVec 8 → Instr) : Decoded :=
  if xBit w then need (zeroAt w 0 8) .reserved (.ok (.branchLong (fS w) op (fD w) (fA w) (fld e 0 32)))
  else .ok (k (fS w) (fD w) (fA w) (fld w 0 8))

/-- The displacement of format B (R246). -/
def fDisp (w e : Nat) : Disp := if xBit w then .long (fld e 0 32) else .short (fld w 0 8)

/-- The size-type code of a long format M (R248). -/
def fSizeType (w : Nat) : SizeType := ⟨fld w 3 3, bitAt w 2, fld w 0 2⟩

/-- The mode of format M (R247). -/
def fMode (w : Nat) : BitVec 2 := fld w 6 2

/-- The rest of format M (R247, R248). -/
def fM (w e : Nat) : MForm := if xBit w then .long (fSizeType w) (fld e 0 32) else .short (fld w 0 6)

/-- Format M with a scalar d (R247). -/
def decM (w e : Nat) (k : Stall → Reg → Reg → BitVec 2 → MForm → Instr) : Decoded :=
  .ok (k (fS w) (fD w) (fA w) (fMode w) (fM w e))

/-- Format M with mode 0b11 only (R248). -/
def decMX (w e : Nat) (k : Stall → Reg → Reg → MForm → Instr) : Decoded :=
  need (fMode w == 3) .code (.ok (k (fS w) (fD w) (fA w) (fM w e)))

/-- Format M with d zero (R248). -/
def decM0 (w e : Nat) (k : Stall → Reg → BitVec 2 → MForm → Instr) : Decoded :=
  need (zeroAt w 14 6) .reserved (.ok (k (fS w) (fA w) (fMode w) (fM w e)))

/-- Format M with a vector d (R248). -/
def decMV (w e : Nat) (k : Stall → VReg → Reg → BitVec 2 → MForm → Instr) : Decoded :=
  need (zeroAt w 19 1) .reserved (.ok (k (fS w) (fld w 14 5) (fA w) (fMode w) (fM w e)))

/-- A gather or scatter: format M, a vector d and mode 0b11 (R248). -/
def decMVX (w e : Nat) (k : Stall → VReg → Reg → MForm → Instr) : Decoded :=
  need (zeroAt w 19 1) .reserved (need (fMode w == 3) .code (.ok (k (fS w) (fld w 14 5) (fA w) (fM w e))))

/-- LD, ST and LEA, whose two forms are two constructors (R247, R248). -/
def decM2 (w e : Nat) (short : Stall → Reg → Reg → BitVec 2 → BitVec 6 → Instr)
    (long : Stall → Reg → Reg → BitVec 2 → SizeType → BitVec 32 → Instr) : Decoded :=
  if xBit w then .ok (long (fS w) (fD w) (fA w) (fMode w) (fSizeType w) (fld e 0 32))
  else .ok (short (fS w) (fD w) (fA w) (fMode w) (fld w 0 6))

/-- The scope with a code (R256). -/
def Scope.ofCode (n : Nat) : Option Scope :=
  match n with
  | 0 => some .ctx | 1 => some .core | 2 => some .clu | 3 => some .die | 4 => some .dev | 5 => some .pool | _ => none

/-- The code of a scope (R256). -/
def Scope.code : Scope → Nat
  | .ctx => 0 | .core => 1 | .clu => 2 | .die => 3 | .dev => 4 | .pool => 5

/-- Go on with the scope a code names (R256). -/
def withScope (n : Nat) (k : Scope → Decoded) : Decoded :=
  match Scope.ofCode n with
  | some s => k s
  | none => .error .code

/-- The AMO operation with a code (R265). -/
def AmoOp.ofCode (n : Nat) : Option AmoOp :=
  match n with
  | 0 => some .add | 1 => some .and | 2 => some .or | 3 => some .xor | 4 => some .min | 5 => some .max
  | 6 => some .minu | 7 => some .maxu | 8 => some .swap | _ => none

/-- The code of an AMO operation (R265). -/
def AmoOp.code : AmoOp → Nat
  | .add => 0 | .and => 1 | .or => 2 | .xor => 3 | .min => 4 | .max => 5 | .minu => 6 | .maxu => 7 | .swap => 8

/-- The extension of format V (R250). -/
def fVExt (e : Nat) : VExt :=
  ⟨fld e 27 5, fld e 21 6, bitAt e 20, bitAt e 19, bitAt e 18, fld e 16 2, bitAt e 15, fld e 13 2⟩

/-- The long form of format V (R250). -/
def decVL (w e : Nat) (op : VecOp) : Decoded :=
  need (zeroAt e 0 13) .reserved
    (.ok (.vectorLong (fS w) op (fld w 15 5) (fld w 10 5) (fld w 5 5) (fld w 2 3) (fT w) (fVExt e)))

/-- Format V with vd, va and vb (R249). -/
def decV (w e : Nat) (op : VecOp) (k : Stall → VReg → VReg → VReg → KReg → BitVec 2 → Instr) : Decoded :=
  if xBit w then decVL w e op
  else .ok (k (fS w) (fld w 15 5) (fld w 10 5) (fld w 5 5) (fld w 2 3) (fT w))

/-- Format V with vd and va, vb zero. -/
def decV1 (w e : Nat) (op : VecOp) (k : Stall → VReg → VReg → KReg → BitVec 2 → Instr) : Decoded :=
  if xBit w then decVL w e op
  else need (zeroAt w 5 5) .reserved (.ok (k (fS w) (fld w 15 5) (fld w 10 5) (fld w 2 3) (fT w)))

/-- Format V with vd only. -/
def decV0 (w e : Nat) (op : VecOp) (k : Stall → VReg → KReg → BitVec 2 → Instr) : Decoded :=
  if xBit w then decVL w e op
  else need (zeroAt w 5 10) .reserved (.ok (k (fS w) (fld w 15 5) (fld w 2 3) (fT w)))

/-- Format V with a mask destination (R249). -/
def decVK (w e : Nat) (op : VecOp) (k : Stall → KReg → VReg → VReg → KReg → BitVec 2 → Instr) : Decoded :=
  if xBit w then decVL w e op
  else need (zeroAt w 18 2) .reserved
    (.ok (k (fS w) (fld w 15 3) (fld w 10 5) (fld w 5 5) (fld w 2 3) (fT w)))

/-- A vector conversion, or VTLI, whose vb holds a part or a form and whose t is zero (R249, R321, R327). -/
def decVC (w e : Nat) (op : VecOp) (k : Stall → VReg → VReg → BitVec 5 → KReg → Instr) : Decoded :=
  if xBit w then decVL w e op
  else need (zeroAt w 0 2) .reserved (.ok (k (fS w) (fld w 15 5) (fld w 10 5) (fld w 5 5) (fld w 2 3)))

/-- A special function, whose vb and t are zero (R249). -/
def decVS (w e : Nat) (op : VecOp) (k : Stall → VReg → VReg → KReg → Instr) : Decoded :=
  if xBit w then decVL w e op
  else need (zeroAt w 0 2 && zeroAt w 5 5) .reserved (.ok (k (fS w) (fld w 15 5) (fld w 10 5) (fld w 2 3)))

/-- An MMA: format G with d zero and IA, IB, SK, TE (R252, R346). -/
def decMma (w e : Nat) (k : Stall → Reg → Reg → Reg → Bool → Bool → Bool → Bool → Bool → Instr) : Decoded :=
  longOnly w (need (zeroAt w 14 6 && zeroAt w 0 2 && zeroAt e 4 21) .reserved
    (.ok (k (fS w) (fA w) (fB w) (fld e 26 6) (bitAt e 25) (bitAt e 0) (bitAt e 1) (bitAt e 2) (bitAt e 3))))

/-- The port directions are judged by `Instr.wf`; their field must fit three bits (R268). -/
def decPort (w : Nat) (k : BitVec 3 → Decoded) : Decoded :=
  shortOnly w (need (zeroAt w 11 3) .code (k (fld w 8 3)))

/-- Format Y, short, with d and a (R253). -/
def decYS (w : Nat) (k : Stall → Reg → Reg → Instr) : Decoded :=
  shortOnly w (need (zeroAt w 0 2) .reserved (.ok (k (fS w) (fA w) (fB w))))

/-- Format Y, short, with a only (R253). -/
def decYSa (w : Nat) (k : Stall → Reg → Instr) : Decoded :=
  shortOnly w (need (zeroAt w 8 6 && zeroAt w 0 2) .reserved (.ok (k (fS w) (fB w))))

/-- Format Y, long, with d, a and b (R253). -/
def decYL2 (w e : Nat) (k : Stall → Reg → Reg → Reg → Instr) : Decoded :=
  longOnly w (need (zeroAt w 0 2 && zeroAt e 0 26) .reserved (.ok (k (fS w) (fA w) (fB w) (fld e 26 6))))

/-- Format Y, long, with d, a, b and c (R253). -/
def decYL3 (w e : Nat) (k : Stall → Reg → Reg → Reg → Reg → Instr) : Decoded :=
  longOnly w (need (zeroAt w 0 2 && zeroAt e 0 20) .reserved
    (.ok (k (fS w) (fA w) (fB w) (fld e 26 6) (fld e 20 6))))

/-- OP 0x00 to 0x0F (R269). -/
def decodeOp0 (w e : Nat) : Decoded :=
  match opField w % 16 with
  | 1 => decA w .add
  | 2 => decA w .sub
  | 3 => if xBit w then decIL w e fun s d a i => .ok (.addiLong s d a i)
         else .ok (.addi (fS w) (fD w) (fA w) (fld w 0 8))
  | 4 => decA w .mul
  | 5 => decA w .mulh
  | 6 => decA w .mulhu
  | 7 => decA w .div
  | 8 => decA w .divu
  | 9 => decA w .rem
  | 10 => decA w .remu
  | 11 => decDAB w .and
  | 12 => decDAB w .or
  | 13 => decDAB w .xor
  | 14 => decDAB w .andn
  | 15 => decI w e .andi
  | _ => .error .unassigned

/-- OP 0x10 to 0x1F (R269). -/
def decodeOp1 (w e : Nat) : Decoded :=
  match opField w % 16 with
  | 0 => decI w e .ori
  | 1 => decI w e .xori
  | 2 => decA w .shl
  | 3 => decA w .shr
  | 4 => decA w .sar
  | 5 => decI w e .shli
  | 6 => decI w e .shri
  | 7 => decI w e .sari
  | 8 => decA w .rotl
  | 9 => decA w .min
  | 10 => decA w .max
  | 11 => decA w .minu
  | 12 => decA w .maxu
  | 13 => decA w .seq
  | 14 => decA w .sne
  | _ => decA w .slt

/-- OP 0x20 to 0x2F (R269). -/
def decodeOp2 (w e : Nat) : Decoded :=
  match opField w % 16 with
  | 0 => decA w .sltu
  | 1 => decI w e .slti
  | 2 => decDAT w .clz
  | 3 => decDAT w .ctz
  | 4 => decDAT w .popc
  | 5 => decDAB w .bext
  | 6 => decDAB w .bins
  | 7 => decDAB w .sel
  | 8 => decIL w e fun s d a i => need (a == 0) .reserved (.ok (.movi s d i))
  | 9 => decM2 w e .lea .leaLong
  | 10 => decIL w e fun s d a _ => .ok (.leam s d a (fld e 15 17) (fld e 0 15))
  | 11 => decDAB w .clmul
  | 12 => decDAB w .clmulh
  | _ => .error .unassigned

/-- OP 0x40 to 0x4F (R269). -/
def decodeOp4 (w : Nat) : Decoded :=
  match opField w % 16 with
  | 0 => decDAB w .fadd
  | 1 => decDAB w .fsub
  | 2 => decDAB w .fmul
  | 3 => decDAB w .fma
  | 4 => decDAB w .fmin
  | 5 => decDAB w .fmax
  | 6 => decDAB w .feq
  | 7 => decDAB w .flt
  | 8 => decDAB w .fle
  | 9 => decDA w .fcls
  | 10 => shortOnly w (need (zeroAt w 2 1) .reserved
      (.ok (.fcvt (fS w) (fD w) (fA w) (fld w 4 4) (bitAt w 3) (fld w 0 2))))
  | _ => .error .unassigned

/-- OP 0x50 to 0x5F (R269, R246, R254, R264). -/
def decodeOp5 (w e : Nat) : Decoded :=
  match opField w % 16 with
  | 0 => decB w e .beq .beq
  | 1 => decB w e .bne .bne
  | 2 => decB w e .blt .blt
  | 3 => decB w e .bge .bge
  | 4 => decB w e .blo .blo
  | 5 => decB w e .bhs .bhs
  | 6 => need (zeroAt w 8 12 && (!xBit w || zeroAt w 0 8)) .reserved (.ok (.jmp (fS w) (fDisp w e)))
  | 7 => need (zeroAt w 8 6 && (!xBit w || zeroAt w 0 8)) .reserved (.ok (.jal (fS w) (fD w) (fDisp w e)))
  | 8 => decI w e .jalr
  | 9 => longOnly w (need (zeroAt w 16 4 && zeroAt w 8 6) .reserved
      (.ok (.loop (fS w) (fld w 14 2) (fld w 0 8) (fld e 0 32))))
  | 10 => shortOnly w (need (zeroAt w 16 4) .reserved (.ok (.loopr (fS w) (fld w 14 2) (fA w) (fld w 0 8))))
  | 11 => shortOnly w (need (zeroAt w 16 4 && zeroAt w 11 3) .reserved
      (.ok (.loopm (fS w) (fld w 14 2) (fld w 8 3) (fld w 0 8))))
  | 12 => longOnly w (need (zeroAt w 0 4 && zeroAt e 0 16) .reserved
      (.ok (.rpt (fS w) (fld w 16 4) (fld w 4 12) (fld e 28 4) (fld e 24 4) (fld e 20 4) (fld e 16 4))))
  | 13 => decA1 w .exit
  | 14 => decNone w .nop
  | _ => decNone w .yield

/-- OP 0x60 to 0x6F (R269). -/
def decodeOp6 (w e : Nat) : Decoded :=
  match opField w % 16 with
  | 0 => decM2 w e .ld .ldLong
  | 1 => decM2 w e .st .stLong
  | 2 => decMX w e .ldx
  | 3 => decMX w e .stx
  | 4 => decM w e .lds
  | 5 => decM0 w e .pref
  | 6 => decM w e .ldf
  | 7 => decM w e .ldfe
  | 8 => decM w e .ste
  | 9 => decM w e .stf
  | 10 => decM0 w e .feset
  | 11 => decM0 w e .feclr
  | 12 => decM w e .feqry
  | 13 => decMV w e .ldv
  | 14 => decMV w e .stv
  | _ => decMVX w e .ldvx

/-- OP 0x70 to 0x7F (R269, R265, R267). -/
def decodeOp7 (w e : Nat) : Decoded :=
  match opField w % 16 with
  | 0 => decMVX w e .stvx
  | 1 => decMV w e .ldvb
  | 2 => decM w e .ldAcq
  | 3 => longOnly w (need (zeroAt w 2 1) .reserved (withScope (w / 8 % 8) fun sc =>
      .ok (.stRel (fS w) (fD w) (fA w) (fMode w) sc (fld w 0 2) (fld e 0 32))))
  | 8 => longOnly w (need (zeroAt w 0 2 && zeroAt e 0 23) .reserved (withScope (e / 2 ^ 23 % 8) fun sc =>
      match AmoOp.ofCode (e / 2 ^ 28 % 16) with
      | some op => .ok (.amo (fS w) op (fD w) (fA w) (fB w) (bitAt e 27) (bitAt e 26) sc)
      | none => .error .code))
  | 9 => longOnly w (need (zeroAt w 0 2 && zeroAt e 0 21) .reserved (withScope (e / 2 ^ 21 % 8) fun sc =>
      .ok (.cas (fS w) (fD w) (fA w) (fB w) (fld e 26 6) (bitAt e 25) (bitAt e 24) sc)))
  | 10 => decDA w .rsv
  | 11 => decDAB w .rwb
  | 12 => decDA w .rlsn
  | 13 => decAB w .redF32
  | 14 => shortOnly w (need (zeroAt w 4 16) .reserved (withScope (w % 8) fun sc =>
      .ok (if bitAt w 3 then .fenceE (fS w) sc else .fence (fS w) sc)))
  | 15 => shortOnly w (need (zeroAt w 16 4 && zeroAt w 0 8) .reserved (.ok (.mon (fS w) (fld w 14 2) (fA w))))
  | _ => .error .unassigned

/-- OP 0x80 to 0x8F (R269). -/
def decodeOp8 (w e : Nat) : Decoded :=
  match opField w % 16 with
  | 0 => shortOnly w (need (zeroAt w 16 4 && zeroAt w 0 14) .reserved (.ok (.moff (fS w) (fld w 14 2))))
  | 1 => decDA w .waitm
  | 2 => shortOnly w (need (zeroAt w 2 18) .reserved (match w % 4 with
      | 0 => .ok (.barClu (fS w))
      | 1 => .ok (.barGang (fS w))
      | _ => .error .code))
  | 3 => decAB w .sigdec
  | 4 => decDAB w .sigwait
  | 8 => decV w e .vadd .vadd
  | 9 => decV w e .vsub .vsub
  | 10 => decV w e .vmul .vmul
  | 11 => decV w e .vfma .vfma
  | 12 => decV w e .vmin .vmin
  | 13 => decV w e .vmax .vmax
  | 14 => decV1 w e .vabs .vabs
  | 15 => decV1 w e .vneg .vneg
  | _ => .error .unassigned

/-- OP 0x90 to 0x9F (R269). -/
def decodeOp9 (w e : Nat) : Decoded :=
  match opField w % 16 with
  | 0 => decV w e .vand .vand
  | 1 => decV w e .vor .vor
  | 2 => decV w e .vxor .vxor
  | 3 => decV w e .vshl .vshl
  | 4 => decV w e .vshr .vshr
  | 5 => decV w e .vsar .vsar
  | 6 => decVK w e .vcmpeq .vcmpeq
  | 7 => decVK w e .vcmplt .vcmplt
  | 8 => decVK w e .vcmple .vcmple
  | 9 => decV w e .vsel .vsel
  | 10 => decV1 w e .vmov .vmov
  | 11 => decV w e .vperm .vperm
  | 12 => decV w e .vslide .vslide
  | 13 => decV1 w e .vredadd .vredadd
  | 14 => decV1 w e .vredmax .vredmax
  | _ => decV1 w e .vredmin .vredmin

/-- OP 0xA0 to 0xAF (R269). -/
def decodeOpA (w e : Nat) : Decoded :=
  match opField w % 16 with
  | 0 => decV w e .vscan .vscan
  | 1 => decV0 w e .vcnt .vcnt
  | 2 => decV1 w e .vcmpr .vcmpr
  | 3 => decV0 w e .vidx .vidx
  | 4 => decV1 w e .vkey .vkey
  | 5 => decV1 w e .vhist .vhist
  | 6 => decV1 w e .vsumgt .vsumgt
  | 7 => decDA w .setvl
  | _ => .error .unassigned

/-- OP 0xC0 to 0xCF (R269). -/
def decodeOpC (w e : Nat) : Decoded :=
  match opField w % 16 with
  | 8 => decVC w e .cvtB16F32 .vcvtB16F32
  | 9 => decVC w e .cvtF16F32 .vcvtF16F32
  | 10 => decVC w e .cvtF32B16 .vcvtF32B16
  | 11 => decVC w e .cvtF32F16 .vcvtF32F16
  | 12 => decVC w e .cvtE4F32 .vcvtE4F32
  | 13 => decVC w e .cvtE5F32 .vcvtE5F32
  | 14 => decVC w e .cvtF32E4 .vcvtF32E4
  | 15 => decVC w e .cvtF32E5 .vcvtF32E5
  | _ => .error .unassigned

/-- OP 0xD0 to 0xDF (R269). -/
def decodeOpD (w e : Nat) : Decoded :=
  match opField w % 16 with
  | 0 => decVC w e .cvtM8F32 .vcvtM8F32
  | 1 => decVC w e .cvtF32M8 .vcvtF32M8
  | 2 => decVC w e .cvtF4F32 .vcvtF4F32
  | 3 => decVC w e .cvtF32F4 .vcvtF32F4
  | 4 => decVC w e .cvtF32S32 .vcvtF32S32
  | 5 => decVC w e .cvtS32F32 .vcvtS32F32
  | 8 => decVS w e .vexp .vexp
  | 9 => decVS w e .vlog2 .vlog2
  | 10 => decVS w e .vrcp .vrcp
  | 11 => decVS w e .vrsq .vrsq
  | 12 => decVC w e .vtli .vtli
  | 13 => decA1 w .tblset
  | _ => .error .unassigned

/-- OP 0xE0 to 0xEF (R269, R252, R268, R342 to R346). -/
def decodeOpE (w e : Nat) : Decoded :=
  match opField w % 16 with
  | 0 => decMma w e .mmaBB
  | 1 => decMma w e .mmaEE
  | 2 => decMma w e .mmaEF
  | 3 => decMma w e .mmaMM
  | 4 => decMma w e .mmaBF
  | 5 => decMma w e .mmaFF
  | 6 => longOnly w (need (zeroAt w 0 20 && zeroAt e 26 6 && zeroAt e 0 25) .reserved
      (.ok (.mzero (fS w) (bitAt e 25))))
  | 7 => longOnly w (need (zeroAt w 0 14 && zeroAt e 7 18) .reserved
      (.ok (.mout (fS w) (fD w) (fld e 26 6) (bitAt e 25) (fld e 0 3) (fld e 3 2) (bitAt e 5) (bitAt e 6))))
  | 8 => longOnly w (need (zeroAt w 0 20 && zeroAt e 0 32) .reserved (.ok (.gang (fS w))))
  | 9 => longOnly w (need (zeroAt w 0 20 && zeroAt e 19 13) .reserved (.ok (.skset (fS w) (fld e 0 9) (fld e 9 10))))
  | 10 => decPort w fun r => need (zeroAt w 1 7) .reserved (.ok (.push (fS w) (fD w) r (bitAt w 0)))
  | 11 => decPort w fun r => need (zeroAt w 1 7 && zeroAt w 19 1) .reserved
      (.ok (.pushv (fS w) (fld w 14 5) r (bitAt w 0)))
  | 12 => decPort w fun r => need (zeroAt w 0 2) .reserved (.ok (.pop (fS w) (fD w) r (fB w)))
  | 13 => decPort w fun r => need (zeroAt w 0 2 && zeroAt w 19 1) .reserved
      (.ok (.popv (fS w) (fld w 14 5) r (fB w)))
  | 14 => decPort w fun r => need (zeroAt w 0 2) .reserved (.ok (.peek (fS w) (fD w) r (fB w)))
  | _ => decDA w .pcfg

/-- The sub-opcodes of OP 0xF9 to 0xFB (R270): KVPG, VIEW, ENG. -/
def decodeSubMem (w e : Nat) : Decoded :=
  match opField w % 16, (fD w).toNat with
  | 9, 0 => decYS w .kvpgAlloc
  | 9, 1 => decYL2 w e .kvpgFree
  | 9, 2 => decYL2 w e .kvpgSlot
  | 10, 0 => shortOnly w (match w % 4 with
      | 0 => .ok (.viewRegMst (fS w) (fA w) (fB w))
      | 1 => .ok (.viewRegDrv (fS w) (fA w) (fB w))
      | _ => .error .code)
  | 10, 1 => decYS w .viewDrop
  | 10, 2 => decYL3 w e .viewLd
  | 10, 3 => decYL2 w e .viewWait
  | 11, 0 => decYL3 w e .engCpy
  | 11, 1 => decYL3 w e .engPoolrd
  | 11, 2 => decYL3 w e .engPoolwr
  | 11, 3 => decYSa w .engSleepu
  | _, _ => .error .subOpcode

/-- CSRW, one row of the opcode table for each behaviour a register number has (R386 to R388, R103, R272). -/
def decCsrw (s : Stall) (a : Reg) (n : BitVec 12) : Decoded :=
  if n == 0x110 then .ok (.arenaInit s a)
  else if n == 0x111 then .ok (.redrgnWrite s a)
  else if n == 0x103 then .ok (.xsplitWrite s a)
  else if n == 0x106 then .ok (.featWrite s a false)
  else if n == 0x107 then .ok (.featWrite s a true)
  else .ok (.csrw s a n)

/-- The sub-opcodes of OP 0xFC and 0xFD (R270): helpers, CTX. -/
def decodeSubCtx (w e : Nat) : Decoded :=
  match opField w % 16, (fD w).toNat with
  | 12, 0 => decYL3 w e .start
  | 12, 1 => decYS w .join
  | 12, 2 => decYS w .launch
  | 13, 0 => decYS w .ctxNew
  | 13, 1 => decYL2 w e .ctxGive
  | 13, 2 => decYL2 w e .ctxRevoke
  | 13, 3 => decYS w .ctxRun
  | 13, 4 => decYS w .ctxStop
  | 13, 5 => decYL2 w e .ctxSave
  | 13, 6 => decYL2 w e .ctxLoad
  | 13, 7 => decYL3 w e .ctxDirty
  | 13, 8 => longOnly w (need (zeroAt w 1 1 && zeroAt e 0 26) .reserved
      (.ok (if bitAt w 0 then .ctxS2mapBead (fS w) (fA w) (fB w) (fld e 26 6)
        else .ctxS2map (fS w) (fA w) (fB w) (fld e 26 6))))
  | _, _ => .error .subOpcode

/-- The sub-opcodes of OP 0xFE (R270): SYS. -/
def decodeSubSys (w e : Nat) : Decoded :=
  match (fD w).toNat with
  | 0 => longOnly w (need (zeroAt w 0 8 && zeroAt e 12 20) .reserved (.ok (.csrr (fS w) (fA w) (fld e 0 12))))
  | 1 => longOnly w (need (zeroAt w 8 6 && zeroAt w 0 2 && zeroAt e 12 20) .reserved
      (decCsrw (fS w) (fB w) (fld e 0 12)))
  | 2 => longOnly w (need (zeroAt w 0 14 && zeroAt e 16 16) .reserved (.ok (.trap (fS w) (fld e 0 16))))
  | 3 => longOnly w (need (zeroAt w 8 6 && zeroAt w 0 2 && zeroAt e 0 26) .reserved
      (.ok (.upret (fS w) (fB w) (fld e 26 6))))
  | 4 => longOnly w (need (zeroAt w 8 6 && zeroAt w 0 2 && zeroAt e 3 29) .reserved
      (withScope (e % 8) fun sc => .ok (.tlbinv (fS w) (fB w) sc)))
  | 5 => decYSa w .inth
  | 6 => longOnly w (need (zeroAt w 0 14 && zeroAt e 16 16) .reserved (.ok (.brk (fS w) (fld e 0 16))))
  | 7 => longOnly w (need (zeroAt w 8 6 && zeroAt w 0 2 && zeroAt e 3 29) .reserved
      (withScope (e % 8) fun sc => .ok (.icinv (fS w) (fB w) sc)))
  | _ => .error .subOpcode

/-- OP 0xF0 to 0xFF (R269, R270). -/
def decodeOpF (w e : Nat) : Decoded :=
  match opField w % 16 with
  | 0 => (match (fD w).toNat with
      | 0 => decYL3 w e .snewBead
      | 1 => decYS w .snewDesc
      | _ => .error .subOpcode)
  | 7 => (match (fD w).toNat with
      | 0 => decYS w .srefHold
      | 1 => decYS w .srefRel
      | _ => .error .subOpcode)
  | 1 => need (zeroAt w 14 6) .subOpcode (decYL2 w e .scat)
  | 2 => need (zeroAt w 14 6) .subOpcode (decYL2 w e .ssplit)
  | 3 => need (zeroAt w 14 6) .subOpcode (decYL3 w e .ssplice)
  | 4 => need (zeroAt w 14 6) .subOpcode (longOnly w
      (need (zeroAt w 13 1 && zeroAt w 0 2 && zeroAt e 2 18) .reserved
        (.ok (.ssum (fS w) (fld w 8 5) (fB w) (fld e 26 6) (fld e 20 6) (fld e 0 2)))))
  | 5 => need (zeroAt w 14 6) .subOpcode (decYL2 w e .sloc)
  | 6 => need (zeroAt w 14 6) .subOpcode (decYL2 w e .sstep)
  | 8 => need (zeroAt w 14 6) .subOpcode (decYL3 w e .scommit)
  | 9 => decodeSubMem w e
  | 10 => decodeSubMem w e
  | 11 => decodeSubMem w e
  | 12 => decodeSubCtx w e
  | 13 => decodeSubCtx w e
  | 14 => decodeSubSys w e
  | _ => .error .unassigned

/-- The opcode map (R269). -/
def decodeOp (w e : Nat) : Decoded :=
  match opField w / 16 with
  | 0 => decodeOp0 w e
  | 1 => decodeOp1 w e
  | 2 => decodeOp2 w e
  | 4 => decodeOp4 w
  | 5 => decodeOp5 w e
  | 6 => decodeOp6 w e
  | 7 => decodeOp7 w e
  | 8 => decodeOp8 w e
  | 9 => decodeOp9 w e
  | 10 => decodeOpA w e
  | 12 => decodeOpC w e
  | 13 => decodeOpD w e
  | 14 => decodeOpE w e
  | 15 => decodeOpF w e
  | _ => .error .unassigned

/-- The instruction two words hold, or why they hold none (R271). `e` matters only when X = 1. -/
def decodeWords (w e : Nat) : Decoded :=
  match decodeOp w e with
  | .ok i => if i.wf then .ok i else .error .operand
  | .error r => .error r

/-- The value of a little-endian list of bytes (R11). -/
def leNat : List Byte → Nat
  | [] => 0
  | b :: bs => b.toNat + 256 * leNat bs

/-- `n` bytes of a value, the least significant first (R11). -/
def leBytes : Nat → Nat → List Byte
  | 0, _ => []
  | n + 1, v => BitVec.ofNat 8 v :: leBytes n (v / 256)

/-- The number of bytes of the instruction whose first word is `w` (R240). -/
def wordsSize (w : Nat) : Nat := if xBit w then 8 else 4

/-- Decode the instruction at the head of a list of bytes, with the bytes after it (R240, R241). -/
def decodeBytes (bs : List Byte) : Except DecodeError (Instr × List Byte) :=
  let w := leNat (bs.take 4)
  if bs.length < wordsSize w then .error .truncated
  else match decodeWords w (leNat ((bs.drop 4).take 4)) with
    | .ok i => .ok (i, bs.drop (wordsSize w))
    | .error r => .error r

/-- The instruction whose bits, the first word's in the low 32, are `w` (the numbering of spec/opcode_table.json). -/
def decodeTableWord (nbits w : Nat) : Option Instr :=
  match decodeBytes (leBytes 8 (w % 2 ^ nbits)) with
  | .ok (i, _) => some i
  | .error _ => none

/-! ### Encoding -/

/-- The fixed part of a first word (R240). -/
def encHead (x : Bool) (s : Stall) (op : Nat) : Nat := x.toNat * 2 ^ 31 + s.toNat * 2 ^ 28 + op * 2 ^ 20

/-- The body of format A (R244). -/
def encBody (d a b t : Nat) : Nat := d * 2 ^ 14 + a * 2 ^ 8 + b * 2 ^ 2 + t

/-- The words of an instruction: the first, and the extension when X = 1. -/
abbrev Words := Nat × Option Nat

/-- A short instruction of format A or Y. -/
def encA (s : Stall) (op d a b t : Nat) : Option Words := some (encHead false s op + encBody d a b t, none)

/-- A long instruction of format A, G or Y with its extension word. -/
def encAL (s : Stall) (op d a b t e : Nat) : Option Words := some (encHead true s op + encBody d a b t, some e)

/-- An instruction of format I (R245). -/
def encI (s : Stall) (op : Nat) (d a : Nat) : Imm → Option Words
  | .short v => some (encHead false s op + d * 2 ^ 14 + a * 2 ^ 8 + v.toNat, none)
  | .long v => some (encHead true s op + d * 2 ^ 14 + a * 2 ^ 8, some v.toNat)

/-- An instruction of format B (R246). -/
def encB (s : Stall) (op : Nat) (a b : Nat) : Disp → Option Words
  | .short v => some (encHead false s op + a * 2 ^ 14 + b * 2 ^ 8 + v.toNat, none)
  | .long v => some (encHead true s op + a * 2 ^ 14 + b * 2 ^ 8, some v.toNat)

/-- The code of a size-type (R248). -/
def SizeType.code (st : SizeType) : Nat := st.ox.toNat * 8 + st.sx.toNat * 4 + st.sz.toNat

/-- An instruction of format M (R247, R248). -/
def encM (s : Stall) (op : Nat) (d b m : Nat) : MForm → Option Words
  | .short x => some (encHead false s op + d * 2 ^ 14 + b * 2 ^ 8 + m * 2 ^ 6 + x.toNat, none)
  | .long st x => some (encHead true s op + d * 2 ^ 14 + b * 2 ^ 8 + m * 2 ^ 6 + st.code, some x.toNat)

/-- The body of format V (R249). -/
def encVBody (d a b k t : Nat) : Nat := d * 2 ^ 15 + a * 2 ^ 10 + b * 2 ^ 5 + k * 2 ^ 2 + t

/-- A short instruction of format V (R249). -/
def encV (s : Stall) (op d a b k t : Nat) : Option Words := some (encHead false s op + encVBody d a b k t, none)

/-- The extension word of format V (R250). -/
def VExt.word (x : VExt) : Nat :=
  x.vc.toNat * 2 ^ 27 + x.q.toNat * 2 ^ 21 + x.pd.toNat * 2 ^ 20 + x.pa.toNat * 2 ^ 19 + x.pb.toNat * 2 ^ 18
    + x.rm.toNat * 2 ^ 16 + x.sat.toNat * 2 ^ 15 + x.tx.toNat * 2 ^ 13

/-- The major opcode of a format V instruction (R269). -/
def VecOp.code : VecOp → Nat
  | .vadd => 0x88 | .vsub => 0x89 | .vmul => 0x8A | .vfma => 0x8B | .vmin => 0x8C | .vmax => 0x8D
  | .vabs => 0x8E | .vneg => 0x8F | .vand => 0x90 | .vor => 0x91 | .vxor => 0x92 | .vshl => 0x93
  | .vshr => 0x94 | .vsar => 0x95 | .vcmpeq => 0x96 | .vcmplt => 0x97 | .vcmple => 0x98 | .vsel => 0x99
  | .vmov => 0x9A | .vperm => 0x9B | .vslide => 0x9C | .vredadd => 0x9D | .vredmax => 0x9E | .vredmin => 0x9F
  | .vscan => 0xA0 | .vcnt => 0xA1 | .vcmpr => 0xA2 | .vidx => 0xA3 | .vkey => 0xA4 | .vhist => 0xA5
  | .vsumgt => 0xA6 | .cvtB16F32 => 0xC8 | .cvtF16F32 => 0xC9 | .cvtF32B16 => 0xCA | .cvtF32F16 => 0xCB
  | .cvtE4F32 => 0xCC | .cvtE5F32 => 0xCD | .cvtF32E4 => 0xCE | .cvtF32E5 => 0xCF | .cvtM8F32 => 0xD0
  | .cvtF32M8 => 0xD1 | .cvtF4F32 => 0xD2 | .cvtF32F4 => 0xD3 | .cvtF32S32 => 0xD4 | .cvtS32F32 => 0xD5
  | .vexp => 0xD8 | .vlog2 => 0xD9 | .vrcp => 0xDA | .vrsq => 0xDB | .vtli => 0xDC

/-- A compare-branch's major opcode (R269). -/
def BranchOp.code : BranchOp → Nat
  | .beq => 0x50 | .bne => 0x51 | .blt => 0x52 | .bge => 0x53 | .blo => 0x54 | .bhs => 0x55

/-- An MMA (R346). -/
def encMma (st : Stall) (op : Nat) (a b q : Reg) (set ia ib sk te : Bool) : Option Words :=
  encAL st op 0 a.toNat b.toNat 0 (q.toNat * 2 ^ 26 + set.toNat * 2 ^ 25 + te.toNat * 8 + sk.toNat * 4
    + ib.toNat * 2 + ia.toNat)

/-- The extension of a long format Y with b and c (R253). -/
def encBC (b c : Reg) : Nat := b.toNat * 2 ^ 26 + c.toNat * 2 ^ 20

namespace Instr

/-- The words of an instruction (R240 to R273); none for an event of the part, which no word encodes. -/
def encode : Instr → Option Words
  | .add s d a b t => encA s 0x01 d.toNat a.toNat b.toNat t.toNat
  | .sub s d a b t => encA s 0x02 d.toNat a.toNat b.toNat t.toNat
  | .addi s d a i => encI s 0x03 d.toNat a.toNat (.short i)
  | .addiLong s d a i => encI s 0x03 d.toNat a.toNat (.long i)
  | .mul s d a b t => encA s 0x04 d.toNat a.toNat b.toNat t.toNat
  | .mulh s d a b t => encA s 0x05 d.toNat a.toNat b.toNat t.toNat
  | .mulhu s d a b t => encA s 0x06 d.toNat a.toNat b.toNat t.toNat
  | .div s d a b t => encA s 0x07 d.toNat a.toNat b.toNat t.toNat
  | .divu s d a b t => encA s 0x08 d.toNat a.toNat b.toNat t.toNat
  | .rem s d a b t => encA s 0x09 d.toNat a.toNat b.toNat t.toNat
  | .remu s d a b t => encA s 0x0A d.toNat a.toNat b.toNat t.toNat
  | .and s d a b => encA s 0x0B d.toNat a.toNat b.toNat 0
  | .or s d a b => encA s 0x0C d.toNat a.toNat b.toNat 0
  | .xor s d a b => encA s 0x0D d.toNat a.toNat b.toNat 0
  | .andn s d a b => encA s 0x0E d.toNat a.toNat b.toNat 0
  | .andi s d a i => encI s 0x0F d.toNat a.toNat i
  | .ori s d a i => encI s 0x10 d.toNat a.toNat i
  | .xori s d a i => encI s 0x11 d.toNat a.toNat i
  | .shl s d a b t => encA s 0x12 d.toNat a.toNat b.toNat t.toNat
  | .shr s d a b t => encA s 0x13 d.toNat a.toNat b.toNat t.toNat
  | .sar s d a b t => encA s 0x14 d.toNat a.toNat b.toNat t.toNat
  | .shli s d a i => encI s 0x15 d.toNat a.toNat i
  | .shri s d a i => encI s 0x16 d.toNat a.toNat i
  | .sari s d a i => encI s 0x17 d.toNat a.toNat i
  | .rotl s d a b t => encA s 0x18 d.toNat a.toNat b.toNat t.toNat
  | .min s d a b t => encA s 0x19 d.toNat a.toNat b.toNat t.toNat
  | .max s d a b t => encA s 0x1A d.toNat a.toNat b.toNat t.toNat
  | .minu s d a b t => encA s 0x1B d.toNat a.toNat b.toNat t.toNat
  | .maxu s d a b t => encA s 0x1C d.toNat a.toNat b.toNat t.toNat
  | .seq s d a b t => encA s 0x1D d.toNat a.toNat b.toNat t.toNat
  | .sne s d a b t => encA s 0x1E d.toNat a.toNat b.toNat t.toNat
  | .slt s d a b t => encA s 0x1F d.toNat a.toNat b.toNat t.toNat
  | .sltu s d a b t => encA s 0x20 d.toNat a.toNat b.toNat t.toNat
  | .slti s d a i => encI s 0x21 d.toNat a.toNat i
  | .clz s d a t => encA s 0x22 d.toNat a.toNat 0 t.toNat
  | .ctz s d a t => encA s 0x23 d.toNat a.toNat 0 t.toNat
  | .popc s d a t => encA s 0x24 d.toNat a.toNat 0 t.toNat
  | .bext s d a b => encA s 0x25 d.toNat a.toNat b.toNat 0
  | .bins s d a b => encA s 0x26 d.toNat a.toNat b.toNat 0
  | .sel s d a b => encA s 0x27 d.toNat a.toNat b.toNat 0
  | .movi s d i => encI s 0x28 d.toNat 0 (.long i)
  | .lea s d b m x => encM s 0x29 d.toNat b.toNat m.toNat (.short x)
  | .leaLong s d b m ty x => encM s 0x29 d.toNat b.toNat m.toNat (.long ty x)
  | .leam s d a mf off => encAL s 0x2A d.toNat a.toNat 0 0 (mf.toNat * 2 ^ 15 + off.toNat)
  | .clmul s d a b => encA s 0x2B d.toNat a.toNat b.toNat 0
  | .clmulh s d a b => encA s 0x2C d.toNat a.toNat b.toNat 0
  | .fadd s d a b => encA s 0x40 d.toNat a.toNat b.toNat 0
  | .fsub s d a b => encA s 0x41 d.toNat a.toNat b.toNat 0
  | .fmul s d a b => encA s 0x42 d.toNat a.toNat b.toNat 0
  | .fma s d a b => encA s 0x43 d.toNat a.toNat b.toNat 0
  | .fmin s d a b => encA s 0x44 d.toNat a.toNat b.toNat 0
  | .fmax s d a b => encA s 0x45 d.toNat a.toNat b.toNat 0
  | .feq s d a b => encA s 0x46 d.toNat a.toNat b.toNat 0
  | .flt s d a b => encA s 0x47 d.toNat a.toNat b.toNat 0
  | .fle s d a b => encA s 0x48 d.toNat a.toNat b.toNat 0
  | .fcls s d a => encA s 0x49 d.toNat a.toNat 0 0
  | .fcvt s d a pair sat rm => some (encHead false s 0x4A + d.toNat * 2 ^ 14 + a.toNat * 2 ^ 8 + pair.toNat * 2 ^ 4
      + sat.toNat * 2 ^ 3 + rm.toNat, none)
  | .beq s a b p => encB s 0x50 a.toNat b.toNat (.short p)
  | .bne s a b p => encB s 0x51 a.toNat b.toNat (.short p)
  | .blt s a b p => encB s 0x52 a.toNat b.toNat (.short p)
  | .bge s a b p => encB s 0x53 a.toNat b.toNat (.short p)
  | .blo s a b p => encB s 0x54 a.toNat b.toNat (.short p)
  | .bhs s a b p => encB s 0x55 a.toNat b.toNat (.short p)
  | .branchLong s op a b p => encB s op.code a.toNat b.toNat (.long p)
  | .jmp s p => encB s 0x56 0 0 p
  | .jal s d p => encB s 0x57 d.toNat 0 p
  | .jalr s d a i => encI s 0x58 d.toNat a.toNat i
  | .loop s n i count => some (encHead true s 0x59 + n.toNat * 2 ^ 14 + i.toNat, some count.toNat)
  | .loopr s n a i => some (encHead false s 0x5A + n.toNat * 2 ^ 14 + a.toNat * 2 ^ 8 + i.toNat, none)
  | .loopm s n m i => some (encHead false s 0x5B + n.toNat * 2 ^ 14 + m.toNat * 2 ^ 8 + i.toNat, none)
  | .rpt s len n sd sa sb sc => some (encHead true s 0x5C + len.toNat * 2 ^ 16 + n.toNat * 2 ^ 4,
      some (sd.toNat * 2 ^ 28 + sa.toNat * 2 ^ 24 + sb.toNat * 2 ^ 20 + sc.toNat * 2 ^ 16))
  | .exit s a => encA s 0x5D 0 a.toNat 0 0
  | .nop s => encA s 0x5E 0 0 0 0
  | .yield s => encA s 0x5F 0 0 0 0
  | .ld s d b m x => encM s 0x60 d.toNat b.toNat m.toNat (.short x)
  | .ldLong s d b m ty x => encM s 0x60 d.toNat b.toNat m.toNat (.long ty x)
  | .st s d b m x => encM s 0x61 d.toNat b.toNat m.toNat (.short x)
  | .stLong s d b m ty x => encM s 0x61 d.toNat b.toNat m.toNat (.long ty x)
  | .ldx s d b f => encM s 0x62 d.toNat b.toNat 3 f
  | .stx s d b f => encM s 0x63 d.toNat b.toNat 3 f
  | .lds s d b m f => encM s 0x64 d.toNat b.toNat m.toNat f
  | .pref s b m f => encM s 0x65 0 b.toNat m.toNat f
  | .ldf s d b m f => encM s 0x66 d.toNat b.toNat m.toNat f
  | .ldfe s d b m f => encM s 0x67 d.toNat b.toNat m.toNat f
  | .ste s d b m f => encM s 0x68 d.toNat b.toNat m.toNat f
  | .stf s d b m f => encM s 0x69 d.toNat b.toNat m.toNat f
  | .feset s b m f => encM s 0x6A 0 b.toNat m.toNat f
  | .feclr s b m f => encM s 0x6B 0 b.toNat m.toNat f
  | .feqry s d b m f => encM s 0x6C d.toNat b.toNat m.toNat f
  | .ldv s d b m f => encM s 0x6D d.toNat b.toNat m.toNat f
  | .stv s d b m f => encM s 0x6E d.toNat b.toNat m.toNat f
  | .ldvx s d b f => encM s 0x6F d.toNat b.toNat 3 f
  | .stvx s d b f => encM s 0x70 d.toNat b.toNat 3 f
  | .ldvb s d b m f => encM s 0x71 d.toNat b.toNat m.toNat f
  | .ldAcq s d b m f => encM s 0x72 d.toNat b.toNat m.toNat f
  | .stRel s d b m sc sz x => encM s 0x73 d.toNat b.toNat m.toNat (.long ⟨BitVec.ofNat 3 sc.code, false, sz⟩ x)
  | .amo s op d a b acq rel sc => encAL s 0x78 d.toNat a.toNat b.toNat 0
      (op.code * 2 ^ 28 + acq.toNat * 2 ^ 27 + rel.toNat * 2 ^ 26 + sc.code * 2 ^ 23)
  | .cas s d a b c acq rel sc => encAL s 0x79 d.toNat a.toNat b.toNat 0
      (c.toNat * 2 ^ 26 + acq.toNat * 2 ^ 25 + rel.toNat * 2 ^ 24 + sc.code * 2 ^ 21)
  | .rsv s d a => encA s 0x7A d.toNat a.toNat 0 0
  | .rwb s d a b => encA s 0x7B d.toNat a.toNat b.toNat 0
  | .rlsn s d a => encA s 0x7C d.toNat a.toNat 0 0
  | .redF32 s a b => encA s 0x7D 0 a.toNat b.toNat 0
  | .fence s sc => some (encHead false s 0x7E + sc.code, none)
  | .fenceE s sc => some (encHead false s 0x7E + 8 + sc.code, none)
  | .mon s line a => encA s 0x7F line.toNat a.toNat 0 0
  | .moff s line => encA s 0x80 line.toNat 0 0 0
  | .waitm s d a => encA s 0x81 d.toNat a.toNat 0 0
  | .barClu s => encA s 0x82 0 0 0 0
  | .barGang s => encA s 0x82 0 0 0 1
  | .sigdec s a b => encA s 0x83 0 a.toNat b.toNat 0
  | .sigwait s d a b => encA s 0x84 d.toNat a.toNat b.toNat 0
  | .vadd s d a b k t => encV s 0x88 d.toNat a.toNat b.toNat k.toNat t.toNat
  | .vsub s d a b k t => encV s 0x89 d.toNat a.toNat b.toNat k.toNat t.toNat
  | .vmul s d a b k t => encV s 0x8A d.toNat a.toNat b.toNat k.toNat t.toNat
  | .vfma s d a b k t => encV s 0x8B d.toNat a.toNat b.toNat k.toNat t.toNat
  | .vmin s d a b k t => encV s 0x8C d.toNat a.toNat b.toNat k.toNat t.toNat
  | .vmax s d a b k t => encV s 0x8D d.toNat a.toNat b.toNat k.toNat t.toNat
  | .vabs s d a k t => encV s 0x8E d.toNat a.toNat 0 k.toNat t.toNat
  | .vneg s d a k t => encV s 0x8F d.toNat a.toNat 0 k.toNat t.toNat
  | .vand s d a b k t => encV s 0x90 d.toNat a.toNat b.toNat k.toNat t.toNat
  | .vor s d a b k t => encV s 0x91 d.toNat a.toNat b.toNat k.toNat t.toNat
  | .vxor s d a b k t => encV s 0x92 d.toNat a.toNat b.toNat k.toNat t.toNat
  | .vshl s d a b k t => encV s 0x93 d.toNat a.toNat b.toNat k.toNat t.toNat
  | .vshr s d a b k t => encV s 0x94 d.toNat a.toNat b.toNat k.toNat t.toNat
  | .vsar s d a b k t => encV s 0x95 d.toNat a.toNat b.toNat k.toNat t.toNat
  | .vcmpeq s d a b k t => encV s 0x96 d.toNat a.toNat b.toNat k.toNat t.toNat
  | .vcmplt s d a b k t => encV s 0x97 d.toNat a.toNat b.toNat k.toNat t.toNat
  | .vcmple s d a b k t => encV s 0x98 d.toNat a.toNat b.toNat k.toNat t.toNat
  | .vsel s d a b k t => encV s 0x99 d.toNat a.toNat b.toNat k.toNat t.toNat
  | .vmov s d a k t => encV s 0x9A d.toNat a.toNat 0 k.toNat t.toNat
  | .vperm s d a b k t => encV s 0x9B d.toNat a.toNat b.toNat k.toNat t.toNat
  | .vslide s d a b k t => encV s 0x9C d.toNat a.toNat b.toNat k.toNat t.toNat
  | .vredadd s d a k t => encV s 0x9D d.toNat a.toNat 0 k.toNat t.toNat
  | .vredmax s d a k t => encV s 0x9E d.toNat a.toNat 0 k.toNat t.toNat
  | .vredmin s d a k t => encV s 0x9F d.toNat a.toNat 0 k.toNat t.toNat
  | .vscan s d a b k t => encV s 0xA0 d.toNat a.toNat b.toNat k.toNat t.toNat
  | .vcnt s d k t => encV s 0xA1 d.toNat 0 0 k.toNat t.toNat
  | .vcmpr s d a k t => encV s 0xA2 d.toNat a.toNat 0 k.toNat t.toNat
  | .vidx s d k t => encV s 0xA3 d.toNat 0 0 k.toNat t.toNat
  | .vkey s d a k t => encV s 0xA4 d.toNat a.toNat 0 k.toNat t.toNat
  | .vhist s d a k t => encV s 0xA5 d.toNat a.toNat 0 k.toNat t.toNat
  | .vsumgt s d a k t => encV s 0xA6 d.toNat a.toNat 0 k.toNat t.toNat
  | .vectorLong s op d a b k t x => some (encHead true s op.code + encVBody d.toNat a.toNat b.toNat k.toNat t.toNat,
      some x.word)
  | .setvl s d a => encA s 0xA7 d.toNat a.toNat 0 0
  | .vcvtB16F32 s d a p k => encV s 0xC8 d.toNat a.toNat p.toNat k.toNat 0
  | .vcvtF16F32 s d a p k => encV s 0xC9 d.toNat a.toNat p.toNat k.toNat 0
  | .vcvtF32B16 s d a p k => encV s 0xCA d.toNat a.toNat p.toNat k.toNat 0
  | .vcvtF32F16 s d a p k => encV s 0xCB d.toNat a.toNat p.toNat k.toNat 0
  | .vcvtE4F32 s d a p k => encV s 0xCC d.toNat a.toNat p.toNat k.toNat 0
  | .vcvtE5F32 s d a p k => encV s 0xCD d.toNat a.toNat p.toNat k.toNat 0
  | .vcvtF32E4 s d a p k => encV s 0xCE d.toNat a.toNat p.toNat k.toNat 0
  | .vcvtF32E5 s d a p k => encV s 0xCF d.toNat a.toNat p.toNat k.toNat 0
  | .vcvtM8F32 s d a p k => encV s 0xD0 d.toNat a.toNat p.toNat k.toNat 0
  | .vcvtF32M8 s d a p k => encV s 0xD1 d.toNat a.toNat p.toNat k.toNat 0
  | .vcvtF4F32 s d a p k => encV s 0xD2 d.toNat a.toNat p.toNat k.toNat 0
  | .vcvtF32F4 s d a p k => encV s 0xD3 d.toNat a.toNat p.toNat k.toNat 0
  | .vcvtF32S32 s d a p k => encV s 0xD4 d.toNat a.toNat p.toNat k.toNat 0
  | .vcvtS32F32 s d a p k => encV s 0xD5 d.toNat a.toNat p.toNat k.toNat 0
  | .vexp s d a k => encV s 0xD8 d.toNat a.toNat 0 k.toNat 0
  | .vlog2 s d a k => encV s 0xD9 d.toNat a.toNat 0 k.toNat 0
  | .vrcp s d a k => encV s 0xDA d.toNat a.toNat 0 k.toNat 0
  | .vrsq s d a k => encV s 0xDB d.toNat a.toNat 0 k.toNat 0
  | .vtli s d a f k => encV s 0xDC d.toNat a.toNat f.toNat k.toNat 0
  | .tblset s a => encA s 0xDD 0 a.toNat 0 0
  | .mmaBB s a b q set ia ib sk te => encMma s 0xE0 a b q set ia ib sk te
  | .mmaEE s a b q set ia ib sk te => encMma s 0xE1 a b q set ia ib sk te
  | .mmaEF s a b q set ia ib sk te => encMma s 0xE2 a b q set ia ib sk te
  | .mmaMM s a b q set ia ib sk te => encMma s 0xE3 a b q set ia ib sk te
  | .mmaBF s a b q set ia ib sk te => encMma s 0xE4 a b q set ia ib sk te
  | .mmaFF s a b q set ia ib sk te => encMma s 0xE5 a b q set ia ib sk te
  | .mzero s set => encAL s 0xE6 0 0 0 0 (set.toNat * 2 ^ 25)
  | .mout s d q set ot rm sat incd => encAL s 0xE7 d.toNat 0 0 0 (q.toNat * 2 ^ 26 + set.toNat * 2 ^ 25
      + incd.toNat * 2 ^ 6 + sat.toNat * 2 ^ 5 + rm.toNat * 2 ^ 3 + ot.toNat)
  | .gang s => encAL s 0xE8 0 0 0 0 0
  | .skset s base len => encAL s 0xE9 0 0 0 0 (len.toNat * 2 ^ 9 + base.toNat)
  | .push s d dir m => encA s 0xEA d.toNat dir.toNat 0 m.toNat
  | .pushv s d dir m => encA s 0xEB d.toNat dir.toNat 0 m.toNat
  | .pop s d dir b => encA s 0xEC d.toNat dir.toNat b.toNat 0
  | .popv s d dir b => encA s 0xED d.toNat dir.toNat b.toNat 0
  | .peek s d dir b => encA s 0xEE d.toNat dir.toNat b.toNat 0
  | .pcfg s d a => encA s 0xEF d.toNat a.toNat 0 0
  | .snewBead s d a b c => encAL s 0xF0 0 d.toNat a.toNat 0 (encBC b c)
  | .snewDesc s d a => encA s 0xF0 1 d.toNat a.toNat 0
  | .scat s d a b => encAL s 0xF1 0 d.toNat a.toNat 0 (encBC b 0)
  | .ssplit s d a b => encAL s 0xF2 0 d.toNat a.toNat 0 (encBC b 0)
  | .ssplice s d a b c => encAL s 0xF3 0 d.toNat a.toNat 0 (encBC b c)
  | .ssum s d a b c f => encAL s 0xF4 0 d.toNat a.toNat 0 (encBC b c + f.toNat)
  | .sloc s d a b => encAL s 0xF5 0 d.toNat a.toNat 0 (encBC b 0)
  | .sstep s d a b => encAL s 0xF6 0 d.toNat a.toNat 0 (encBC b 0)
  | .srefHold s d a => encA s 0xF7 0 d.toNat a.toNat 0
  | .srefRel s d a => encA s 0xF7 1 d.toNat a.toNat 0
  | .scommit s d a b c => encAL s 0xF8 0 d.toNat a.toNat 0 (encBC b c)
  | .kvpgAlloc s d a => encA s 0xF9 0 d.toNat a.toNat 0
  | .kvpgFree s d a b => encAL s 0xF9 1 d.toNat a.toNat 0 (encBC b 0)
  | .kvpgSlot s d a b => encAL s 0xF9 2 d.toNat a.toNat 0 (encBC b 0)
  | .viewRegMst s d a => encA s 0xFA 0 d.toNat a.toNat 0
  | .viewRegDrv s d a => encA s 0xFA 0 d.toNat a.toNat 1
  | .viewDrop s d a => encA s 0xFA 1 d.toNat a.toNat 0
  | .viewLd s d a b c => encAL s 0xFA 2 d.toNat a.toNat 0 (encBC b c)
  | .viewWait s d a b => encAL s 0xFA 3 d.toNat a.toNat 0 (encBC b 0)
  | .engCpy s d a b c => encAL s 0xFB 0 d.toNat a.toNat 0 (encBC b c)
  | .engPoolrd s d a b c => encAL s 0xFB 1 d.toNat a.toNat 0 (encBC b c)
  | .engPoolwr s d a b c => encAL s 0xFB 2 d.toNat a.toNat 0 (encBC b c)
  | .engSleepu s a => encA s 0xFB 3 0 a.toNat 0
  | .start s d a b c => encAL s 0xFC 0 d.toNat a.toNat 0 (encBC b c)
  | .join s d a => encA s 0xFC 1 d.toNat a.toNat 0
  | .launch s d a => encA s 0xFC 2 d.toNat a.toNat 0
  | .ctxNew s d a => encA s 0xFD 0 d.toNat a.toNat 0
  | .ctxGive s d a b => encAL s 0xFD 1 d.toNat a.toNat 0 (encBC b 0)
  | .ctxRevoke s d a b => encAL s 0xFD 2 d.toNat a.toNat 0 (encBC b 0)
  | .ctxRun s d a => encA s 0xFD 3 d.toNat a.toNat 0
  | .ctxStop s d a => encA s 0xFD 4 d.toNat a.toNat 0
  | .ctxSave s d a b => encAL s 0xFD 5 d.toNat a.toNat 0 (encBC b 0)
  | .ctxLoad s d a b => encAL s 0xFD 6 d.toNat a.toNat 0 (encBC b 0)
  | .ctxDirty s d a b c => encAL s 0xFD 7 d.toNat a.toNat 0 (encBC b c)
  | .ctxS2map s d a b => encAL s 0xFD 8 d.toNat a.toNat 0 (encBC b 0)
  | .ctxS2mapBead s d a b => encAL s 0xFD 8 d.toNat a.toNat 1 (encBC b 0)
  | .csrr s d csr => encAL s 0xFE 0 d.toNat 0 0 csr.toNat
  | .csrw s a csr => encAL s 0xFE 1 0 a.toNat 0 csr.toNat
  | .arenaInit s a => encAL s 0xFE 1 0 a.toNat 0 0x110
  | .redrgnWrite s a => encAL s 0xFE 1 0 a.toNat 0 0x111
  | .xsplitWrite s a => encAL s 0xFE 1 0 a.toNat 0 0x103
  | .featWrite s a hi => encAL s 0xFE 1 0 a.toNat 0 (0x106 + hi.toNat)
  | .trap s n => encAL s 0xFE 2 0 0 0 n.toNat
  | .upret s a b => encAL s 0xFE 3 0 a.toNat 0 (encBC b 0)
  | .tlbinv s a sc => encAL s 0xFE 4 0 a.toNat 0 sc.code
  | .inth s a => encA s 0xFE 5 0 a.toNat 0
  | .brk s n => encAL s 0xFE 6 0 0 0 n.toNat
  | .icinv s a sc => encAL s 0xFE 7 0 a.toNat 0 sc.code
  -- Strands and views
  | .strandFree .. | .churnRefresh .. | .pendTake .. | .churnServe .. => none
  -- Engines and the pool
  | .copyStart .. | .copyComplete .. | .promiseMiss .. | .sleepuWake .. | .poolTimeout .. | .poolLineAccept ..
    | .ownershipMove .. => none
  -- A core's results, turns and fetched words
  | .resultLand .. | .spentTurn .. | .illegalInstruction .. => none
  -- Translation
  | .missRepresent .. | .walkComplete .. | .shootdownEcho .. => none
  -- Banks
  | .sliceRequest .. | .bufferRequest .. | .syncRequest .. | .syncRepresent .. | .probeEcho .. | .reservationExpiry .. => none
  -- Waits that end
  | .syncTimeout .. | .waitmDeadline .. | .portTimeout .. | .barTimeout .. | .gangTimeout .. | .viewWaitTimeout ..
    | .sigwaitTimeout .. => none
  -- The matrix units
  | .matrixQueueRun .. | .mmaStepStart .. | .mmaStepEnd .. | .freeze .. | .gangStepTimeout .. | .mzeroDone ..
    | .moutDone .. => none
  -- Sequencers, halts and replies
  | .sequencerChoose .. | .agePromotion .. | .iterationEnd .. | .haltComplete .. | .replyArrival .. => none
  -- Memory errors
  | .scrub .. | .sliceFailure .. => none
  -- The host
  | .hostWindowRead .. | .hostWindowWrite .. | .wbaseWrite .. | .hvClear .. | .doorbell .. | .dblostClear ..
    | .pfDoorbell .. | .vfBind .. | .numvfsWrite .. => none
  -- The mailbox
  | .fwload .. | .quote .. | .ownmove .. | .logread .. | .mailboxUnknown .. | .mailboxAnswer .. | .doneClear .. => none
  -- Power and links
  | .plimWrite .. | .plimEffect .. | .korxoFrame .. | .linkRetry .. | .linkError .. | .linkRetire .. | .linkTrained .. => none
  -- Start-up
  | .powerOn .. | .imageJudge .. | .memoryInit .. | .diePowerUp .. | .rowRelease .. | .bootProgramStart ..
    | .diesIntoService .. => none

/-- The size of an instruction in bytes: 8 with an extension word, else 4 (R240). Events have none. -/
def size (i : Instr) : Nat :=
  match i.encode with
  | some (_, some _) => 8
  | some (_, none) => 4
  | none => 0

/-- The bytes of an instruction, the first word at the lower address (R11). -/
def bytes (i : Instr) : List Byte :=
  match i.encode with
  | some (w, some e) => leBytes 4 w ++ leBytes 4 e
  | some (w, none) => leBytes 4 w
  | none => []

end Instr

/-- The feature bit a vector operation needs (R273). -/
def VecOp.feature : VecOp → Nat
  | .cvtM8F32 | .cvtF32M8 => 3
  | _ => 0

namespace Instr

/-- The feature bit an instruction needs; bit 0 is BASE, which is always 1 (R272, R273). -/
def feature : Instr → Nat
  | .mmaBB .. | .mmaEE .. | .mmaEF .. | .mmaBF .. | .mzero .. | .mout .. | .gang .. | .skset .. => 1
  | .mmaFF .. => 2
  | .mmaMM .. | .vcvtM8F32 .. | .vcvtF32M8 .. => 3
  | .vectorLong _ op _ _ _ _ _ _ => op.feature
  | .snewBead .. | .snewDesc .. | .scat .. | .ssplit .. | .ssplice .. | .ssum .. | .sloc .. | .sstep ..
  | .srefHold .. | .srefRel .. | .scommit .. | .kvpgAlloc .. | .kvpgFree .. | .kvpgSlot .. => 4
  | .viewRegMst .. | .viewRegDrv .. | .viewDrop .. | .viewLd .. | .viewWait .. => 5
  | .engPoolrd .. | .engPoolwr .. => 6
  | .ctxDirty .. => 7
  | .push .. | .pushv .. | .pop .. | .popv .. | .peek .. | .pcfg .. => 8
  | .redF32 .. => 9
  | _ => 0

/-- MOUT to M8 needs MKR as well as MATB (R271, R345). -/
def feature2 : Instr → Nat
  | .mout _ _ _ _ ot _ _ _ => if ot == 5 then 3 else 0
  | _ => 0

/-- Are the instruction's features accepted (R273)? -/
def featuresOk (feat : BitVec 128) (i : Instr) : Bool :=
  (i.feature == 0 || feat.getLsbD i.feature) && (i.feature2 == 0 || feat.getLsbD i.feature2)

end Instr

end Sys2Proof
end

