-- ==== Sys2Proof/Machine/Fetch.lean ====
section
/-!
DEFINITION. Instruction fetch (R238, R241, R286), decoding with features (R271, R273), and the repeat frame: capture,
stepped register fields and recapture (R254, R291, R292, R305).
-/

namespace Sys2Proof.Machine

/-- What fetching gives. -/
inductive Fetched where
  /-- The two words, the second 0 for a short instruction, and the state with its caches filled. -/
  | ok (w e : Nat) (s : State)
  | fault (t : Trap)
  | miss (va : Nat)

/-- The words of a line of bytes. -/
def lineWords (bs : List Byte) : List (BitVec 32) :=
  (List.range 16).map fun j => BitVec.ofNat 32 (bytesNat ((bs.drop (4 * j)).take 4))

namespace State

/-- The line of an instruction cache that holds an address for a slot's context (R286). -/
def cachedLine (l : List ILine) (ctx gen va : Nat) : Option ILine :=
  l.find? fun e => e.ctx == ctx && e.gen == gen && e.line == va / 64

/-- Fill a line into an instruction cache of a number of lines; which line a full cache gives up is free. -/
def fillLine (l : List ILine) (cap victim : Nat) (x : ILine) : List ILine :=
  let l := l.filter fun y => !(y.ctx == x.ctx && y.gen == x.gen && y.line == x.line)
  if l.length < cap then x :: l else x :: l.eraseIdx (victim % l.length)

/-- A free number for the victim of a full cache. -/
def victimOf (s : State) (l : List ILine) (cap : Nat) : Nat × State := if l.length < cap then (0, s) else s.drawNat Config.freeNat

/-- Fill a line into a core's instruction cache of 16 KiB and its cluster's of 128 KiB (R7, R286): 256 and 2,048 lines. -/
def fillLines (s : State) (c : Site) (x : ILine) : State :=
  let (v, s) := s.victimOf (s.core c).icache 256
  let (w, s) := s.victimOf (s.cluster (Site.cluster c)).icache 2048
  (s.modCore c fun k => { k with icache := fillLine k.icache 256 v x }).modCluster (Site.cluster c) fun k =>
    { k with icache := fillLine k.icache 2048 w x }

/-- One instruction word for a slot. A cached line may be stale: whether it or memory answers is free (R286). The bytes of a
poisoned word are executed as they stand, and an address that is no multiple of 4, as a PC that a control block or CSRW gave may be, takes
the aligned word that holds it and keeps its low bits: choices of the model (log entry 33). -/
def fetchWord (s : State) (c : Site) (i : Nat) (va : Word) : Fetched :=
  let sl := s.slot c i
  let v := va.toNat
  let pick (ws : List (BitVec 32)) : Nat := (ws.getD (v / 4 % 16) 0).toNat
  if isMesh va then .fault (ownTrap 2 0xB va 0 2)
  else if !canonical va then .fault (xlTrap .fetch 3 0x1 .own v 0)
  else
    let walk (s : State) : Fetched :=
      match (s.core c).itlb.find? fun e => e.slot == i && tlbHit e sl.ctx sl.gen v .fetch with
      | some e =>
        let a := s.targetAddr e.target (v / 64 * 64 - e.page)
        let s := s.touchWords a 64
        let line : ILine := ⟨sl.ctx, sl.gen, v / 64, lineWords (mread s.mem a 64)⟩
        .ok (pick line.words) 0 (s.fillLines c line)
      | none =>
        match sl.walkFault with
        | some (p, .fetch, t) =>
          if p = v / 4096 then .fault { t with addr := if t.cause = 0x15 then t.addr else va } else .miss v
        | _ => .miss v
    match cachedLine ((s.core c).icache ++ (s.cluster (Site.cluster c)).icache) sl.ctx sl.gen v with
    | some l =>
      let (n, s) := s.drawNat Config.freeNat
      if n % 2 = 0 then .ok (pick l.words) 0 s else walk s
    | none => walk s

/-- Both words of the instruction at an address; a fault of a second word on another page sets STRADDLE (R238). -/
def fetchInstr (s : State) (c : Site) (i : Nat) (va : Word) : Fetched :=
  match s.fetchWord c i va with
  | .ok w _ s =>
    if wordsSize w = 4 then .ok w 0 s
    else match s.fetchWord c i (va + 4) with
      | .ok e _ s => .ok w e s
      | .fault t => .fault (if (va + 4).toNat % 4096 = 0 then { t with straddle := true } else t)
      | .miss v => .miss v
  | r => r

/-- Decode fetched words, with the features accepted (R241, R271, R273). -/
def decodeHere (s : State) (w e : Nat) : Option Instr :=
  match decodeWords w e with
  | .ok i => if i.featuresOk s.pkg.feat then some i else none
  | .error _ => none

/-- The first word of the instruction that runs, for FLT1 of an ILL (R234). -/
def firstWord (s : State) (i : Instr) : Nat :=
  match s.me.frame with
  | some f => (f.code.getD (fieldOf (s.me.cbWord cbRptst) 16 4) (0, 0)).1
  | none => match i.encode with
    | some (w, _) => w
    | none => 0

/-- Raise ILL at execution (R271). -/
def raiseIll (s : State) (i : Instr) : State := s.raise (illTrap (s.firstWord i))

end State

/-! ### The repeat frame (R254, R305) -/

/-- May a repeat frame hold the instruction (R254)? -/
def isArith : Instr → Bool
  -- Adding and multiplying
  | .add .. | .sub .. | .addi .. | .addiLong .. | .mul .. | .mulh .. | .mulhu .. | .div .. | .divu .. | .rem ..
    | .remu .. => true
  -- Logic
  | .and .. | .or .. | .xor .. | .andn .. | .andi .. | .ori .. | .xori .. => true
  -- Shifts
  | .shl .. | .shr .. | .sar .. | .shli .. | .shri .. | .sari .. | .rotl .. => true
  -- Comparisons
  | .min .. | .max .. | .minu .. | .maxu .. | .seq .. | .sne .. | .slt .. | .sltu .. | .slti .. => true
  -- Bits and moves
  | .clz .. | .ctz .. | .popc .. | .bext .. | .bins .. | .sel .. | .movi .. | .leam .. | .clmul .. | .clmulh .. | .lea ..
    | .leaLong .. | .nop .. => true
  -- Scalar floating point
  | .fadd .. | .fsub .. | .fmul .. | .fma .. | .fmin .. | .fmax .. | .feq .. | .flt .. | .fle .. | .fcls .. | .fcvt .. => true
  -- Vector arithmetic
  | .vadd .. | .vsub .. | .vmul .. | .vfma .. | .vmin .. | .vmax .. | .vabs .. | .vneg .. => true
  -- Vector logic, shifts and comparisons
  | .vand .. | .vor .. | .vxor .. | .vshl .. | .vshr .. | .vsar .. | .vcmpeq .. | .vcmplt .. | .vcmple .. => true
  -- Moves, folds and counts
  | .vsel .. | .vmov .. | .vperm .. | .vslide .. | .vredadd .. | .vredmax .. | .vredmin .. | .vscan .. | .vcnt .. => true
  -- Selection
  | .vcmpr .. | .vidx .. | .vkey .. | .vhist .. | .vsumgt .. | .setvl .. | .vectorLong .. => true
  -- Conversions to F32
  | .vcvtB16F32 .. | .vcvtF16F32 .. | .vcvtE4F32 .. | .vcvtE5F32 .. | .vcvtM8F32 .. | .vcvtF4F32 .. | .vcvtS32F32 .. => true
  -- Conversions from F32
  | .vcvtF32B16 .. | .vcvtF32F16 .. | .vcvtF32E4 .. | .vcvtF32E5 .. | .vcvtF32M8 .. | .vcvtF32F4 .. | .vcvtF32S32 .. => true
  -- Functions
  | .vexp .. | .vlog2 .. | .vrcp .. | .vrsq .. | .vtli .. => true
  | _ => false

/-- Does a nonzero step apply to a pointer operand (R254)? -/
def stepsPointer (sd sa sb : BitVec 4) : Instr → Bool
  | .vectorLong _ _ _ _ _ _ _ x => (x.pd && sd != 0) || (x.pa && sa != 0) || (x.pb && sb != 0)
  | _ => false

/-- A register field of `w` bits in replay `n` (R254). -/
def stepField (w : Nat) (f : BitVec w) (n : Nat) (step : BitVec 4) : BitVec w :=
  BitVec.ofInt w ((f.toNat : Int) + (n : Int) * step.toInt)

/-- Does the vb field of a vector operation name a register (R305)? -/
def VecOp.bIsReg : VecOp → Bool
  | .vadd | .vsub | .vmul | .vfma | .vmin | .vmax | .vand | .vor | .vxor | .vshl | .vshr | .vsar
  | .vcmpeq | .vcmplt | .vcmple | .vsel | .vperm | .vslide | .vscan => true
  | _ => false

/-- Is the vd field of a vector operation a mask number (R305)? -/
def VecOp.dIsMask : VecOp → Bool
  | .vcmpeq | .vcmplt | .vcmple => true
  | _ => false

/-- An instruction of a frame with its register fields stepped for replay `n` (R254, R305). The zero `vb` and `vc` of a VSCAN of another
kind than AFFINE are stepped as registers, so that a later replay raises ILL (R316): R305 names PART and FORM as the fields that are not
stepped, and the kind of a scan is not in its words; DEDUCED (log entry 8). -/
def stepInstr (fr : Frame) (n : Nat) (i : Instr) : Instr :=
  let r (x : Reg) (s : BitVec 4) : Reg := stepField 6 x n s
  let v (x : VReg) (s : BitVec 4) : VReg := stepField 5 x n s
  match i with
  | .add st d a b t => .add st (r d fr.sd) (r a fr.sa) (r b fr.sb) t
  | .sub st d a b t => .sub st (r d fr.sd) (r a fr.sa) (r b fr.sb) t
  | .addi st d a i => .addi st (r d fr.sd) (r a fr.sa) i
  | .addiLong st d a i => .addiLong st (r d fr.sd) (r a fr.sa) i
  | .mul st d a b t => .mul st (r d fr.sd) (r a fr.sa) (r b fr.sb) t
  | .mulh st d a b t => .mulh st (r d fr.sd) (r a fr.sa) (r b fr.sb) t
  | .mulhu st d a b t => .mulhu st (r d fr.sd) (r a fr.sa) (r b fr.sb) t
  | .div st d a b t => .div st (r d fr.sd) (r a fr.sa) (r b fr.sb) t
  | .divu st d a b t => .divu st (r d fr.sd) (r a fr.sa) (r b fr.sb) t
  | .rem st d a b t => .rem st (r d fr.sd) (r a fr.sa) (r b fr.sb) t
  | .remu st d a b t => .remu st (r d fr.sd) (r a fr.sa) (r b fr.sb) t
  | .and st d a b => .and st (r d fr.sd) (r a fr.sa) (r b fr.sb)
  | .or st d a b => .or st (r d fr.sd) (r a fr.sa) (r b fr.sb)
  | .xor st d a b => .xor st (r d fr.sd) (r a fr.sa) (r b fr.sb)
  | .andn st d a b => .andn st (r d fr.sd) (r a fr.sa) (r b fr.sb)
  | .andi st d a i => .andi st (r d fr.sd) (r a fr.sa) i
  | .ori st d a i => .ori st (r d fr.sd) (r a fr.sa) i
  | .xori st d a i => .xori st (r d fr.sd) (r a fr.sa) i
  | .shl st d a b t => .shl st (r d fr.sd) (r a fr.sa) (r b fr.sb) t
  | .shr st d a b t => .shr st (r d fr.sd) (r a fr.sa) (r b fr.sb) t
  | .sar st d a b t => .sar st (r d fr.sd) (r a fr.sa) (r b fr.sb) t
  | .shli st d a i => .shli st (r d fr.sd) (r a fr.sa) i
  | .shri st d a i => .shri st (r d fr.sd) (r a fr.sa) i
  | .sari st d a i => .sari st (r d fr.sd) (r a fr.sa) i
  | .rotl st d a b t => .rotl st (r d fr.sd) (r a fr.sa) (r b fr.sb) t
  | .min st d a b t => .min st (r d fr.sd) (r a fr.sa) (r b fr.sb) t
  | .max st d a b t => .max st (r d fr.sd) (r a fr.sa) (r b fr.sb) t
  | .minu st d a b t => .minu st (r d fr.sd) (r a fr.sa) (r b fr.sb) t
  | .maxu st d a b t => .maxu st (r d fr.sd) (r a fr.sa) (r b fr.sb) t
  | .seq st d a b t => .seq st (r d fr.sd) (r a fr.sa) (r b fr.sb) t
  | .sne st d a b t => .sne st (r d fr.sd) (r a fr.sa) (r b fr.sb) t
  | .slt st d a b t => .slt st (r d fr.sd) (r a fr.sa) (r b fr.sb) t
  | .sltu st d a b t => .sltu st (r d fr.sd) (r a fr.sa) (r b fr.sb) t
  | .slti st d a i => .slti st (r d fr.sd) (r a fr.sa) i
  | .clz st d a t => .clz st (r d fr.sd) (r a fr.sa) t
  | .ctz st d a t => .ctz st (r d fr.sd) (r a fr.sa) t
  | .popc st d a t => .popc st (r d fr.sd) (r a fr.sa) t
  | .bext st d a b => .bext st (r d fr.sd) (r a fr.sa) (r b fr.sb)
  | .bins st d a b => .bins st (r d fr.sd) (r a fr.sa) (r b fr.sb)
  | .sel st d a b => .sel st (r d fr.sd) (r a fr.sa) (r b fr.sb)
  | .movi st d i => .movi st (r d fr.sd) i
  | .leam st d a mf off => .leam st (r d fr.sd) (r a fr.sa) mf off
  | .clmul st d a b => .clmul st (r d fr.sd) (r a fr.sa) (r b fr.sb)
  | .clmulh st d a b => .clmulh st (r d fr.sd) (r a fr.sa) (r b fr.sb)
  | .fadd st d a b => .fadd st (r d fr.sd) (r a fr.sa) (r b fr.sb)
  | .fsub st d a b => .fsub st (r d fr.sd) (r a fr.sa) (r b fr.sb)
  | .fmul st d a b => .fmul st (r d fr.sd) (r a fr.sa) (r b fr.sb)
  | .fma st d a b => .fma st (r d fr.sd) (r a fr.sa) (r b fr.sb)
  | .fmin st d a b => .fmin st (r d fr.sd) (r a fr.sa) (r b fr.sb)
  | .fmax st d a b => .fmax st (r d fr.sd) (r a fr.sa) (r b fr.sb)
  | .feq st d a b => .feq st (r d fr.sd) (r a fr.sa) (r b fr.sb)
  | .flt st d a b => .flt st (r d fr.sd) (r a fr.sa) (r b fr.sb)
  | .fle st d a b => .fle st (r d fr.sd) (r a fr.sa) (r b fr.sb)
  | .fcls st d a => .fcls st (r d fr.sd) (r a fr.sa)
  | .fcvt st d a pair sat rm => .fcvt st (r d fr.sd) (r a fr.sa) pair sat rm
  | .vadd st d a b k t => .vadd st (v d fr.sd) (v a fr.sa) (v b fr.sb) k t
  | .vsub st d a b k t => .vsub st (v d fr.sd) (v a fr.sa) (v b fr.sb) k t
  | .vmul st d a b k t => .vmul st (v d fr.sd) (v a fr.sa) (v b fr.sb) k t
  | .vfma st d a b k t => .vfma st (v d fr.sd) (v a fr.sa) (v b fr.sb) k t
  | .vmin st d a b k t => .vmin st (v d fr.sd) (v a fr.sa) (v b fr.sb) k t
  | .vmax st d a b k t => .vmax st (v d fr.sd) (v a fr.sa) (v b fr.sb) k t
  | .vabs st d a k t => .vabs st (v d fr.sd) (v a fr.sa) k t
  | .vneg st d a k t => .vneg st (v d fr.sd) (v a fr.sa) k t
  | .vand st d a b k t => .vand st (v d fr.sd) (v a fr.sa) (v b fr.sb) k t
  | .vor st d a b k t => .vor st (v d fr.sd) (v a fr.sa) (v b fr.sb) k t
  | .vxor st d a b k t => .vxor st (v d fr.sd) (v a fr.sa) (v b fr.sb) k t
  | .vshl st d a b k t => .vshl st (v d fr.sd) (v a fr.sa) (v b fr.sb) k t
  | .vshr st d a b k t => .vshr st (v d fr.sd) (v a fr.sa) (v b fr.sb) k t
  | .vsar st d a b k t => .vsar st (v d fr.sd) (v a fr.sa) (v b fr.sb) k t
  | .vcmpeq st d a b k t => .vcmpeq st (stepField 3 d n fr.sd) (v a fr.sa) (v b fr.sb) k t
  | .vcmplt st d a b k t => .vcmplt st (stepField 3 d n fr.sd) (v a fr.sa) (v b fr.sb) k t
  | .vcmple st d a b k t => .vcmple st (stepField 3 d n fr.sd) (v a fr.sa) (v b fr.sb) k t
  | .vsel st d a b k t => .vsel st (v d fr.sd) (v a fr.sa) (v b fr.sb) k t
  | .vmov st d a k t => .vmov st (v d fr.sd) (v a fr.sa) k t
  | .vperm st d a b k t => .vperm st (v d fr.sd) (v a fr.sa) (v b fr.sb) k t
  | .vslide st d a b k t => .vslide st (v d fr.sd) (v a fr.sa) (v b fr.sb) k t
  | .vredadd st d a k t => .vredadd st (v d fr.sd) (v a fr.sa) k t
  | .vredmax st d a k t => .vredmax st (v d fr.sd) (v a fr.sa) k t
  | .vredmin st d a k t => .vredmin st (v d fr.sd) (v a fr.sa) k t
  | .vscan st d a b k t => .vscan st (v d fr.sd) (v a fr.sa) (v b fr.sb) k t
  | .vcnt st d k t => .vcnt st (v d fr.sd) k t
  | .vcmpr st d a k t => .vcmpr st (v d fr.sd) (v a fr.sa) k t
  | .vidx st d k t => .vidx st (v d fr.sd) k t
  | .vkey st d a k t => .vkey st (v d fr.sd) (v a fr.sa) k t
  | .vhist st d a k t => .vhist st (v d fr.sd) (v a fr.sa) k t
  | .vsumgt st d a k t => .vsumgt st (v d fr.sd) (v a fr.sa) k t
  | .setvl st d a => .setvl st (r d fr.sd) (r a fr.sa)
  | .vcvtB16F32 st d a p k => .vcvtB16F32 st (v d fr.sd) (v a fr.sa) p k
  | .vcvtF16F32 st d a p k => .vcvtF16F32 st (v d fr.sd) (v a fr.sa) p k
  | .vcvtF32B16 st d a p k => .vcvtF32B16 st (v d fr.sd) (v a fr.sa) p k
  | .vcvtF32F16 st d a p k => .vcvtF32F16 st (v d fr.sd) (v a fr.sa) p k
  | .vcvtE4F32 st d a p k => .vcvtE4F32 st (v d fr.sd) (v a fr.sa) p k
  | .vcvtE5F32 st d a p k => .vcvtE5F32 st (v d fr.sd) (v a fr.sa) p k
  | .vcvtF32E4 st d a p k => .vcvtF32E4 st (v d fr.sd) (v a fr.sa) p k
  | .vcvtF32E5 st d a p k => .vcvtF32E5 st (v d fr.sd) (v a fr.sa) p k
  | .vcvtM8F32 st d a p k => .vcvtM8F32 st (v d fr.sd) (v a fr.sa) p k
  | .vcvtF32M8 st d a p k => .vcvtF32M8 st (v d fr.sd) (v a fr.sa) p k
  | .vcvtF4F32 st d a p k => .vcvtF4F32 st (v d fr.sd) (v a fr.sa) p k
  | .vcvtF32F4 st d a p k => .vcvtF32F4 st (v d fr.sd) (v a fr.sa) p k
  | .vcvtF32S32 st d a p k => .vcvtF32S32 st (v d fr.sd) (v a fr.sa) p k
  | .vcvtS32F32 st d a p k => .vcvtS32F32 st (v d fr.sd) (v a fr.sa) p k
  | .vexp st d a k => .vexp st (v d fr.sd) (v a fr.sa) k
  | .vlog2 st d a k => .vlog2 st (v d fr.sd) (v a fr.sa) k
  | .vrcp st d a k => .vrcp st (v d fr.sd) (v a fr.sa) k
  | .vrsq st d a k => .vrsq st (v d fr.sd) (v a fr.sa) k
  | .vtli st d a f k => .vtli st (v d fr.sd) (v a fr.sa) f k
  | .vectorLong st op d a b k t x =>
    .vectorLong st op (if VecOp.dIsMask op then (stepField 3 (d.setWidth 3) n fr.sd).setWidth 5 else v d fr.sd) (v a fr.sa)
      (if VecOp.bIsReg op then v b fr.sb else b) k t
      { x with vc := if op = .vscan then v x.vc fr.sc else x.vc }
  | i => i

/-- What capturing a frame gives. -/
inductive Captured where
  | ok (code : List (Nat × Nat)) (s : State)
  /-- A fault at the offending instruction's address. -/
  | fault (pc : Word) (t : Trap)
  | miss (va : Nat)

namespace State

/-- Capture `n` instructions from an address (R291). -/
def capture (c : Site) (i : Nat) (sd sa sb : BitVec 4) : Nat → State → Word → Captured
  | 0, s, _ => .ok [] s
  | n + 1, s, pc =>
    match s.fetchInstr c i pc with
    | .fault t => .fault pc t
    | .miss v => .miss v
    | .ok w e s =>
      match s.decodeHere w e with
      | none => .fault pc (illTrap w)
      | some x =>
        if !isArith x || stepsPointer sd sa sb x then .fault pc (illTrap w)
        else match capture c i sd sa sb n s (pc + wordOf (wordsSize w)) with
          | .ok code s => .ok ((w, e) :: code) s
          | r => r

/-- A frame that cannot be captured is abandoned, with the saved PC at the offending instruction (R254, R291). -/
def abandonFrame (s : State) (c : Site) (i : Nat) (pc : Word) (t : Trap) : State :=
  (s.modSlot c i fun sl =>
    { (sl.setPc pc).setCb cbRptst 0 with frame := none }).raiseAt c i t

/-- What recapturing a frame gives. -/
inductive Recaptured where
  /-- The frame is in place. -/
  | ok (s : State)
  /-- The slot trapped or parked. -/
  | stopped (s : State)

/-- Capture a frame in progress again after a resume (R210, R292): N and the steps are read from the RPT that precedes
its first instruction. -/
def recapture (s : State) (c : Site) (i : Nat) : Recaptured :=
  let sl := s.slot c i
  let first := sl.pc - wordOf (4 * fieldOf (sl.cbWord cbRptst) 8 6)
  match s.fetchInstr c i (first - 8) with
  | .fault t => .stopped (s.abandonFrame c i (first - 8) t)
  | .miss v => .stopped (s.fetchPark c i v)
  | .ok w e s =>
    match s.decodeHere w e with
    | some (.rpt _ len n sd sa sb sc) =>
      match capture c i sd sa sb (len.toNat + 1) s first with
      | .fault pc t => .stopped (s.abandonFrame c i pc t)
      | .miss v => .stopped (s.fetchPark c i v)
      | .ok code s =>
        if fieldOf (sl.cbWord cbRptst) 16 4 < code.length then
          .ok (s.modSlot c i fun sl => { sl with frame := some ⟨code, n.toNat + 1, sd, sa, sb, sc⟩ })
        else .stopped (s.abandonFrame c i sl.pc (illTrap w))
    | _ => .stopped (s.abandonFrame c i (first - 8) (illTrap w))

end State

end Sys2Proof.Machine
end

