-- ==== Sys2Proof/Machine/Flags.lean ====
section
/-!
DEFINITION. Flags: how an instruction accumulates the sticky flags of STAT (R93), and the flags of each scalar and
vector floating-point operation over codes (R280 to R282, R302, R307).
-/

namespace Sys2Proof.Machine

/-- The union of the flags of several lanes (R302). -/
def flagsOf (l : List Flags) : Flags := l.foldl Flags.or Flags.none

/-- Accumulate flags in a slot's STAT (R93). -/
def Slot.addFlags (sl : Slot) (f : Flags) : Slot := sl.orFlags f.nv f.of_ f.uf f.nx

/-- A floating-point operation on two codes of a format. -/
def codes2 (f : Fmt) (op : Fmt → FV → FV → Nat × Flags) (a b : Nat) : Nat × Flags := op f (f.decode a) (f.decode b)

/-- FMA on codes: a × b + c (R280). -/
def codesFma (f : Fmt) (a b c : Nat) : Nat × Flags := fFma f (f.decode a) (f.decode b) (f.decode c)

/-- A less-than relation on codes: FNV if either is NaN (R280, R310). -/
def codesLt (f : Fmt) (a b : Nat) : Bool × Flags :=
  ((f.decode a).lt (f.decode b), if (f.decode a).isNan || (f.decode b).isNan then Flags.invalid else Flags.none)

/-- A less-or-equal relation on codes. -/
def codesLe (f : Fmt) (a b : Nat) : Bool × Flags :=
  ((f.decode a).le (f.decode b), if (f.decode a).isNan || (f.decode b).isNan then Flags.invalid else Flags.none)

/-- Equality on codes, which sets no flag. -/
def codesEq (f : Fmt) (a b : Nat) : Bool × Flags := ((f.decode a).eq (f.decode b), Flags.none)

namespace State

/-- Accumulate flags in the issuing slot's STAT (R93). -/
def addFlags (s : State) (f : Flags) : State := s.modMe fun sl => sl.addFlags f

/-- Finish an instruction that does not park and has an effect `pre` beside its results: under CHK = 1 a result that an
earlier one would overtake raises STALL_SHORT, and the instruction has no effect (R206). -/
def finishW (s : State) (st : Stall) (len : Nat) (pre : State → State) (rs : List (Nat × List WordWrite)) : State :=
  match if s.me.chk then rs.findSome? (fun (d, ws) => lateDest s.me d ws) else none with
  | some (a, left) => s.raise (s.stallShort a left)
  | none => (pre (rs.foldl (fun s (d, ws) => s.post d ws) s)).retire st len

/-- Finish an instruction that does not park, with flags. -/
def finishF (s : State) (st : Stall) (len : Nat) (fl : Flags) (rs : List (Nat × List WordWrite)) : State :=
  s.finishW st len (fun s => s.addFlags fl) rs

/-- Finish a vector instruction: its result at a distance, pointer increments at distance 1, its flags (R251, R302). A pointer
destination in the own workspace is a self-alias store, which lands before the next instruction issues (R163, R251). -/
def finishV (s : State) (st : Stall) (f : VForm) (p : VPlaces) (dist : Nat) (o : VOut) : State :=
  let ws := s.vWrites f p o
  if p.d.any s.selfAlias then
    s.finishW st f.len (fun s => (s.landAll s.cur.1 s.cur.2 ws).addFlags o.flags) [(1, p.incs)]
  else s.finishF st f.len o.flags [(dist, ws), (1, p.incs)]

/-- Finish a compare: the whole mask register at distance 2 (R310). -/
def finishK (s : State) (st : Stall) (f : VForm) (p : VPlaces) (o : VOut) : State :=
  let w : List WordWrite := if f.d.toNat % 8 = 0 then [] else
    [⟨.mask (f.d.toNat % 8), ⟨wordOf o.value, p.taint || o.poison.any id⟩, wordOf (2 ^ 32 - 1)⟩]
  s.finishF st f.len o.flags [(2, w), (1, p.incs)]

end State

end Sys2Proof.Machine
end

