-- ==== Sys2Proof/Machine/Helpers.lean ====
section
/-!
DEFINITION. Starting and ending what runs in a slot: START, JOIN and EXIT (R202, R212, R213, R375, R376).
-/

namespace Sys2Proof.Machine

namespace State

/-- Free a slot: its reservation ends, and its state is as for a slot that nothing has loaded (R202); the table stays until a
work item starts (R326). -/
def freeSlot (s : State) (c : Site) (i : Nat) : State :=
  (s.dropRsv c i).modSlot c i fun sl => { Slot.reset with
    lastOffer := sl.lastOffer
    table := sl.table
    tablePoison := sl.tablePoison }

/-- Load a FREE slot for a context from a workspace (R212, R401): `pc` other than 0 replaces the control block's PC, RESID
and ACT. The slot's TLB entries of another context leave (R34). -/
def startSlot (s : State) (c : Site) (i ctx gen : Nat) (wp : BitVec 5) (pc : Word) : State :=
  let s := s.modSlot c i fun sl => { sl with
    ctx := ctx
    gen := gen }
  let s := (s.loadSlot c i wp).purgeCore c fun e => e.slot == i && !(e.ctx == ctx && e.gen == gen)
  if pc = 0 then s
  else s.modSlot c i fun sl =>
    ((sl.setPc pc).setStat 24 3 0).setCb cbRptst (setField (sl.cbWord cbRptst) 0 1 0)

/-- The helpers of a core that are live: loaded and not EXITED. -/
def liveHelpers (s : State) (c : Site) : List Nat :=
  (List.range 11).filter fun i => i != 0 && (match (s.slot c i).state with
    | .free | .exited => false
    | _ => true)

/-- The round of a slot's gang closes (R334). -/
def closeRound (s : State) (c : Site) (i : Nat) : State :=
  s.modCore c fun k => { k with round := k.round.filter (·.slot ≠ i) }

/-- EXIT in a helper (R213): the exit value takes the operand's tag, as it issues (R162). -/
def exitHelper (s : State) (a : Reg) (st : Stall) : State :=
  let (c, i) := s.cur
  let v := s.reg a
  let s := ((s.drainResults c i).closeRound c i).retire st 4
  (s.modSlot c i fun sl => { sl with
    exitVal := v
    state := .exited }).writeBack c i

/-- EXIT in the control context, once no helper is live (R213): the EXITED helpers are joined, the slot is freed, and the
launch sequencer is told. No completion waits for the boot program's stores, which stand in memory when its last slot exits (R446): its
EXIT has them accepted (log entry 21). -/
def exitControl (s : State) (st : Stall) : State :=
  let c := s.cur.1
  let s := if (s.core c).placed.isNone then s.drain fun r => r.core == c else s
  let s := (((s.drainResults c 0).closeRound c 0).retire st 4).writeBack c 0
  let s := (List.range 11).foldl (fun s i => if (s.slot c i).state == .exited then s.freeSlot c i else s) s
  (s.freeSlot c 0).modCore c fun k => { k with placed := k.placed.map fun p => { p with exited := true } }

end State

/-- EXIT (R213): not a use of its operand. It waits for the slot's matrix operations (R334), and in the control context
for every live helper. -/
def execExit (st : Stall) (a : Reg) (s : State) : Out :=
  .next (s.readCheck (s.regDests [a])
    (if s.cur.2 = 0 && !(s.liveHelpers s.cur.1).isEmpty then s.parkMe .exit
     else if s.matPending (fun _ => true) then s.parkMe (.matrix .drained)
     else if s.cur.2 = 0 then s.exitControl st
     else s.exitHelper a st))

/-- START (R212, R375): a dormant fibre that it resumes waits for the status of its accepted pool command (R237). -/
def execStart (st : Stall) (d a b c : Reg) (s : State) : Out :=
  let h := (s.reg a).val.toNat
  let pc := (s.reg b).val
  let wp := (s.reg c).val
  .next (s.useRegs [a, b, c]
    (if s.cur.2 ≠ 0 ∨ h = 0 ∨ h > 10 then s.raiseIll (.start st d a b c)
     else if pc.toNat % 4 ≠ 0 then s.raise (State.alignTrap pc 4 2)
     else if !State.wpOk wp then s.raise (ownTrap 4 0xC wp 0 3)
     else s.withRelease .dev fun s =>
       if (s.slot s.cur.1 h).state = .free then
         let s := s.startSlot s.cur.1 h s.me.ctx s.me.gen (wp.setWidth 5) pc
         (if pc = 0 then s.resumeSlot s.cur.1 h else s).done 8 (s.wr d 0 false)
       else s.done 8 (s.wr d 1 false)))

/-- JOIN (R213, R376). -/
def execJoin (st : Stall) (d a : Reg) (s : State) : Out :=
  let h := (s.reg a).val.toNat
  .next (s.useRegs [a]
    (if s.cur.2 ≠ 0 ∨ h = 0 ∨ h > 10 then s.raiseIll (.join st d a)
     else
       let sl := s.slot s.cur.1 h
       match sl.state with
       | .free => s.done 4 (s.wr d (wordOf (2 ^ 63 + 1)) false)
       | .exited =>
         (s.freeSlot s.cur.1 h).done 4 (s.wr d (setField sl.exitVal.val 63 1 0) sl.exitVal.poison)
       | _ => s.parkMe (.join h)))

end Sys2Proof.Machine
end

