-- ==== Sys2Proof/Machine/Launch.lean ====
section
/-!
DEFINITION. Launch (R377, R392 to R403, R451): the launch record and its checks, a die's queues, Choose, placement, work
items and their identifiers, iterations and the completion signal.
-/

namespace Sys2Proof.Machine

/-! ### The record (R392 to R395) -/

/-- The LEVEL and WIDTH of descriptor `i` of a record's WID (R392). -/
def widField (w1 : Word) (i : Nat) : Nat × Nat := (fieldOf w1 (9 * i + 6) 3, fieldOf w1 (9 * i) 6)

/-- The descriptors of a record, from bit 0 upward; those of WIDTH 0 are absent (R393). -/
def widFields (w1 : Word) : List (Nat × Nat) := ((List.range 6).map (widField w1)).filter (·.2 ≠ 0)

/-- The total WIDTH of the descriptors of a level. -/
def widLevel (w1 : Word) (level : Nat) : Nat := ((widFields w1).filter (·.1 = level)).foldl (fun n f => n + f.2) 0

/-- How many descriptors name a level. -/
def widCount (w1 : Word) (level : Nat) : Nat := ((widFields w1).filter (·.1 = level)).length

namespace LaunchRec

/-- Word `i` of the record. -/
def word (r : LaunchRec) (i : Nat) : Word := r.words.getD i 0

/-- CODE. -/
def code (r : LaunchRec) : Word := wordOf (fieldOf (r.word 0) 0 48)
/-- CLASS. -/
def cls (r : LaunchRec) : Nat := fieldOf (r.word 1) 62 2
/-- GANG: the number of clusters of a gang is 2^GANG. -/
def gang (r : LaunchRec) : Nat := fieldOf (r.word 1) 60 2
/-- WAIT, as an address; 0 for none. -/
def wait (r : LaunchRec) : Word := wordOf (fieldOf (r.word 2) 4 44 * 16)
/-- AGE in cycles; 0 means 1,024 units. -/
def age (r : LaunchRec) : Nat := (if fieldOf (r.word 3) 48 16 = 0 then 1024 else fieldOf (r.word 3) 48 16) * 1024
/-- DONE, as an address; 0 for none. -/
def done (r : LaunchRec) : Word := wordOf (fieldOf (r.word 3) 4 44 * 16)
/-- WS, as an address; 0 for an all-zero template. -/
def ws (r : LaunchRec) : Word := wordOf (fieldOf (r.word 4) 12 36 * 4096)
/-- MBXi: bits [24i + 23 : 24i] of words 5 to 7. -/
def mbx (r : LaunchRec) (i : Nat) : Word :=
  let v := (r.word 5).toNat + (r.word 6).toNat * 2 ^ 64 + (r.word 7).toNat * 2 ^ 128
  wordOf (v / 2 ^ (24 * i) % 2 ^ 24)

/-- Work items per gang, gangs per die, dies and iterations (R395). -/
def items (r : LaunchRec) : Nat := 2 ^ widLevel (r.word 1) 2
/-- Gangs per die. -/
def gangs (r : LaunchRec) : Nat := 2 ^ (widLevel (r.word 1) 3 + widLevel (r.word 1) 4)
/-- Dies. -/
def dies (r : LaunchRec) : Nat := 2 ^ widLevel (r.word 1) 5
/-- Iterations. -/
def iterations (r : LaunchRec) : Nat := 2 ^ widLevel (r.word 1) 0

end LaunchRec

/-- Is a record's layout refused as BADREC (R392, R393)? -/
def badRecord (w : List Word) : Bool :=
  let g (i : Nat) : Word := w.getD i 0
  let w1 := g 1
  let gap := (List.range 6).any fun i => (widField w1 i).2 == 0 && (List.range 6).any fun j => decide (i < j) && (widField w1 j).2 != 0
  fieldOf (g 0) 0 2 != 0 || fieldOf w1 62 2 == 3 || fieldOf w1 60 2 == 3 || fieldOf w1 54 3 != 0 || fieldOf (g 2) 0 4 != 0 ||
    fieldOf (g 3) 0 4 != 0 || fieldOf (g 4) 48 16 != 0 || fieldOf (g 4) 0 12 != 0 || gap ||
    (widFields w1).any (fun f => decide (f.1 ≥ 6)) || decide ((widFields w1).foldl (fun n f => n + f.2) 0 > 64) ||
    [1, 2, 3, 4, 5].any (fun l => decide (widCount w1 l > 1)) || (widCount w1 3 != 0 && widCount w1 4 != 0) ||
    (widCount w1 4 != 0 && fieldOf w1 60 2 != 0) || decide (widLevel w1 2 > 3 + fieldOf w1 60 2) || decide (widLevel w1 5 > 2)

/-- The WID of a work item (R220, R401): its fields from bit 0 upward. The SEQ fields hold the iteration as one counter,
the lowest field varying fastest. -/
def widOf (die gang member : Nat) : List (Nat × Nat) → Nat → Nat → Nat
  | [], _, _ => 0
  | (level, width) :: rest, seq, pos =>
    let v := match level with
      | 0 => seq % 2 ^ width
      | 2 => member
      | 3 | 4 => gang
      | 5 => die
      | _ => 0
    v % 2 ^ width * 2 ^ pos + widOf die gang member rest (if level = 0 then seq / 2 ^ width else seq) (pos + width)

namespace State

/-! ### Queues (R394, R396, R398, R400) -/

/-- Is a record the head of its queue on a die (R396)? -/
def isHead (d : Die) (r : LaunchRec) : Bool :=
  match d.queue.find? fun q => q.ctx == r.ctx && q.prio == r.prio with
  | some q => q.n == r.n
  | none => false

/-- Each head waits from the cycle it became head; every other record waits for nothing (R400, R451). -/
def markHeads (s : State) (die : Nat) : State :=
  let mark (d : Die) (r : LaunchRec) : LaunchRec :=
    if (isHead d r) then { r with headSince := some (r.headSince.getD s.cyc) }
    else
      { r with
        headSince := none
        toldWait := false
        toldWs := false
        waitAt := none
        released := false }
  s.modDie die fun d => { d with queue := d.queue.map (mark d) }

/-- The key of PASS[c, p]. -/
def passKey (ctx prio : Nat) : Nat := ctx * 8 + prio

/-- Append a record to its queue. A queue that turns non-empty has its PASS raised to the least PASS among contexts with
non-empty queues at that priority (R398). -/
def enqueueRec (s : State) (die : Nat) (r : LaunchRec) : State :=
  let d := s.die die
  let raise (p : List (Nat × Nat)) : List (Nat × Nat) :=
    if d.queue.any fun q => q.ctx == r.ctx && q.prio == r.prio then p
    else
      match (d.queue.filter (·.prio = r.prio)).map fun q => aget p 0 (passKey q.ctx r.prio) with
      | [] => p
      | x :: l => aset p (passKey r.ctx r.prio) (max (aget p 0 (passKey r.ctx r.prio)) (l.foldl min x))
  (s.modDie die fun d => { d with
    queue := d.queue ++ [r]
    pass := raise d.pass }).markHeads die

/-- The lowest number from 1 to 0xFFFF that names no live group (R394). -/
def freeGroup (k : Ctx) : Option Nat := (List.range (k.groups.length + 1)).findSome? fun j =>
  if (k.groups.any fun g => g.1 == j + 1) || decide (j + 1 > 0xFFFF) then none else some (j + 1)

/-- The group that a launch joins or forms: none for NOGROUP (R394). -/
def groupOf (k : Ctx) (w0 : Word) : Option Nat :=
  let n := fieldOf w0 48 16
  if n = 0 then freeGroup k else if k.groups.any fun g => g.1 == n then some n else none

/-- Count a launch in its group. -/
def joinGroup (k : Ctx) (n : Nat) : Ctx := { k with groups := aset k.groups n (aget k.groups 0 n + 1) }

/-- A launch of a group ends; the group goes with its last launch (R394). -/
def leaveGroup (k : Ctx) (n : Nat) : Ctx :=
  { k with groups := if aget k.groups 0 n ≤ 1 then adel k.groups n else aset k.groups n (aget k.groups 0 n - 1) }

/-- LAUNCH of a record read at an address (R377, R393, R394, R403). -/
def launchMe (s : State) (d : Reg) (va : Word) (l : List Tagged) : State :=
  let w := l.map (·.val)
  let k := s.myCtx
  let prio := fieldOf (w.getD 1 0) 57 3
  let fail (code : Nat) : State := s.done 4 (s.wr d (wordOf (2 ^ 63 + code)) false)
  if l.any (·.poison) || badRecord w then fail 1
  else if !k.prioMask.testBit prio then fail 2
  else match groupOf k (w.getD 0 0) with
    | none => fail 3
    | some g =>
      if k.left .launches = 0 then s.raise (budgetTrap .launches 1)
      else
        let s := (s.charge s.me.ctx .launches 1).modCtx s.me.ctx fun k => joinGroup k g
        let (n, s) := s.fresh
        let r : LaunchRec := ⟨n, s.me.ctx, s.me.gen, va, w, prio, g, none, false, false, none, false⟩
        (s.enqueueRec (Site.die s.cur.1) r).done 4 (s.wr d (wordOf g) false)

/-- Change a queued record. -/
def modRec (s : State) (die n : Nat) (f : LaunchRec → LaunchRec) : State :=
  s.modDie die fun d => { d with queue := d.queue.map fun r => if r.n = n then f r else r }

/-- A head that has waited its AGE moves to the tail of the queue one priority up (R400). -/
def promote (s : State) (die : Nat) : State :=
  match (s.die die).queue.find? fun r => decide (r.prio < 7) && r.headSince.any fun t => decide (t + r.age ≤ s.cyc) with
  | none => s
  | some r =>
    (s.modDie die fun d => { d with queue := d.queue.filter (·.n ≠ r.n) }).enqueueRec die
      { r with
        prio := r.prio + 1
        headSince := none
        toldWait := false
        toldWs := false
        waitAt := none
        released := false }

/-! ### Failed translations (R451) -/

/-- A notice of the sequencer for a record's issuing context (R451): to the owner's reflection target, and up from
there; Akmon receives what the root owns (R225). The machine check of a walk is logged (R234). The issuing context is not stopped. -/
def seqNotice (s : State) (ctx gen : Nat) (t : Trap) : State :=
  let (s, t) := s.withRecord t ctx gen
  let o : Origin := ⟨ctx, gen, 0, 15⟩
  let up (s : State) (n : Nat) : State := (s.climb t o 9 n).1
  let own : State :=
    if (s.ctx ctx).depth = 0 then s.toAkmon t ctx gen 15
    else match s.takeAt t o ctx (s.ctx ctx).reflect with
      | some s => s
      | none => up s ctx
  match t.owner with
  | .own => own
  | .parent => up s ctx
  | .depth n => up s (s.childAt n 8 ctx)
  | .partition => if (s.ctx ctx).depth ≤ 1 then own else up s (s.childAt 1 8 ctx)
  | .root => s.toAkmon t ctx gen 15

/-- The guest-physical address at which stage 2 does not permit a translation: that of the table entry, or of the leaf. -/
def stopGpa (s : State) (ctx va : Nat) (k : Kind) : Nat → Nat → Nat
  | 0, _ => 0
  | n + 1, table =>
    let level := 4 - n
    let gpa := table * 4096 + s1Index va level * 8
    match s.readTable [] ctx va k gpa with
    | .error _ => gpa
    | .ok (e, _) =>
      let size := leafSize e level
      if e.getLsbD 6 then fieldOf e 12 28 * 4096 / size * size + va % size else stopGpa s ctx va k n (fieldOf e 12 28)

/-- A translation of the sequencer has failed (R451): FLT2 is the guest-physical address where it is known, that of a permission that
stage 2 lacks too. -/
def seqFail (s : State) (r : LaunchRec) (va : Word) (k : Kind) (t : Trap) : State :=
  s.seqNotice r.ctx r.gen (if t.cause = 4 ∧ t.detail = 6 then
      { t with info := wordOf (s.stopGpa r.ctx va.toNat k 4 (s.ctx r.ctx).s1root) }
    else t)

/-- Test a head's wait signal (R397): is it released? A word that returns poison releases nothing. From now on its bank tests it
after every write; none does where the address does not translate. -/
def testWait (s : State) (die : Nat) (r : LaunchRec) : State × Bool :=
  if r.wait = 0 ∨ r.released then (s, true)
  else match s.translateDirect r.ctx r.wait .read with
    | .error t =>
      let s := s.modRec die r.n fun r => { r with
        toldWait := true
        waitAt := none }
      (if r.toldWait then s else s.seqFail r r.wait .read t, false)
    | .ok (a, _, s) =>
      let s := s.touchWords a 8
      let free := !(s.bankWord a).poison && (s.bankWord a).val.sle r.waitVal
      (s.modRec die r.n fun r => { r with
        toldWait := false
        waitAt := some a
        released := free }, free)

/-- Every head whose wait signal no bank tests yet is tested: when it becomes head, and again after a failure (R397, R451). -/
def testHeads (s : State) (die : Nat) : State :=
  (s.die die).queue.foldl (fun s r =>
    if isHead (s.die die) r && r.waitAt.isNone && !s.isStopped 8 r.ctx then (s.testWait die r).1 else s) s

/-- Read a record's workspace template (R401, R451): none where it does not translate. -/
def readTemplate (s : State) (die : Nat) (r : LaunchRec) : State × Option (List Byte) :=
  if r.ws = 0 then (s, some [])
  else match s.translateDirect r.ctx r.ws .read with
    | .error t =>
      if r.toldWs then (s, none) else ((s.modRec die r.n fun r => { r with toldWs := true }).seqFail r r.ws .read t, none)
    | .ok (a, _, s) =>
      let s := if r.toldWs then s.modRec die r.n fun r => { r with toldWs := false } else s
      let s := s.touchWords a 4096
      (s, some (mread s.mem a 4096))

/-! ### Placement (R399) -/

/-- The context that holds a core: the last of its grant chain, or the root (R32). -/
def holder (s : State) (c : Site) : Nat × Nat := ((s.core c).chain.getLast?).getD (0, (s.ctx 0).gen)

/-- Is a cluster free for a context (R399)? -/
def clusterFree (s : State) (ctx gen n : Nat) : Bool :=
  (s.liveIn (8 * n) 8).all (fun t => s.holder t == (ctx, gen) && (s.slot t 0).state == .free) &&
    !s.dies.any fun (_, d) => d.running.any (·.clusters.contains n)

/-- The gang positions of a die that are free for a record, in ascending row and then x: the first cluster and the live
sites (R399). -/
def positions (s : State) (r : LaunchRec) (die : Nat) : List (Nat × List Site) :=
  let size := 2 ^ r.gang
  ((List.range 32).flatMap fun y => (List.range (4 / size)).map fun j => (y, die * 128 + y * 4 + j * size)).filterMap
    fun (y, n) =>
      let q := y % 4 == 3
      let live := s.liveIn (8 * n) (8 * size)
      if (r.cls == 2 || (r.cls == 1) == q) && ((List.range size).all fun j => s.clusterFree r.ctx r.gen (n + j)) &&
          decide (r.items ≤ live.length) then some (n, live)
      else none

/-- The dies a record is placed on: the sequencer's own, or the first of the context's die mask (R399). -/
def launchDies (s : State) (r : LaunchRec) (die : Nat) : Option (List Nat) :=
  if widCount (r.word 1) 5 = 0 then some [die]
  else
    let l := (List.range 4).filter fun d => (s.ctx r.ctx).dieMask.testBit d
    if l.length < r.dies then none else some (l.take r.dies)

/-- The gangs of a record on some dies, numbered from die index `k`: die index, gang index, members; and the clusters it
occupies. None where a die has too few positions. -/
def gangsOn (s : State) (r : LaunchRec) : List Nat → Nat → Option (List (Nat × Nat × List Site) × List Nat)
  | [], _ => some ([], [])
  | d :: rest, k =>
    let ps := (s.positions r d).take r.gangs
    if ps.length < r.gangs then none
    else match gangsOn s r rest (k + 1) with
      | none => none
      | some (g, cl) =>
        some (((List.range r.gangs).zip ps).map (fun (j, _, live) => (k, j, live.take r.items)) ++ g,
          (ps.flatMap fun (n, _) => (List.range (2 ^ r.gang)).map (n + ·)) ++ cl)

/-- Where a record's whole shape can be placed now (R398, R399). -/
def fits (s : State) (die : Nat) (r : LaunchRec) : Option (List (Nat × Nat × List Site) × List Nat) :=
  match s.launchDies r die with
  | none => none
  | some l => s.gangsOn r l 0

/-! ### Work items (R401) -/

/-- Load slot 0 of a core with a record's program (R401, R445): the template in S block 11 with every word full and clean,
the tables INVALID, the control block, w1, w2, and READY. -/
def loadItem (s : State) (r : LaunchRec) (tpl : List Byte) (w1 : Word) (c : Site) : State :=
  let base := wsBase c 0x1B
  let s := (List.range 512).foldl (fun s i =>
    s.engineWrite (base + 8 * i) ⟨wordOf (bytesNat ((tpl.drop (8 * i)).take 8)), false⟩) s
  let s := (List.range 11).foldl (fun s i => s.modSlot c i fun sl => { sl with
    table := none
    tablePoison := false }) s
  let s := s.startSlot c 0 r.ctx r.gen 0x1B 0
  let s := s.modSlot c 0 fun sl =>
    let sl := (((sl.setPc r.code).setStat 24 3 0).setStat 8 1 0).setCb cbRptst 0
    { ((List.range 8).foldl (fun sl i => sl.setCb (cbMbx + i) (r.mbx i)) sl) with
      state := if s.isStopped 8 r.ctx then .halted else .ready }
  s.landAll c 0 (s.regWrite c 0 1 ⟨w1, false⟩ ++ s.regWrite c 0 2 ⟨r.addr, false⟩)

/-- Start a work item on its core (R401). -/
def startItem (s : State) (run : Running) (k j m : Nat) (c : Site) : State :=
  let r := run.rec_
  let wid := widOf k j m (widFields (r.word 1)) run.iteration 0
  (s.loadItem r run.template (wordOf wid) c).modCore c fun x => { x with
    placed := some ⟨r.n, k * 2 ^ 16 + j, m, false⟩
    group := some (r.ctx, r.group) }

/-- Start every work item of an iteration. -/
def startItems (s : State) (run : Running) : State :=
  run.gangs.foldl (fun s (k, j, l) => ((List.range l.length).zip l).foldl (fun s (m, c) => s.startItem run k j m c) s) s

/-- SW(c): WEIGHT less what is carved to its children, at least 1 (R398). -/
def schedWeight (k : Ctx) : Nat := max 1 (k.left .weight)

/-- Place an eligible record (R398, R401). -/
def place (s : State) (die : Nat) (r : LaunchRec) (tpl : List Byte) (g : List (Nat × Nat × List Site) × List Nat) : State :=
  let run : Running := { rec_ := r, template := tpl, gangs := g.1, clusters := g.2, iteration := 0, ended := false, decrement := none }
  let items := r.items * r.gangs * r.dies
  let sw := schedWeight (s.ctx r.ctx)
  let s := s.modDie die fun d => { d with
    queue := d.queue.filter (·.n ≠ r.n)
    running := d.running ++ [run]
    pass := aset d.pass (passKey r.ctx r.prio) (aget d.pass 0 (passKey r.ctx r.prio) + (2 ^ 20 * items + sw - 1) / sw) }
  (s.startItems run).markHeads die

/-- The heads of a priority that are eligible, by ascending context number: their templates and places (R398). -/
def eligible (die : Nat) : List LaunchRec → State →
    State × List (LaunchRec × List Byte × (List (Nat × Nat × List Site) × List Nat))
  | [], s => (s, [])
  | r :: rest, s =>
    let k := s.ctx r.ctx
    if !k.live || k.gen ≠ r.gen || s.isStopped 8 r.ctx then eligible die rest s
    else match s.testWait die r with
      | (s, false) => eligible die rest s
      | (s, true) => match s.fits die r with
        | none => eligible die rest s
        | some g => match s.readTemplate die r with
          | (s, none) => eligible die rest s
          | (s, some tpl) => match eligible die rest s with
            | (s, l) => (s, (r, tpl, g) :: l)

/-- Insert a record by context number. -/
def recInsert (r : LaunchRec) : List LaunchRec → List LaunchRec
  | [] => [r]
  | x :: t => if r.ctx ≤ x.ctx then r :: x :: t else x :: recInsert r t

/-- Choose from priority p − 1 downward (R398). -/
def chooseFrom : Nat → State → Nat → State
  | 0, s, _ => s
  | p + 1, s, die =>
    let d := s.die die
    let heads := (d.queue.filter fun r => r.prio == p && isHead d r).foldr recInsert []
    match eligible die heads s with
    | (s, []) => chooseFrom p s die
    | (s, x :: l) =>
      let pass (r : LaunchRec) : Nat := aget (s.die die).pass 0 (passKey r.ctx p)
      let (r, tpl, g) := l.foldl (fun b y => if pass y.1 < pass b.1 then y else b) x
      s.place die r tpl g

/-- Choose (R398). -/
def choose (s : State) (die : Nat) : State := chooseFrom 8 s die

/-! ### Iterations (R402, R448) -/

/-- The cores of a running launch's work items. -/
def runCores (run : Running) : List Site := run.gangs.flatMap fun g => g.2.2

/-- Has every work item of a launch exited (R402)? -/
def allExited (s : State) (run : Running) : Bool :=
  (runCores run).all fun c => (s.core c).placed.any fun p => p.launch == run.rec_.n && p.exited

/-- Have the accesses and engine commands of a launch's work items settled, as FENCE.E.DEV has it (R402)? -/
def allSettled (s : State) (run : Running) : Bool :=
  !(s.reqs.any fun r => (runCores run).contains r.core && r.ctx == run.rec_.ctx) &&
    !s.clusters.any fun (_, k) => k.engine.any fun e => (runCores run).contains e.core && e.ctx == run.rec_.ctx

/-- Discard every entry in the queues of a placement group (R448). -/
def dropPorts (s : State) (g : Nat × Nat) : State :=
  { s with cores := s.cores.map fun (c, k) => (c, if k.group == some g then { k with ports := [] } else k) }

/-- The completion decrement of a launch is under way: its request, none where it makes none (R402, R451). -/
def completeSignal (s : State) (run : Running) : State × Option Nat :=
  let r := run.rec_
  if r.done = 0 then (s, none)
  else match s.translateDirect r.ctx r.done .write with
    | .error t => (s.seqFail r r.done .write t, none)
    | .ok (a, v, s) =>
      let (n, s) := s.fresh
      ({ s with reqs := s.reqs ++ [⟨n, (runCores run).headD 0, 15, r.ctx, r.gen, a, natBytes 8 0, [false], none, some 1, r.done, v⟩] },
        some n)

/-- Change a running launch. -/
def modRun (s : State) (die n : Nat) (f : Running → Running) : State :=
  s.modDie die fun d => { d with running := d.running.map fun x => if x.rec_.n = n then f x else x }

/-- The cores of a launch are placed no longer. -/
def unplace (s : State) (run : Running) : State :=
  (runCores run).foldl (fun s c => s.modCore c fun k => { k with placed := none }) s

/-- The members of a launch leave their placement group (R448). -/
def leaveCores (s : State) (run : Running) : State :=
  (runCores run).foldl (fun s c => s.modCore c fun k => { k with group := none }) s

/-- A launch is over: its budget is returned and its group loses it (R394, R403). -/
def closeLaunch (s : State) (die : Nat) (run : Running) : State :=
  let r := run.rec_
  let s := s.modDie die fun d => { d with running := d.running.filter (·.rec_.n ≠ r.n) }
  (s.refund r.ctx .launches 1).modCtx r.ctx fun k => leaveGroup k r.group

/-- After the last iteration a launch's clusters are free and its completion signal is decremented (R402); the launch is over
once a bank has accepted the decrement. -/
def endLaunch (s : State) (die : Nat) (run : Running) : State :=
  let (s, n) := (s.unplace run).completeSignal run
  match n with
  | none => s.closeLaunch die run
  | some _ => s.modRun die run.rec_.n fun x => { x with
      gangs := []
      clusters := []
      decrement := n }

/-- The end of an iteration of a launch (R402, R448): the next iteration, or the launch's end, once everything that its work items
issued has settled. -/
def endIteration (s : State) (die : Nat) (run : Running) : State :=
  let r := run.rec_
  match run.decrement with
  | some n => if s.reqs.any (·.n == n) then s else s.closeLaunch die run
  | none =>
    if run.ended then (if s.allSettled run then s.endLaunch die run else s)
    else if !s.allExited run then s
    else
      let s := s.dropPorts (r.ctx, r.group)
      if run.iteration + 1 < r.iterations then
        let run := { run with iteration := run.iteration + 1 }
        (s.modRun die r.n fun _ => run).startItems run
      else
        let run := { run with ended := true }
        let s := (s.leaveCores run).modRun die r.n fun _ => run
        if s.allSettled run then s.endLaunch die run else s

/-- The running launch with a number, and its die. -/
def runningN (s : State) (n : Nat) : Option (Nat × Running) :=
  s.dies.findSome? fun (d, k) => (k.running.find? (·.rec_.n = n)).map fun run => (d, run)

end State

/-- LAUNCH (R377). -/
def execLaunch (_st : Stall) (d a : Reg) (s : State) : Out :=
  let va := (s.reg a).val
  .next (s.useRegs [a] (s.withBlock va 64 8 fun l s => s.launchMe d va l))

/-- SEQUENCER_CHOOSE (R398). -/
def execSequencerChoose (die : Nat) (s : State) : Out := .next (s.choose die)

/-- AGE_PROMOTION (R400). -/
def execAgePromotion (die : Nat) (s : State) : Out := .next (s.promote die)

/-- ITERATION_END (R402). -/
def execIterationEnd (n : Nat) (s : State) : Out :=
  .next (match s.runningN n with
    | some (die, run) => s.endIteration die run
    | none => s)

end Sys2Proof.Machine
end

