-- ==== Sys2Proof/Machine/System.lean ====
section
/-!
DEFINITION. The system operations (R286, R386 to R391, R223, R37): CSRR and CSRW with the registers that have a behaviour
of their own, TRAP, BRK and UPRET, and the invalidations TLBINV and ICINV with their echoes.
-/

namespace Sys2Proof.Machine

namespace State

/-! ### System registers (R386) -/

/-- The lane masks that a control-block word holds (R208). -/
def csrMasks (n : Nat) : List Dest :=
  if cbK ≤ n ∧ n < cbK + 4 then [.mask (2 * (n - cbK)), .mask (2 * (n - cbK) + 1)] else []

/-- The contents of a register outside the control block, for the issuing slot (R386). -/
def csrSystem (s : State) (n : Nat) : Word :=
  let (c, i) := s.cur
  match n with
  | 0x20 => s.me.wp.setWidth 64
  | 0x100 => wordOf s.cyc
  | 0x101 => wordOf (s.logical c)
  | 0x102 => wordOf (Site.die c * 2 ^ 24 + Site.y c * 2 ^ 16 + Site.x c * 2 ^ 8 + i)
  | 0x103 => s.pkg.xsplit
  | 0x104 => s.pkg.featAdv.setWidth 64
  | 0x105 => (s.pkg.featAdv >>> 64).setWidth 64
  | 0x106 => s.pkg.feat.setWidth 64
  | 0x107 => (s.pkg.feat >>> 64).setWidth 64
  | 0x108 => wordOf (s.myCtx.depth * 2 ^ 32 + s.me.ctx * 2 ^ 16 + s.me.gen)
  | 0x110 => s.myCtx.arena1
  | 0x111 => s.myCtx.redrgn
  | _ => 0

/-- A register as CSRR reads it, with the tag of a held control-block word (R165, R386). -/
def csrValue (s : State) (n : Nat) : Tagged :=
  if n < 32 then
    ⟨if n = cbK then setField (s.me.cbWord n) 0 32 (2 ^ 32 - 1) else s.me.cbWord n, s.me.cbPoison.contains n⟩
  else ⟨s.csrSystem n, false⟩

/-- The bits of a control-block word that CSRW writes (R208 to R211, R386); the other bits are kept. -/
def csrwMask (n : Nat) : Word :=
  match n with
  | 0 | 12 | 14 => 0
  | 1 => 0x00FF00F1
  | 13 => 0x11F
  | 16 => 0xFFFFFF
  | 17 => 0xFFFFFF00FFF0FFFF
  | 20 => 0xFFFFFFFF00000000
  | _ => BitVec.allOnes 64

/-- A control-block word after CSRW (R386); VL clamps to 128. -/
def csrwWord (n : Nat) (old v : Word) : Word :=
  let w := (old &&& ~~~csrwMask n) ||| (v &&& csrwMask n)
  if n = cbStat ∧ fieldOf w 16 8 > 128 then setField w 16 8 128 else w

/-- Write a register that has no behaviour of its own (R386): a read-only number is ignored. A held word keeps its poison tag
(R165). -/
def csrWrite (s : State) (n : Nat) (v : Word) : State :=
  if n < 32 ∧ csrwMask n ≠ 0 then
    s.modMe fun sl => sl.setCb n (csrwWord n (sl.cbWord n) v)
  else s

/-- Is the issuing context the root (R386, R452)? -/
def isRoot (s : State) : Bool := s.myCtx.depth == 0

/-- XSPLIT: a write of 17 to 31 stores 16 (R103). -/
def xsplitWrite (s : State) (v : Word) : State :=
  if s.isRoot then s.modPkg fun p => { p with xsplit := wordOf (min 16 (fieldOf v 0 5)) } else s

/-- FEAT: the written bits AND FEATADV with BASE forced to 1, until step 7 of start-up has begun: the root has created a partition
(R272, R436). -/
def featWrite (s : State) (v : Word) (hi : Bool) : State :=
  if s.isRoot && !s.pkg.partitioned then
    s.modPkg fun p =>
      let lo : BitVec 128 := (2 : BitVec 128) ^ 64 - 1
      let new := if hi then (p.feat &&& lo) ||| (v.setWidth 128 <<< 64) else (p.feat &&& ~~~lo) ||| v.setWidth 128
      { p with feat := (new &&& p.featAdv) ||| 1 }
  else s

/-! ### The arena and the reduction region (R387, R388) -/

/-- Does another slot of the issuing context wait in the strand unit (R387)? -/
def strandBusy (s : State) : Bool :=
  s.allSlots.any fun (c, i) => (s.slot c i).wait == some .strand && (s.slot c i).ctx == s.me.ctx && (s.slot c i).gen == s.me.gen

/-- Initialise a context's arena (R127): ANUM rises, LOST clears, the whole range is free, pending frees are discarded. -/
def initArena (k : Ctx) (w0 w1 : Word) : Ctx :=
  let n := fieldOf k.arena1 52 12
  { k with
    arena0 := w0
    arena1 := wordOf ((if n = 4095 then 1 else n + 1) * 2 ^ 52 + fieldOf w1 0 20)
    arenaUsed := []
    frees := [] }

/-- Is an arena request accepted: no reserved bit, and ASIZE not 0 (R387)? -/
def arenaOk (l : List Tagged) : Bool :=
  !l.any (·.poison) && fieldOf (blockWord l 0) 48 16 == 0 && fieldOf (blockWord l 0) 0 16 == 0 &&
    fieldOf (blockWord l 1) 20 44 == 0 && fieldOf (blockWord l 1) 0 20 != 0

/-- CSRW ARENA (R387). -/
def arenaWrite (s : State) (st : Stall) (va : Word) : State :=
  s.withBlock va 16 2 fun l s =>
    if s.strandBusy then s.parkMe .arena
    else
      let s := if arenaOk l then s.modCtx s.me.ctx fun k => initArena k (blockWord l 0) (blockWord l 1) else s
      s.retire st 8

/-- The virtual addresses of the words of a reduction region. -/
def regionWords (r : Word) : List Nat := (List.range (fieldOf r 48 9)).map fun j => fieldOf r 3 45 * 8 + 8 * j

/-- Flush every word of a context's region (R193, R388). -/
def flushRegion (s : State) (ctx : Nat) : State :=
  (regionWords (s.ctx ctx).redrgn).foldl (fun s va => match s.translate ctx va .read false with
    | .ok (e, _) => s.flushWord (s.targetAddr e.target (va % e.size) / 8)
    | .error _ => s) s

/-- MEMBYTES that a region takes: one slot for each live core and word (R191, R403). -/
def regionCharge (s : State) (r : Word) : Nat := fieldOf r 48 9 * s.logical 4096 * Config.redSlotBytes

/-- The region that a write registers: 0 where the count is 0 or above 256, the base is misaligned, or the region
overlaps a registered master (R388). -/
def regionOf (k : Ctx) (v : Word) : Word :=
  let n := fieldOf v 48 9
  let base := fieldOf v 3 45 * 8
  let clash := (masters k).any fun (_, b, nb) => overlaps base (8 * n) b (nb * 4096)
  if n = 0 ∨ n > 256 ∨ fieldOf v 0 3 ≠ 0 ∨ clash then 0 else wordOf (fieldOf v 3 54 * 8)

/-- CSRW REDRGN (R388): flush and deregister, then register; beyond the memory budget it raises BUDGET. -/
def redrgnWrite (s : State) (st : Stall) (v : Word) : State :=
  let n := s.me.ctx
  let old := s.regionCharge s.myCtx.redrgn
  let r := regionOf s.myCtx v
  let new := s.regionCharge r
  if s.myCtx.left .memBytes + old < new then s.raise (budgetTrap .memBytes new)
  else
    let s := (((s.flushRegion n).refund n .memBytes old).charge n .memBytes new).modCtx n fun k => { k with redrgn := r }
    s.retire st 8

/-! ### Invalidation (R37, R286, R391) -/

/-- Is a site among those a scope names (R391)? -/
def siteIn (sc : Scope) (c t : Site) : Bool :=
  match sc with
  | .ctx | .core => t == c
  | .clu => Site.cluster t == Site.cluster c
  | .die => Site.die t == Site.die c
  | .dev | .pool => true

/-- Is a cluster among those a scope names (R391)? -/
def clusterIn (sc : Scope) (c : Site) (n : Nat) : Bool :=
  match sc with
  | .ctx | .core | .clu => n == Site.cluster c
  | .die => n / 128 == Site.die c
  | .dev | .pool => true

/-- Remove TLB entries, the table entries of contexts and instruction-cache lines in a scope. -/
def dropEntries (s : State) (sc : Scope) (c : Site) (p : TlbEntry → Bool) (g : Nat → Nat → Bool) (q : ILine → Bool) : State :=
  let drop : L2Entry → Bool
    | .leaf e => p e
    | .table e => g e.ctx e.gen
  { s with
    cores := s.cores.map fun (t, k) => (t, if siteIn sc c t then
      { k with
        itlb := k.itlb.filter fun e => !p e
        dtlb := k.dtlb.filter fun e => !p e
        slots := k.slots.map fun (i, sl) => (i, { sl with lanes := sl.lanes.filter fun e => !p e })
        icache := k.icache.filter fun l => !q l }
      else k)
    clusters := s.clusters.map fun (n, k) => (n, if clusterIn sc c n then
      { k with
        l2 := k.l2.filter fun e => !drop e
        icache := k.icache.filter fun l => !q l }
      else k) }

/-- The TLB entries in a scope that satisfy a test. -/
def matchingEntries (s : State) (sc : Scope) (c : Site) (p : TlbEntry → Bool) : List TlbEntry :=
  (s.cores.flatMap fun (t, k) => if siteIn sc c t then (k.itlb ++ k.dtlb).filter p else []) ++
    s.clusters.flatMap fun (n, k) => if clusterIn sc c n then (k.l2.filterMap L2Entry.leaf?).filter p else []

/-- Does an instruction-cache line lie on a page that an entry translates? -/
def lineUnder (l : ILine) (e : TlbEntry) : Bool :=
  l.ctx == e.ctx && l.gen == e.gen && decide (e.page ≤ l.line * 64) && decide (l.line * 64 < e.page + e.size)

/-- The shootdown of R37: the entries of the contexts that satisfy a test leave every TLB in a scope, and with them the
instruction-cache lines of their pages (R286). -/
def shootdown (s : State) (sc : Scope) (c : Site) (g : Nat → Nat → Bool) : State :=
  let p (e : TlbEntry) : Bool := g e.ctx e.gen
  let gone := s.matchingEntries sc c p
  s.dropEntries sc c p g fun l => gone.any (lineUnder l)

/-- The sites in a scope that have accesses no bank has accepted: those whose echo is still to come (R37). -/
def echoSites (s : State) (sc : Scope) (c : Site) : List Site :=
  (s.reqs.map (·.core)).eraseDups.filter (siteIn sc c)

/-- Wait for the echoes of a scope, then complete with a result (R37). -/
def awaitEchoes (s : State) (sc : Scope) (d : Reg) (result : Word) (len : Nat) : State :=
  match s.echoSites sc s.cur.1 with
  | [] => s.done len (s.wr d result false)
  | l => s.parkMe (.echoes l d result len)

/-- The context that an invalidation selects: the issuer's, or a child by reference (R391); none for a reference that
names no child. -/
def invTarget (s : State) (v : Word) : Option (Nat × Nat) :=
  if fieldOf v 62 2 = 2 then
    let n := fieldOf v 16 16
    let k := s.ctx n
    if fieldOf v 8 8 = 0 ∧ k.live ∧ k.depth ≠ 0 ∧ k.parent = s.me.ctx ∧ k.gen = fieldOf v 0 8 then some (n, k.gen) else none
  else some (s.me.ctx, s.me.gen)

/-- Does an entry match a selection: a context, and for code 0 the page at [47:12] (R391)? -/
def invEntry (v : Word) (t : Option (Nat × Nat)) (e : TlbEntry) : Bool :=
  t == some (e.ctx, e.gen) &&
    (fieldOf v 62 2 != 0 || (decide (e.page ≤ fieldOf v 12 36 * 4096) && decide (fieldOf v 12 36 * 4096 < e.page + e.size)))

/-- Does an instruction-cache line match a selection (R286)? -/
def invLine (v : Word) (t : Option (Nat × Nat)) (l : ILine) : Bool :=
  t == some (l.ctx, l.gen) && (fieldOf v 62 2 != 0 || l.line / 64 == fieldOf v 12 36)

/-- A site echoes a shootdown once its accesses are accepted (R37): the issuer completes with the last echo. -/
def echo (s : State) (c : Site) (i : Nat) (target : Site) : State :=
  match (s.slot c i).wait with
  | some (.echoes l d r len) =>
    if s.reqs.any (·.core == target) then s
    else match ndel l target with
      | [] => s.complete c i len (s.regWrite c i d ⟨r, false⟩)
      | l => s.modSlot c i fun sl => { sl with wait := some (.echoes l d r len) }
  | _ => s

/-! ### TRAP, BRK, UPRET (R223, R232, R389, R390) -/

/-- BREAK (R234). -/
def breakTrap (n : Nat) (owner : Owner) : Trap :=
  { cause := 0x14, detail := 0, addr := wordOf n, info := 0, owner := owner, acc := 3, straddle := false }

/-- Is the operand of UPRET slot 0 or a FAULTED slot (R390)? -/
def upretSlot (s : State) (h : Word) : Bool :=
  decide (h.toNat ≤ 10) && (h == 0 || (s.slot s.cur.1 h.toNat).state == .faulted)

end State

/-- CSRR (R386): PC reads as the address of the CSRR itself. -/
def execCsrr (st : Stall) (d : Reg) (csr : BitVec 12) (s : State) : Out :=
  let t := s.csrValue csr.toNat
  .next (if csrListed csr then
      s.readCheck (State.csrMasks csr.toNat) (s.finish st 8 [(1, s.wr d t.val t.poison)])
    else s.raiseIll (.csrr st d csr))

/-- CSRW (R386): it takes effect before the next instruction issues. -/
def execCsrw (st : Stall) (a : Reg) (csr : BitVec 12) (s : State) : Out :=
  .next (if csrListed csr then s.useRegs [a] ((s.csrWrite csr.toNat (s.reg a).val).retire st 8)
    else s.raiseIll (.csrw st a csr))

/-- CSRW ARENA (R387). -/
def execArenaInit (st : Stall) (a : Reg) (s : State) : Out := .next (s.useRegs [a] (s.arenaWrite st (s.reg a).val))

/-- CSRW REDRGN (R388). -/
def execRedrgnWrite (st : Stall) (a : Reg) (s : State) : Out := .next (s.useRegs [a] (s.redrgnWrite st (s.reg a).val))

/-- CSRW XSPLIT (R103): ignored outside the root. -/
def execXsplitWrite (st : Stall) (a : Reg) (s : State) : Out :=
  .next (s.useRegs [a] ((s.xsplitWrite (s.reg a).val).retire st 8))

/-- CSRW FEAT (R272): ignored outside the root and while a partition exists. -/
def execFeatWrite (st : Stall) (a : Reg) (hi : Bool) (s : State) : Out :=
  .next (s.useRegs [a] ((s.featWrite (s.reg a).val hi).retire st 8))

/-- TRAP (R389): BREAK with FLT1 0x1_0000 + n, reflected to the parent; the saved PC is the next instruction. -/
def execTrap (st : Stall) (n : BitVec 16) (s : State) : Out :=
  .next ((s.retire st 8).raise (State.breakTrap (0x10000 + n.toNat) .parent))

/-- BRK (R232, R389): BREAK as a notice to the own handler. -/
def execBrk (st : Stall) (n : BitVec 16) (s : State) : Out :=
  .next ((s.retire st 8).raise (State.breakTrap n.toNat .own))

/-- UPRET (R223, R390). -/
def execUpret (st : Stall) (a b : Reg) (s : State) : Out :=
  let h := (s.reg a).val
  let wp := (s.reg b).val
  .next (s.useRegs [a, b]
    (if !s.me.um || !s.upretSlot h then s.raiseIll (.upret st a b)
     else if !State.wpOk wp then s.raise (ownTrap 4 0xC wp 0 3)
     else (s.retire st 8).upcallReturn s.cur.1 h.toNat (wp.setWidth 5)))

/-- TLBINV (R37, R391): a FENCE.DEV, the removal, with the table entries of the selected context, and the echoes of the
scope. -/
def execTlbinv (_st : Stall) (a : Reg) (scope : Scope) (s : State) : Out :=
  let v := (s.reg a).val
  .next (s.useRegs [a] (s.withRelease .dev fun s =>
    let t := s.invTarget v
    let gone := s.matchingEntries scope s.cur.1 (State.invEntry v t)
    (s.dropEntries scope s.cur.1 (State.invEntry v t) (fun n g => t == some (n, g)) fun l =>
      State.invLine v t l || gone.any (State.lineUnder l)).awaitEchoes scope 0 0 8))

/-- ICINV (R286): a FENCE at its scope, and the removal, which holds for every later fetch at once. -/
def execIcinv (_st : Stall) (a : Reg) (scope : Scope) (s : State) : Out :=
  let v := (s.reg a).val
  .next (s.useRegs [a] (s.withRelease scope fun s =>
    (s.dropEntries scope s.cur.1 (fun _ => false) (fun _ _ => false) (State.invLine v (s.invTarget v))).done 8 []))

/-- SHOOTDOWN_ECHO (R37). -/
def execShootdownEcho (core slot target : Nat) (s : State) : Out := .next (s.echo core slot target)

end Sys2Proof.Machine
end

