-- ==== Sys2Proof/Machine/CtxTree.lean ====
section
/-!
DEFINITION. The context tree (R39 to R43, R378 to R385, R403, R404, R411 to R414): creating, giving, revoking, running and
stopping contexts, harvesting dirty bits, reducing stage-2 permissions, enrolling frames, halts and replies.
-/

namespace Sys2Proof.Machine

/-! ### References, budgets, grants -/

/-- A grant record split by a range of frames on one side (R42): the part inside, and what is left. -/
def Grant.cut (r : Grant) (from_ lo hi : Nat) : Option (Nat × Nat × Nat) × List Grant :=
  let a := max from_ lo
  let b := min (from_ + r.count) hi
  if b ≤ a then (none, [r])
  else
    (some (r.child, r.cgfn + (a - from_), b - a),
      (if from_ < a then [{ r with count := a - from_ }] else []) ++
        (if b < from_ + r.count then
          [{ r with
             pgfn := r.pgfn + (b - from_)
             cgfn := r.cgfn + (b - from_)
             count := from_ + r.count - b }]
        else []))

/-- Split a grant table (R41, R42): the parts that satisfy a test, and the table that is left. -/
def splitGrants (p : Grant → Bool) (side : Grant → Nat) (lo hi : Nat) :
    List Grant → List (Nat × Nat × Nat) × List Grant
  | [] => ([], [])
  | r :: t =>
    let (hits, keep) := splitGrants p side lo hi t
    if p r then
      match r.cut (side r) lo hi with
      | (some h, l) => (h :: hits, l ++ keep)
      | (none, l) => (hits, l ++ keep)
    else (hits, r :: keep)

/-- Is every frame of a grant record inside a range, on one side? -/
def Grant.gone (r : Grant) (from_ lo hi : Nat) : Bool := decide (lo ≤ from_) && decide (from_ + r.count ≤ hi)

/-- The records of a table after a range has been taken out of it. A table holds at most 4,096 records (R41); one that would pass
that by a split keeps its records whole, which a later revocation marks again, a choice of the model (log entry 18). -/
def keepGrants (p : Grant → Bool) (side : Grant → Nat) (lo hi : Nat) (l : List Grant) : List Grant :=
  let keep := (splitGrants p side lo hi l).2
  if keep.length ≤ 4096 then keep else l.filter fun r => !(p r && r.gone (side r) lo hi)

/-- A stage-2 entry composed for a child (R40): `perm` holds X, W, R in bits 2 to 0. -/
def composeEntry (e : Word) (perm depth : Nat) (dt : Bool) : Word :=
  let kept := e &&& ~~~(0xF9E : Word)
  let rwx := e &&& wordOf (perm % 8 * 2)
  setField (setField (kept ||| (rwx &&& 0xE)) 7 1 dt.toNat) 8 3 depth

namespace State

/-! ### One operation of a partition at a time (R43, R378) -/

/-- Does a wait hold the tree logic of the issuer's partition, or wait for it? -/
def treeWait : Wait → Bool
  | .tree | .echoes .. | .stop .. | .save => true
  | _ => false

/-- Is an operation of the queue still waiting, or under way? One that has been woken issues again. -/
def treeLive (s : State) (x : Nat × Site × Nat) : Bool :=
  let sl := s.slot x.2.1 x.2.2
  sl.waitSince.isSome && sl.wait.all treeWait

/-- Carry out an operation of the tree logic when no earlier one of the issuer's partition is under way or waits (R43, R378); else
wait for them. One that does not complete at once stays in the queue. -/
def treeTurn (s : State) (k : State → State) : State :=
  let mine := (s.partitionOf 8 s.me.ctx, s.cur.1, s.cur.2)
  let q := s.treeOps.filter fun x => x != mine && s.treeLive x
  let before := (s.treeOps.takeWhile (· != mine)).any fun x => x.1 == mine.1 && s.treeLive x
  if before then
    { s with treeOps := if s.treeOps.contains mine then s.treeOps else q ++ [mine] }.parkMe .tree
  else
    let t := k { s with treeOps := q }
    if (t.slot mine.2.1 mine.2.2).wait.any treeWait then { t with treeOps := mine :: t.treeOps } else t

/-- A waiting operation of the tree logic may issue again: no earlier one of its partition is left. -/
def treeFree (s : State) (c : Site) (i : Nat) : Bool :=
  let mine := (s.partitionOf 8 (s.slot c i).ctx, c, i)
  !(s.treeOps.takeWhile (· != mine)).any fun x => x.1 == mine.1 && s.treeLive x

/-- The child that a context reference names for the issuer (R378). -/
def childRef (s : State) (v : Word) : Option Nat :=
  let n := fieldOf v 16 16
  let k := s.ctx n
  if fieldOf v 32 32 = 0 ∧ fieldOf v 8 8 = 0 ∧ k.live ∧ k.depth ≠ 0 ∧ k.parent = s.me.ctx ∧ k.gen = fieldOf v 0 8 then
    some n
  else none

/-- Complete a CTX operation with a status (R355, R379). -/
def status (s : State) (d : Reg) (len code : Nat) : State := s.done len (s.wr d (wordOf code) false)

/-- Replace a context's grant table; its records are charged to MEMBYTES (R403). -/
def setGrants (s : State) (n : Nat) (l : List Grant) : State :=
  let old := (s.ctx n).grants.length
  let s := s.modCtx n fun k => { k with grants := l }
  (s.charge n .memBytes ((l.length - old) * Config.grantBytes)).refund n .memBytes ((old - l.length) * Config.grantBytes)

/-- Return what a composed frame took: 2 MiB of MEMBYTES, and a pool page for a pool frame (R403). -/
def refundFrame (s : State) (parent : Nat) (e : Word) : State :=
  (s.refund parent .memBytes (2 ^ 21)).refund parent .poolPages (e.getLsbD 6).toNat

/-! ### CTX.NEW (R380) -/

/-- Is a creation block malformed (R380)? -/
def badCreation (l : List Tagged) : Bool :=
  let w (i : Nat) : Word := blockWord l i
  let len := fieldOf (w 1) 24 20
  l.any (·.poison) || fieldOf (w 0) 40 24 != 0 || fieldOf (w 0) 0 12 != 0 || fieldOf (w 1) 44 20 != 0 ||
    fieldOf (w 1) 20 4 != 0 || fieldOf (w 1) 0 20 == 0 || len % 512 != 0 || decide (len < 512) || decide (len > 0x80000) ||
    fieldOf (w 2) 26 38 != 0 || fieldOf (w 2) 21 3 != 0 || fieldOf (w 2) 13 3 != 0 || fieldOf (w 2) 0 8 != 0 ||
    w 6 != 0 || w 7 != 0

/-- The lowest free context number (R380). -/
def freeCtx (s : State) : Option Nat :=
  (List.range (s.ctxs.length + 1)).find? fun n => decide (n < 65536) && !(s.ctx n).live

/-- What a context's budgets give away to a child, in the order of the creation block (R380, R403). -/
def carved (weight children launches mem pool hcap : Nat) : List (Budget × Nat) :=
  [(.weight, weight), (.children, 1 + children), (.launches, launches),
   (.memBytes, mem + Config.metaBytes + Config.handleBytes * hcap), (.poolPages, pool)]

/-- The first budget that a carve exceeds (R380): a CHILDREN limit that is reached first, then the budgets in order. -/
def carveExceeds (left : Budget → Nat) (need : List (Budget × Nat)) : Option Trap :=
  if left .children = 0 then some (budgetTrap .children 1)
  else (need.find? fun (b, n) => decide (left b < n)).map fun (b, n) => budgetTrap b n

/-- The first budget that a creation block exceeds (R380, R403). -/
def creationBudget (k : Ctx) (l : List Tagged) : Option Trap :=
  let w (i : Nat) : Word := blockWord l i
  carveExceeds k.left (carved (fieldOf (w 3) 32 32) (fieldOf (w 3) 16 16) (fieldOf (w 3) 0 16) (w 4).toNat (w 5).toNat
    (fieldOf (w 1) 0 20))

/-- Remove every translation and instruction-cache line of a context number from the device (R39). -/
def purgeNumber (s : State) (n : Nat) : State :=
  s.dropEntries .dev 0 (fun e => e.ctx == n) (fun k _ => k == n) (fun l => l.ctx == n)

/-- Create a child in a free number (R380): stopped, with an empty stage-2 array at a free
place, no dirty tracking and nothing granted. The root's first begins step 7 of start-up (R436). -/
def createCtx (s : State) (n : Nat) (l : List Tagged) : State :=
  let w (i : Nat) : Word := blockWord l i
  let me := s.me.ctx
  let gen := ((s.ctx n).gen + 1) % 256
  let s := if gen = 0 then s.purgeNumber n else s
  let (x, s) := s.placeFrames (fieldOf (w 1) 24 20 / 512) 0
  let depth := s.myCtx.depth + 1
  let s := if depth = 1 then s.modPkg fun p => { p with partitioned := true } else s
  let s := s.modCtx n fun _ => { Ctx.reset with
    live := true
    gen := gen
    depth := depth
    parent := me
    s1root := fieldOf (w 0) 12 28
    s2base := x
    s2len := fieldOf (w 1) 24 20
    reflect := Site.mk (fieldOf (w 2) 24 2) (fieldOf (w 2) 8 5) (fieldOf (w 2) 16 5)
    weight := fieldOf (w 3) 32 32
    children := fieldOf (w 3) 16 16
    launches := fieldOf (w 3) 0 16
    memBytes := (w 4).toNat
    poolPages := (w 5).toNat
    hcap := fieldOf (w 1) 0 20 }
  ((((s.charge me .weight (fieldOf (w 3) 32 32)).charge me .children (1 + fieldOf (w 3) 16 16)).charge me .launches
    (fieldOf (w 3) 0 16)).charge me .memBytes
      ((w 4).toNat + Config.metaBytes + Config.handleBytes * fieldOf (w 1) 0 20)).charge me .poolPages (w 5).toNat

/-- CTX.NEW of a creation block (R380). -/
def newCtx (s : State) (d : Reg) (l : List Tagged) : State :=
  let w2 := blockWord l 2
  let site := Site.mk (fieldOf w2 24 2) (fieldOf w2 8 5) (fieldOf w2 16 5)
  let fail (code : Nat) : State := s.done 4 (s.wr d (wordOf (2 ^ 63 + code)) false)
  if badCreation l then fail 5
  else if s.myCtx.depth ≥ 7 then fail 6
  else match s.freeCtx with
    | none => fail 6
    | some n =>
      if !s.live site || s.holder site != (s.me.ctx, s.me.gen) then fail 7
      else match creationBudget s.myCtx l with
        | some t => s.raise t
        | none =>
          let s := s.createCtx n l
          s.done 4 (s.wr d (wordOf (n * 2 ^ 16 + (s.ctx n).gen)) false)

/-! ### Retirement (R404) -/

/-- May a child be retired: stopped, with no core, frame, queue or live child (R404)? -/
def retirable (s : State) (n : Nat) : Bool :=
  let k := s.ctx n
  k.live && k.depth != 0 && k.stopped && !(s.cores.any fun (_, c) => c.chain.contains (n, k.gen)) &&
    !(k.s2.any fun (_, e) => e.getLsbD 0) && k.prioMask == 0 && k.dieMask == 0 &&
    !s.ctxs.any fun (_, x) => x.live && x.depth != 0 && x.parent == n

/-- Retire a child that may be retired: its budgets return, its launches are discarded, its number is free. -/
def retireCtx (s : State) (n : Nat) : State :=
  if !s.retirable n then s
  else
    let k := s.ctx n
    let p := k.parent
    let s := ((((s.refund p .weight k.weight).refund p .children (1 + k.children)).refund p .launches k.launches).refund p
      .memBytes (k.memBytes + Config.metaBytes + Config.handleBytes * k.hcap)).refund p .poolPages k.poolPages
    let clear (d : Die) : Die :=
      { d with
        queue := d.queue.filter (·.ctx ≠ n)
        running := d.running.filter (·.rec_.ctx ≠ n)
        pass := d.pass.filter fun x => x.1 / 8 ≠ n
        churn := d.churn.filter (·.ctx ≠ n) }
    let s := { s with dies := s.dies.map fun (i, d) => (i, clear d) }
    let s := s.modCtx n fun k =>
      { Ctx.reset with
        gen := k.gen }
    (List.range 4).foldl (fun s i => s.markHeads i) s

/-! ### CTX.GIVE (R40, R41, R381) -/

/-- Does a grant block name a reserved field, an unknown KIND, or a range outside its array or row (R379, R381)?
DEDUCED, log entry 18: the bits of SRC that a KIND does not name are reserved. -/
def badGrant (s : State) (child : Nat) (l : List Tagged) (give : Bool) : Bool :=
  let w (i : Nat) : Word := blockWord l i
  let kind := fieldOf (w 0) 60 4
  let n := (w 3).toNat
  l.any (·.poison) || decide (kind ≥ 3) || fieldOf (w 0) 4 56 != 0 ||
    (kind == 0 && (decide ((w 2).toNat + n > (s.ctx child).s2len) || (give && decide ((w 1).toNat + n > s.myCtx.s2len)))) ||
    (kind == 1 && ((w 1 &&& ~~~(0x31F1F00 : Word)) != 0 || decide (fieldOf (w 1) 8 5 + n > 32))) ||
    (kind == 2 && fieldOf (w 1) 12 52 != 0)

/-- The parent's entries that a grant names, in ascending order. -/
def sourceEntries (s : State) (l : List Tagged) : List Word :=
  (List.range (blockWord l 3).toNat).map fun i => aget s.myCtx.s2 0 ((blockWord l 1).toNat + i)

/-- The status of the first parent frame that cannot be composed (R40). -/
def sourceFault (es : List Word) : Option Nat :=
  (es.find? fun e => !e.getLsbD 0).map fun e => if e.getLsbD 11 then 3 else 2

/-- SHA3-512 over a frame's contents, added to a partition's PMR (R437). -/
def extendPmr (s : State) (child : Nat) (t : Target) : State :=
  let bs := (List.range 512).flatMap fun j => mread s.mem (s.targetAddr (targetPlus t (4096 * j)) 0) 4096
  s.modCtx child fun k => { k with
    pmr := Config.sha3 (natBytes 64 k.pmr.toNat ++ natBytes 64 (Config.sha3 bs).toNat) }

/-- Dirty tracking is given to a context (R18, R27): its sub-bitmap array gets a place, which is free. -/
def trackDirty (s : State) (n : Nat) (dt : Bool) : State :=
  if dt && (s.ctx n).darr == 0 then
    let (x, s) := s.placeFrames ((s.ctx n).s2len / 64) 1
    s.modCtx n fun k => { k with darr := x }
  else s

/-- Dirty tracking of a context is off once no valid entry of its has DT = 1: DARR is 0 (R18), and no sub-bitmap is left. DEDUCED, log
entry 23: the spec does not say when it goes off. -/
def endTracking (s : State) (n : Nat) : State :=
  if (s.ctx n).darr == 0 || (s.ctx n).s2.any fun (_, e) => e.getLsbD 0 && e.getLsbD 7 then s
  else s.modCtx n fun k => { k with
    darr := 0
    sub := [] }

/-- Compose one frame for a child (R40). -/
def composeFrame (s : State) (child cgfn : Nat) (e : Word) (perm : Nat) (dt : Bool) : State :=
  let me := s.me.ctx
  let c := composeEntry e perm s.myCtx.depth dt
  let old := aget (s.ctx child).s2 0 cgfn
  let s := if old.getLsbD 0 then s.refundFrame me old else s
  let s := ((s.trackDirty child dt).s2Write child cgfn c).subWrite child cgfn 0
  let s := (s.charge me .memBytes (2 ^ 21)).charge me .poolPages (e.getLsbD 6).toNat
  if s.myCtx.depth = 0 && c.getLsbD 3 then
    match s.s2Target c with
    | some t => s.extendPmr child t
    | none => s
  else s

/-- The budget that a grant of frames exceeds, less what the entries it overwrites return (R381, R403). -/
def frameBudget (s : State) (child : Nat) (l : List Tagged) (es : List Word) : Option Trap :=
  let olds := ((List.range es.length).map fun i => aget (s.ctx child).s2 0 ((blockWord l 2).toNat + i)).filter (·.getLsbD 0)
  let mem := 2 ^ 21 * es.length + Config.grantBytes
  let pool := (es.filter (·.getLsbD 6)).length
  if s.myCtx.left .memBytes + 2 ^ 21 * olds.length < mem then some (budgetTrap .memBytes mem)
  else if s.myCtx.left .poolPages + (olds.filter (·.getLsbD 6)).length < pool then some (budgetTrap .poolPages pool)
  else none

/-- GIVE of FRAMES (R40, R41). -/
def giveFrames (s : State) (d : Reg) (child : Nat) (l : List Tagged) : State :=
  let es := s.sourceEntries l
  let dst := (blockWord l 2).toNat
  let (_, keep) := splitGrants (·.child = child) (·.cgfn) dst (dst + es.length) s.myCtx.grants
  let new : List Grant := if es.isEmpty then [] else [⟨child, (blockWord l 1).toNat, dst, es.length⟩]
  match sourceFault es with
  | some code => s.status d 8 code
  | none =>
    if (keep ++ new).length > 4096 then s.status d 8 4
    else match s.frameBudget child l es with
      | some t => s.raise t
      | none =>
        let w0 := blockWord l 0
        let s := ((List.range es.length).zip es).foldl (fun s (i, e) =>
          s.composeFrame child (dst + i) e (fieldOf w0 0 3) (w0.getLsbD 3)) s
        ((s.endTracking child).setGrants s.me.ctx (keep ++ new)).status d 8 0

/-- The live sites that a block of cores names (R381). -/
def namedCores (s : State) (l : List Tagged) : List Site :=
  let w := blockWord l 1
  s.liveIn (Site.mk (fieldOf w 24 2) (fieldOf w 8 5) (fieldOf w 16 5)) (blockWord l 3).toNat

/-- Does a core hold a child in its chain (R32)? -/
def heldUnder (s : State) (c : Site) (child : Nat) : Bool := (s.core c).chain.contains (child, (s.ctx child).gen)

/-- Refuse every request parked at a core back to its requester (R66). -/
def refuseParked (s : State) (c : Site) : State :=
  let l := (s.core c).park
  l.foldl (fun s p => s.refuse p.core p.slot p.req) (s.modCore c fun k => { k with park := [] })

/-- Does a core run a context that is not halted (R379)? -/
def runsCtx (s : State) (c : Site) (n gen : Nat) : Bool :=
  (s.core c).slots.any fun (_, sl) => sl.ctx == n && sl.gen == gen && (match sl.state with
    | .ready | .parked | .faulted => true
    | _ => false)

/-- GIVE of CORES (R32, R381). -/
def giveCores (s : State) (d : Reg) (child : Nat) (l : List Tagged) : State :=
  let new := (s.namedCores l).filter fun c => !s.heldUnder c child
  if new.any fun c => s.holder c != (s.me.ctx, s.me.gen) then s.status d 8 7
  else if new.any fun c => s.runsCtx c s.me.ctx s.me.gen then s.status d 8 8
  else if s.myCtx.left .memBytes < 2048 * new.length then s.raise (budgetTrap .memBytes (2048 * new.length))
  else
    let s := s.charge s.me.ctx .memBytes (2048 * new.length)
    let s := new.foldl (fun s c =>
      ((s.modCore c fun k => { k with chain := k.chain ++ [(child, (s.ctx child).gen)] }).refuseParked c).engDrop c child
        (s.ctx child).gen) s
    s.status d 8 0

/-- GIVE and REVOKE of QUEUES (R381): the priorities and dies that are added or withdrawn. -/
def changeQueues (s : State) (child : Nat) (l : List Tagged) (give : Bool) : State :=
  let w := blockWord l 1
  let p := fieldOf w 0 8
  let q := fieldOf w 8 4
  s.modCtx child fun k => { k with
    prioMask := if give then k.prioMask ||| p else k.prioMask &&& (255 - p)
    dieMask := if give then k.dieMask ||| q else k.dieMask &&& (15 - q) }

/-! ### CTX.REVOKE (R42, R381) -/

/-- Clear EN and the occupancy map of a channel-bound frame enrolled to a context (R80). -/
def unenrol (s : State) (n : Nat) (e : Word) : State :=
  let key := fieldOf e 12 8 * 2048 + fieldOf e 20 11
  let r := aget s.enrol Enrol.reset key
  if e.getLsbD 5 && !e.getLsbD 6 && r.rec_.getLsbD 0 && fieldOf r.rec_ 48 16 == n && fieldOf r.rec_ 40 8 == (s.ctx n).gen then
    { s with enrol := aset s.enrol key { r with
        rec_ := setField r.rec_ 0 1 0
        map := 0 } }
  else s

/-- Mark one stage-2 entry (R42 step 1): V = 0 and RVK = 1, with what a valid one took returned. -/
def markFrame (s : State) (n g : Nat) : State :=
  let e := aget (s.ctx n).s2 0 g
  let s := s.s2Write n g ((e &&& ~~~(1 : Word)) ||| 0x800)
  if e.getLsbD 0 then (s.unenrol n e).refundFrame (s.ctx n).parent e else s

/-- Mark every entry of a range of a context's frames, and, depth first, those of its descendants composed from them (R42
step 1): the contexts hit. -/
def markFrames : Nat → State → Nat → Nat → Nat → State × List Nat
  | 0, s, _, _, _ => (s, [])
  | f + 1, s, n, lo, cnt =>
    let s := ((List.range cnt).foldl (fun s j => s.markFrame n (lo + j)) s).endTracking n
    let s := s.engRevoke n fun g => decide (lo ≤ g) && decide (g < lo + cnt)
    let parts := (splitGrants (fun _ => true) (·.pgfn) lo (lo + cnt) (s.ctx n).grants).1
    let s := s.setGrants n (keepGrants (fun _ => true) (·.pgfn) lo (lo + cnt) (s.ctx n).grants)
    parts.foldl (fun (s, hit) (c, g, k) =>
      let (s, h) := markFrames f s c g k
      (s, hit ++ h)) (s, [n])

/-- The heads of some contexts whose translations have changed: the banks stop testing their wait signals, which the sequencers translate
again (R397, R451). -/
def retestWaits (s : State) (hit : List Nat) : State :=
  { s with dies := s.dies.map fun (i, d) => (i, { d with
      queue := d.queue.map fun r => if hit.contains r.ctx then { r with waitAt := none } else r }) }

/-- Disarm the monitor lines of some contexts whose virtual addresses translate no longer (R170). -/
def disarmLost (s : State) (hit : List Nat) : State :=
  s.allSlots.foldl (fun s (c, i) =>
    let sl := s.slot c i
    if !hit.contains sl.ctx then s
    else s.modSlot c i fun sl => { sl with monitors := sl.monitors.map fun (n, m) => (n, match m.armed with
      | some (_, va) =>
        if isMesh va then m
        else match s.translate sl.ctx va.toNat .read false with
          | .ok _ => m
          | .error _ => { m with armed := none }
      | none => m) }) s

/-- REVOKE of FRAMES (R42): marked, shot down device-wide, and complete when the echoes return. -/
def revokeFrames (s : State) (d : Reg) (child : Nat) (l : List Tagged) : State :=
  let dst := (blockWord l 2).toNat
  let n := (blockWord l 3).toNat
  let s := s.setGrants s.me.ctx (keepGrants (·.child = child) (·.cgfn) dst (dst + n) s.myCtx.grants)
  let (s, hit) := s.markFrames 8 child dst n
  let s := ((s.shootdown .dev 0 fun k g => hit.contains k && g == (s.ctx k).gen).retestWaits hit).disarmLost hit
  (s.retireCtx child).awaitEchoes .dev d 0 8

/-- A slot of a revoked core is written back at the halt and freed (R236, R381). -/
def evict (s : State) (c : Site) (i : Nat) : State :=
  let s := match (s.slot c i).state with
    | .ready | .parked | .faulted => s.haltSlot c i true
    | _ => s
  s.freeSlot c i

/-- Halt the slots of the rest of a placement group (R216, R219). -/
def haltGroup (s : State) (g : Nat × Nat) : State :=
  s.allSlots.foldl (fun s (c, i) =>
    match (s.slot c i).state with
    | .ready | .parked | .faulted => if (s.core c).group == some g then s.haltWhole c i else s
    | _ => s) s

/-- A cluster whose core is revoked from some contexts leaves their running launches (R399, R404). -/
def leaveClusters (s : State) (c : Site) (below : List Nat) : State :=
  { s with dies := s.dies.map fun (d, k) => (d, { k with
      running := k.running.map fun r => if below.contains r.rec_.ctx then
        { r with clusters := r.clusters.filter (· != Site.cluster c) } else r }) }

/-- Take one core from a child (R32, R381). -/
def revokeCore (s : State) (child : Nat) (c : Site) : State :=
  let ref := (child, (s.ctx child).gen)
  let chain := (s.core c).chain
  let below := (chain.dropWhile (· != ref)).map (·.1)
  let s := (s.core c).slots.foldl (fun s (i, sl) => if below.contains sl.ctx && sl.state != .free then s.evict c i else s) s
  let s := below.foldl (fun s n => s.modCtx n fun k => { k with replies := k.replies.filter (·.core ≠ c) }) s
  let s := below.foldl (fun s n => s.refund (s.ctx n).parent .memBytes 2048) s
  let g := (s.core c).group
  let s := (s.modCore c fun k => { k with
    chain := chain.takeWhile (· != ref)
    matrix := []
    round := none
    ports := []
    placed := none
    group := none }).refuseParked c
  let s := (s.engDrop c s.me.ctx s.me.gen).leaveClusters c below
  match g with
  | some g => s.haltGroup g
  | none => s

/-- REVOKE of CORES (R381): a core the child does not hold is passed over. -/
def revokeCores (s : State) (d : Reg) (child : Nat) (l : List Tagged) : State :=
  let cs := (s.namedCores l).filter fun c => s.heldUnder c child
  let s := cs.foldl (fun s c => s.revokeCore child c) s
  (s.retireCtx child).awaitEchoes .dev d 0 8

/-- CTX.GIVE and CTX.REVOKE of a grant block, in the order of their checks (R381). -/
def grantOp (s : State) (d : Reg) (ref : Word) (l : List Tagged) (give : Bool) : State :=
  match s.childRef ref with
  | none => s.status d 8 1
  | some child =>
    if s.badGrant child l give then s.status d 8 5
    else match fieldOf (blockWord l 0) 60 4, give with
      | 0, true => s.giveFrames d child l
      | 0, false => s.revokeFrames d child l
      | 1, true => s.giveCores d child l
      | 1, false => s.revokeCores d child l
      | _, true => (s.changeQueues child l true).status d 8 0
      | _, false => ((s.changeQueues child l false).retireCtx child).status d 8 0

/-! ### CTX.RUN and CTX.STOP (R382, R411, R414) -/

/-- The register write of a reply, in the workspace that issued the request (R412). -/
def replyWrites (r : Reply) : List WordWrite :=
  match r.status with
  | some (d, v) => if d = 0 then [] else [⟨.word (wsBase r.core r.wp + 8 * d.toNat), ⟨v, false⟩, BitVec.allOnes 64⟩]
  | none => []

/-- Apply the fault-reply cell of a slot before its first issue (R414): STATUS entries land, TRAP entries are kept for
delivery in cause order, WALK entries are discarded, and the entries are cleared. -/
def applyReplies (s : State) (n : Nat) (c : Site) (i : Nat) : State :=
  let mine := (s.ctx n).replies.filter fun r => r.core == c && r.slot == i
  let s := s.modCtx n fun k => { k with replies := k.replies.filter fun r => !(r.core == c && r.slot == i) }
  let s := mine.foldl (fun s r => s.landAll c i (replyWrites r)) s
  let traps := mine.filterMap (·.trap)
  let ordered := (List.range 256).flatMap fun k => traps.filter (·.cause = k)
  s.modSlot c i fun sl => { sl with kept := sl.kept ++ ordered.map fun t => ⟨t, none⟩ }

/-- Make the HALTED slots of a child, and of the descendants that their own parents left running, READY again (R382); one whose
pool command's status is still to land waits for it (R237). A VF in link recovery shows its partition running again (R430). -/
def runCtx (s : State) (n : Nat) : State :=
  let gen := (s.ctx n).gen
  let s := s.modCtx n fun k => { k with
    stopped := false
    everRun := true }
  let s := s.modPkg fun p => { p with
    vfs := p.vfs.map fun (i, v) => (i, if v.ctx == some (n, gen) then { v with recovery := false } else v) }
  s.allSlots.foldl (fun s (c, i) =>
    let sl := s.slot c i
    if sl.state == .halted && s.inTree n 8 sl.ctx && sl.gen == (s.ctx sl.ctx).gen && !s.isStopped 8 sl.ctx then
      ((s.applyReplies sl.ctx c i).modSlot c i fun sl => { sl with
        state := .ready
        monitors := sl.monitors.map fun (j, m) => (j, { m with stopped := none }) }).resumeSlot c i
    else s) s

/-- CTX.RUN (R382): of a running child, no change; of one whose halt is not complete, it waits (R179). -/
def runChild (s : State) (d : Reg) (ref : Word) : State :=
  match s.childRef ref with
  | none => s.status d 4 1
  | some n =>
    if !(s.ctx n).stopped then s.status d 4 0
    else if s.treeBusy n then s.parkMe .tree
    else (s.runCtx n).status d 4 0

/-- CTX.STOP (R382): of a stopped child, no change; else the issuer parks until the halts are complete. -/
def stopChild (s : State) (d : Reg) (ref : Word) : State :=
  match s.childRef ref with
  | none => s.status d 4 1
  | some n =>
    if (s.ctx n).stopped then s.status d 4 0
    else ((s.stopTree n).modCtx n fun k => { k with halting := true }).parkMe (.stop n d 4)

/-- A halt of a context completes (R411): every CTX.STOP that waits for it completes. -/
def haltDone (s : State) (n : Nat) : State :=
  if !(s.ctx n).halting || s.treeBusy n then s
  else
    let s := s.modCtx n fun k => { k with halting := false }
    s.allSlots.foldl (fun s (c, i) => match (s.slot c i).wait with
      | some (.stop m d len) => if m = n then s.complete c i len (s.regWrite c i d ⟨0, false⟩) else s
      | _ => s) s

/-! ### Replies (R412, R413) -/

/-- A reply arrives (R412): dropped for another generation, applied to its loaded slot, kept for a halted or saved
context, and else dropped. -/
def replyArrive (s : State) (r : Reply) : State :=
  let s := { s with replies := s.replies.filter (·.n ≠ r.n) }
  let sl := s.slot r.core r.slot
  if (s.ctx r.ctx).gen ≠ r.gen then s
  else if sl.ctx == r.ctx && sl.gen == r.gen && sl.state != .free && sl.state != .halted then
    match r.trap, r.status, sl.wait with
    | some t, _, _ => s.notice r.core r.slot t
    | none, some _, some (.pool id _ len) => if id = r.n then s.complete r.core r.slot len (replyWrites r) else
      s.landAll r.core r.slot (replyWrites r)
    | none, some _, _ => s.landAll r.core r.slot (replyWrites r)
    | none, none, _ => s
  else if s.isStopped 8 r.ctx || sl.state == .halted then s.storeReply r
  else s

/-! ### CTX.DIRTY (R384) -/

/-- The bytes of a dirty sub-bitmap, bit 0 first (R27). -/
def subBytes (b : BitVec 512) : List Byte := natBytes 64 b.toNat

/-- The number of one bits of a sub-bitmap. -/
def subCount (b : BitVec 512) : Nat := ((List.range 512).filter b.getLsbD).length

/-- Translate the 64 lines that a harvest writes. -/
def dirtyLines (s : State) (ctx : Nat) (va : Word) : Nat → Except Trap (List (Nat × Bool) × State)
  | 0 => .ok ([], s)
  | n + 1 =>
    if isMesh va then .error (ownTrap 4 0xB va 0 1)
    else match s.translateDirect ctx va .write with
      | .error t => .error t
      | .ok (a, v, s) => match dirtyLines s ctx (va + 64) n with
        | .error t => .error t
        | .ok (l, s) => .ok ((a, v) :: l, s)

/-- Harvest one entry: its sub-bitmap goes to a line, with the poison of what is lost, and is cleared (R384). -/
def harvest (s : State) (child entry : Nat) (va : Word) (a : Nat) (viewed : Bool) : State × Nat :=
  let k := s.ctx child
  let on := decide (entry < k.s2len) && k.darr != 0 && (aget k.s2 0 entry).getLsbD 7
  let b : BitVec 512 := if on then aget k.sub 0 entry else 0
  let lost := (List.range 8).map fun j => on && s.lostWord (s.subAddr child entry + 8 * j)
  let s := s.bankWrite a (subBytes b) lost
  let s := if viewed then s.masterWrite s.me.ctx s.me.gen va.toNat else s
  (if b = 0 then s else s.subWrite child entry 0, subCount b)

/-- CTX.DIRTY (R384): it waits while a reservation holds a word that it writes (R187). -/
def dirtyOp (s : State) (d : Reg) (ref wb wc : Word) : State :=
  match s.childRef ref with
  | none => s.status d 8 1
  | some n =>
    if wc.toNat % 64 ≠ 0 then s.raise (alignTrap wc 64 1)
    else match s.dirtyLines s.me.ctx wc 64 with
      | .error t => s.raise t
      | .ok (l, s) =>
        if l.any fun x => (wordsOf x.1 64).any fun w => s.isReserved (8 * w) then s.parkMe .save
        else
        let (s, bits) := ((List.range l.length).zip l).foldl (fun (s, m) (i, a, v) =>
          let (s, x) := s.harvest n (wb.toNat + i) (wc + wordOf (64 * i)) a v
          (s, m + x)) (s, 0)
        let s := if bits = 0 then s else s.shootdown .dev 0 fun k g => k == n && g == (s.ctx n).gen
        s.awaitEchoes .dev d (wordOf bits) 8

/-! ### CTX.S2MAP (R385) -/

/-- A slice writes zeros to a range of its memory (R80): monitors, signals and launches see the writes (R171), and a failed slice drops
them (R47). -/
def zeroBytes (s : State) (a n : Nat) : State :=
  let within (w : Nat) : Bool := decide (a ≤ 8 * w) && decide (8 * w < a + n)
  if s.inFailed a then s
  else
    let s := { s with
      mem := s.mem.filter fun x => !(decide (a ≤ x.1) && decide (x.1 < a + n))
      poison := s.poison.filter fun w => !within w
      uncorr := s.uncorr.filter fun w => !within w }
    let s := s.modPkg fun k => { k with logged := k.logged.filter fun l => s.uncorr.any (fun w => w / 8 = l) }
    s.noteWrite a n

/-- Enrol a channel-bound frame to a context (R79, R80): on a change of owner it is zeroed and its map cleared. -/
def enrolFrame (s : State) (n : Nat) (e vbase : Word) : State :=
  let sl := fieldOf e 12 8
  let f := fieldOf e 20 11
  let key := sl * 2048 + f
  let old := aget s.enrol Enrol.reset key
  let gen := (s.ctx n).gen
  let same := old.rec_.getLsbD 0 && fieldOf old.rec_ 48 16 == n && fieldOf old.rec_ 40 8 == gen
  let base := devAddr (s.physSlice sl) (2 ^ 32 - s.pkg.cbs + f * 2 ^ 21)
  let s := if same then s else s.zeroBytes base (2 ^ 21)
  let new : Word := wordOf (n * 2 ^ 48 + gen * 2 ^ 40 + vbase.toNat % 2 ^ 27 * 2 ^ 13 + 1)
  { s with enrol := aset s.enrol key ⟨new, if same then old.map else 0⟩ }

/-- An entry after S2MAP (R385). -/
def s2mapEntry (w0 e : Word) : Word :=
  let e' := (e &&& ~~~(0xE : Word)) ||| (e &&& wordOf (fieldOf w0 0 3 * 2))
  if w0.getLsbD 4 then setField e' 7 1 (fieldOf w0 3 1) else e'

/-- Change one stage-2 entry (R385); a sub-bitmap starts clear when DT is set (R420). -/
def s2mapOne (s : State) (n g : Nat) (w0 : Word) : State :=
  let e := aget (s.ctx n).s2 0 g
  let new := s2mapEntry w0 e
  let s := (s.trackDirty n (new.getLsbD 7)).s2Write n g new
  if new.getLsbD 7 && !e.getLsbD 7 then s.subWrite n g 0 else s

/-- CTX.S2MAP of a block on a target context (R385). -/
def s2mapOp (s : State) (d : Reg) (n : Nat) (own : Bool) (l : List Tagged) (bead : Bool) : State :=
  let w (i : Nat) : Word := blockWord l i
  let k := s.ctx n
  let gfn := (w 1).toNat
  let cnt := (w 2).toNat
  let entries := (List.range cnt).map fun i => aget k.s2 0 (gfn + i)
  if l.any (·.poison) || fieldOf (w 0) 5 59 ≠ 0 || fieldOf (w 3) 48 16 ≠ 0 || fieldOf (w 3) 0 21 ≠ 0 || gfn + cnt > k.s2len then
    s.status d 8 5
  else if bead && entries.any (fun e => !(e.getLsbD 0 && e.getLsbD 5 && !e.getLsbD 6)) then s.status d 8 5
  else if own && (w 0).getLsbD 4 then s.status d 8 15
  else
    let s := ((List.range cnt).foldl (fun s i => s.s2mapOne n (gfn + i) (w 0)) s).endTracking n
    let s := (s.shootdown .dev 0 fun k g => k == n && g == (s.ctx n).gen).retestWaits [n]
    let s := if bead then ((List.range cnt).zip entries).foldl (fun s (i, e) =>
        s.enrolFrame n e (wordOf (fieldOf (w 3) 21 27 + i))) s
      else s
    s.awaitEchoes .dev d 0 8

/-- CTX.S2MAP with its operands (R385): a reference of 0 names the issuer. -/
def s2mapMe (s : State) (d a b : Reg) (bead : Bool) : State :=
  let ref := (s.reg a).val
  let go (s : State) (n : Nat) (own : Bool) : State :=
    s.withBlock (s.reg b).val 32 4 fun l s => s.treeTurn fun s => s.s2mapOp d n own l bead
  s.useRegs [a, b]
    (if ref = 0 then go s s.me.ctx true
     else match s.childRef ref with
       | none => s.withRelease .dev fun s => s.status d 8 1
       | some n => go s n false)

end State

/-- CTX.NEW (R380). -/
def execCtxNew (_st : Stall) (d a : Reg) (s : State) : Out :=
  .next (s.useRegs [a] (s.withBlock (s.reg a).val 64 8 fun l s => s.treeTurn fun s => s.newCtx d l))

/-- CTX.GIVE (R381). -/
def execCtxGive (_st : Stall) (d a b : Reg) (s : State) : Out :=
  .next (s.useRegs [a, b] (s.withBlock (s.reg b).val 32 4 fun l s => s.treeTurn fun s => s.grantOp d (s.reg a).val l true))

/-- CTX.REVOKE (R42, R381). -/
def execCtxRevoke (_st : Stall) (d a b : Reg) (s : State) : Out :=
  .next (s.useRegs [a, b] (s.withBlock (s.reg b).val 32 4 fun l s => s.treeTurn fun s => s.grantOp d (s.reg a).val l false))

/-- CTX.RUN (R382). -/
def execCtxRun (_st : Stall) (d a : Reg) (s : State) : Out :=
  .next (s.useRegs [a] (s.withRelease .dev fun s => s.treeTurn fun s => s.runChild d (s.reg a).val))

/-- CTX.STOP (R382). -/
def execCtxStop (_st : Stall) (d a : Reg) (s : State) : Out :=
  .next (s.useRegs [a] (s.withRelease .dev fun s => s.treeTurn fun s => s.stopChild d (s.reg a).val))

/-- CTX.DIRTY (R384). -/
def execCtxDirty (_st : Stall) (d a b c : Reg) (s : State) : Out :=
  .next (s.useRegs [a, b, c] (s.withRelease .dev fun s => s.treeTurn fun s => s.dirtyOp d (s.reg a).val (s.reg b).val (s.reg c).val))

/-- CTX.S2MAP (R385). -/
def execCtxS2map (_st : Stall) (d a b : Reg) (s : State) : Out := .next (s.s2mapMe d a b false)

/-- CTX.S2MAP.BEAD (R385). -/
def execCtxS2mapBead (_st : Stall) (d a b : Reg) (s : State) : Out := .next (s.s2mapMe d a b true)

/-- HALT_COMPLETE (R411): the climbs that waited for a halt go on too (R179). -/
def execHaltComplete (ctx : Nat) (s : State) : Out := .next (s.haltDone ctx).climbsDue

/-- REPLY_ARRIVAL (R412): reply `n`; with no such reply, nothing happens. -/
def execReplyArrival (n : Nat) (s : State) : Out :=
  .next (match s.replies.find? fun r => r.n == n with
    | some r => s.replyArrive r
    | none => s)

end Sys2Proof.Machine
end

