-- ==== Sys2Proof/Machine/Host.lean ====
section
/-!
DEFINITION. The package's outside (R173, R184, R422 to R439): the host link with its virtual functions and window 2, the
control pages, the physical function and its mailbox, power, and the links of the fabric.
-/

namespace Sys2Proof.Machine

namespace State

/-! ### Virtual functions (R422 to R425) -/

/-- A virtual function, by number. -/
def vf (s : State) (n : Nat) : Vf := aget s.pkg.vfs Vf.reset n

/-- Change a virtual function. -/
def modVf (s : State) (n : Nat) (f : Vf → Vf) : State := s.modPkg fun p => { p with vfs := aset p.vfs n (f (s.vf n)) }

/-- The partition that an enabled virtual function is bound to, while it lives (R422). -/
def vfCtx (s : State) (n : Nat) : Option Nat :=
  if n = 0 ∨ n > s.pkg.numVfs then none
  else match (s.vf n).ctx with
    | some (c, g) => if (s.ctx c).live && (s.ctx c).gen == g then some c else none
    | none => none

/-- STATE of a control page (R424). -/
def vfState (s : State) (n : Nat) : Nat :=
  match s.vfCtx n with
  | none => 0
  | some c => if (s.vf n).recovery then 3 else if (s.ctx c).stopped then 2 else 1

/-- A word of a VF control page as the host reads it (R424); none is answered UR (R422). -/
def vfWord (s : State) (n off : Nat) : Option Word :=
  match s.vfCtx n with
  | none => none
  | some c =>
    let v := s.vf n
    some (match off with
      | 0x000 => wordOf (c * 2 ^ 48 + (s.ctx c).gen * 2 ^ 40 + s.vfState n * 2 ^ 7 + n)
      | 0x008 => v.wbase.setWidth 64
      | 0x010 => wordOf (v.hv.toNat * 2 ^ 63 + v.hw.toNat * 2 ^ 62 + v.hgpa.toNat)
      | 0x018 => wordOf (v.dblost.toNat * 2 ^ 63)
      | _ => 0)

/-- A host access failed: the first is recorded until HV is cleared (R424). -/
def hostFail (s : State) (n g : Nat) (wr : Bool) : State :=
  s.modVf n fun v => if v.hv then v else { v with
    hv := true
    hw := wr
    hgpa := BitVec.ofNat 40 g }

/-- Translate the pieces of a window-2 access from stage 2 onward (R425): the pieces, or the address that fails. -/
def hostPieces (s : State) (c : Nat) (k : Kind) : List (Nat × Nat) → Except Nat (List (Nat × Nat) × State)
  | [] => .ok ([], s)
  | (g, n) :: rest =>
    match s.stage2 c g g k k with
    | .error _ => .error g
    | .ok (_, _, .pool ..) => .error g
    | .ok (i, e, t) =>
      let s := if k = .write then s.markDirty2 c i g e else s
      match hostPieces s c k rest with
      | .error x => .error x
      | .ok (l, s) => .ok ((s.targetAddr t (g % 2 ^ 21), n) :: l, s)

/-- WBASE of a function as a request that arrives now meets it: with the earlier posted writes of it that are still to be
accepted (R424, R426). -/
def wbaseAt (s : State) (n : Nat) : Nat :=
  (s.pkg.hostWrites.foldl (fun b w => match w.control with
    | some (0x008, v) => if w.vf = n then BitVec.ofNat 4 (v.toNat % 16) else b
    | _ => b) (s.vf n).wbase).toNat

/-- The guest-physical address of an offset of window 2 (R425). -/
def hostGpa (s : State) (n off : Nat) : Nat := 2 ^ 36 * s.wbaseAt n + off

/-! ### Doorbells (R173, R424, R433) -/

/-- The site and slot that a DOORBELL word names. -/
def bellTarget (v : Word) : Site × Nat := (Site.mk (fieldOf v 24 2) (fieldOf v 8 5) (fieldOf v 16 5), fieldOf v 0 4)

/-- Direct an interrupt to a slot that holds a context satisfying a test: none where no such slot is named (R173). -/
def direct (s : State) (v : Word) (p : Nat → Bool) : Option State :=
  let (c, i) := bellTarget v
  let sl := s.slot c i
  if s.live c && decide (i ≤ 10) && sl.state != .free && sl.gen == (s.ctx sl.ctx).gen && p sl.ctx then
    some ((s.modSlot c i fun sl => { sl with intr := true }).tryWaitm c i)
  else none

/-- A write of a VF's DOORBELL word (R173, R424). -/
def doorbell (s : State) (n : Nat) (v : Word) : State :=
  match s.vfCtx n with
  | none => s
  | some c =>
    if v.getLsbD 63 then s.modVf n fun f => { f with dblost := false }
    else match s.direct v (s.inTree c 8) with
      | some s => s
      | none => s.modVf n fun f => { f with dblost := true }

/-- A write of the PF's DOORBELL word (R173, R433). -/
def pfDoorbell (s : State) (v : Word) : State :=
  if v.getLsbD 63 then s.modPkg fun p => { p with pfDblost := false }
  else match s.direct v fun n => (s.ctx n).depth == 0 && (s.ctx n).live with
    | some s => s
    | none => s.modPkg fun p => { p with pfDblost := true }

/-! ### Posted writes of a function (R424 to R426) -/

/-- A write of a word of a VF control page (R424): WBASE, HV or DOORBELL; an unbound VF drops it (R422). -/
def vfWrite (s : State) (n off : Nat) (v : Word) : State :=
  if (s.vfCtx n).isNone then s
  else if off = 0x008 then s.modVf n fun f => { f with wbase := BitVec.ofNat 4 (v.toNat % 16) }
  else if off = 0x010 then
    (if v.getLsbD 63 then s.modVf n fun f => { f with
        hv := false
        hw := false
        hgpa := 0 }
     else s)
  else if off = 0x018 then s.doorbell n v
  else s

/-- Accept a posted host write at its slices, or drop it (R422, R425); one of the control page is carried out. A host write is no
master write. -/
def hostAccept (s : State) (w : HostWrite) : State :=
  match s.vfCtx w.vf, w.control with
  | none, _ => s
  | some _, some (off, v) => s.vfWrite w.vf off v
  | some c, none =>
    match s.hostPieces c .write (pieces (w.data.length / 4096 + 2) w.gpa w.data.length) with
    | .error x => s.hostFail w.vf x true
    | .ok (l, s) =>
      (l.foldl (fun (s, bs) (a, n) => (s.bankWrite a (bs.take n) [], bs.drop n)) (s, w.data)).1

/-- The words of a host write whose reservations hold it (R187). -/
def hostHeld (s : State) (w : HostWrite) : List Nat :=
  match s.vfCtx w.vf with
  | none => []
  | some c => match s.hostPieces c .write (pieces (w.data.length / 4096 + 2) w.gpa w.data.length) with
    | .error _ => []
    | .ok (l, _) => l.flatMap fun (a, n) => (wordsOf a n).filter fun x => (s.reservedBy x).isSome

/-- Do two host writes touch one line? Those of the control page are ordered with each other alone. -/
def sameLine (a b : HostWrite) : Bool :=
  a.control.isNone && b.control.isNone &&
    decide (a.gpa / 64 ≤ (b.gpa + b.data.length - 1) / 64) && decide (b.gpa / 64 ≤ (a.gpa + a.data.length - 1) / 64)

/-- The first posted host write that can be accepted (R426): a strict one after every earlier write of its function, a
relaxed one after those to its lines. -/
def firstHost (s : State) : List HostWrite → List HostWrite → Option HostWrite
  | _, [] => none
  | seen, w :: t =>
    if (s.hostHeld w).isEmpty && !seen.any (fun q => q.vf == w.vf && (!w.relaxed || sameLine q w)) then some w
    else firstHost s (seen ++ [w]) t

/-- Accept the posted host writes that can be accepted, in order; the others record what holds them. -/
def hostDrain : Nat → State → State
  | 0, s => s
  | n + 1, s =>
    match s.firstHost [] s.pkg.hostWrites with
    | none => s.modPkg fun p => { p with hostWrites := p.hostWrites.map fun w => { w with heldBy := s.hostHeld w } }
    | some w => hostDrain n ((s.modPkg fun p => { p with hostWrites := p.hostWrites.erase w }).hostAccept w)

/-- A posted write of a function joins the earlier ones, and what can be accepted is (R426). -/
def hostPost (s : State) (w : HostWrite) : State :=
  let s := s.modPkg fun p => { p with hostWrites := p.hostWrites ++ [w] }
  hostDrain s.pkg.hostWrites.length s

/-- A posted write of window 2 (R425, R426). -/
def hostWrite (s : State) (vf off : Nat) (data : List Byte) (relaxed : Bool) : State :=
  if off + data.length > 2 ^ 36 ∨ data = [] then s else s.hostPost ⟨vf, s.hostGpa vf off, data, none, relaxed, []⟩

/-- A posted write of a word of a VF's control page, which is ordered as every posted write of its function is (R424, R426). -/
def controlWrite (s : State) (vf off : Nat) (v : Word) : State :=
  if (s.vfCtx vf).isSome then s.hostPost ⟨vf, 0, [], some (off, v), false, []⟩ else s

/-- A read of window 2 (R425, R426): served after the function's earlier posted writes, or answered UR. -/
def hostRead (s : State) (n off len : Nat) : State :=
  if off + len > 2 ^ 36 then s
  else
    let s := hostDrain s.pkg.hostWrites.length s
    if s.pkg.hostWrites.any (·.vf == n) then s
    else
      let ur (s : State) : State := s.modPkg fun p => { p with hostReply := none }
      match s.vfCtx n with
      | none => ur s
      | some c => match s.hostPieces c .read (pieces (len / 4096 + 2) (s.hostGpa n off) len) with
        | .error g => ur (s.hostFail n g false)
        | .ok (l, s) =>
          let s := l.foldl (fun s (a, m) => s.touchWords a m) s
          s.modPkg fun p => { p with hostReply := some (l.flatMap fun (a, m) => mread s.mem a m) }

/-! ### The physical function (R433) -/

/-- The words of the PF's window 0 as the host reads them (R433, R438). In recovery the PF answers only the mailbox and the status
words of R433 (R435). -/
def pfWord (s : State) (off : Nat) : Option Word :=
  let p := s.pkg
  if p.boot = .recovery ∧ (off = 0x18 ∨ off = 0x3000 ∨ off = 0x3008) then none
  else some (
    if off % 8 ≠ 0 then 0
    else if off = 0 then wordOf ((match p.retired with | some r => r | none => 0xFF) + s.liveSlices * 256)
    else if off = 8 then wordOf (p.irsize / 4096 + p.cbs / 2 ^ 21 * 2 ^ 32)
    else if off = 0x18 then wordOf (p.pfDblost.toNat * 2 ^ 63)
    else if 0x100 ≤ off ∧ off ≤ 0x138 then aget p.mcmd 0 ((off - 0x100) / 8)
    else if off = 0x140 then p.mdoor
    else if 0x1000 ≤ off ∧ off < 0x1400 then (aget p.fuse 0 ((off - 0x1000) / 8)).setWidth 64
    else if 0x2000 ≤ off ∧ off < 0x2600 then (aget p.sliceCe 0 ((off - 0x2000) / 8)).setWidth 64
    else if 0x2800 ≤ off ∧ off < 0x2C40 then
      let l := aget p.links Link.reset ((off - 0x2800) / 8)
      wordOf (l.retry.toNat + l.up.toNat * 2 ^ 32 + l.ret.toNat * 2 ^ 33)
    else if 0x2C80 ≤ off ∧ off < 0x2CA0 then (s.die ((off - 0x2C80) / 8)).meshRetry.setWidth 64
    else if off = 0x3000 then wordOf (p.pnow.toNat + p.plim.toNat * 2 ^ 32 + p.thr.toNat * 2 ^ 48)
    else if off = 0x3008 then p.temp
    else if 0x4000 ≤ off ∧ off < 0x8000 then
      wordOf (bytesNat ((List.range 8).map fun j => aget p.mbuf 0 (off - 0x4000 + j)))
    else 0)

/-! ### The mailbox (R434, R437) -/

/-- Is a mailbox command in progress? -/
def mailboxBusy (s : State) : Bool := s.pkg.mdoor.getLsbD 0

/-- Put bytes into MBUF from an offset. -/
def putMbuf (s : State) (off : Nat) (bs : List Byte) : State :=
  s.modPkg fun p => { p with
    mbuf := ((List.range bs.length).zip bs).foldl (fun m (i, b) => if off + i < 16384 then aset m (off + i) b else m) p.mbuf }

/-- Write the first words of the mailbox command block. -/
def putCommand (s : State) (cmd : List Word) : State :=
  s.modPkg fun p => { p with mcmd := ((List.range cmd.length).zip cmd).foldl (fun m (i, w) => aset m i w) p.mcmd }

/-- MCMD0 to MCMD7. -/
def mcmdAt (s : State) (i : Nat) : Word := aget s.pkg.mcmd 0 i

/-- How Akmon judges an image (R435): 0 accepted, 1 a wrong key or signature, 2 an SVN below the fused minimum. -/
def judgeImage (image : List Byte) : Nat :=
  let n := image.length - 4627
  let body := image.take n
  let sig := image.drop n
  let key := Config.imageKey image
  if image.length ≤ 4627 || Config.sha3 key != Config.fusedKeyDigest ||
      !Config.verify key (natBytes 64 (Config.sha3 body).toNat) sig then 1
  else if Config.imageSvn image < Config.fusedMinSvn then 2
  else 0

/-- FWLOAD: stage an image that Akmon would accept (R434): the bytes it reads are the first MCMD2 of those that the host has at the
bus address. -/
def fwLoad (s : State) (image : List Byte) : State × Nat × List Byte :=
  let img := image.take (s.mcmdAt 2).toNat
  let j := judgeImage img
  (if j = 0 then s.modPkg fun p => { p with staged := some img } else s, j, [])

/-- QUOTE: the quoted fields, then the signature over them (R434, R437). The nonce is the first MCMD2 bytes of MBUF, at most 64. -/
def quoteVf (s : State) : State × Nat × List Byte :=
  match s.vfCtx (fieldOf (s.mcmdAt 1) 0 7) with
  | none => (s, 1, [])
  | some c =>
    let p := s.pkg
    let nonce := (List.range (min 64 (s.mcmdAt 2).toNat)).map fun j => aget p.mbuf 0 j
    let fields := natBytes 2 p.device.toNat ++ natBytes 2 p.svn.toNat ++ natBytes 64 p.fwm.toNat ++
      natBytes 64 (s.ctx c).pmr.toNat ++ nonce
    (s, 0, fields ++ (Config.sign fields).take 4627)

/-- OWNMOVE: move ownership of a pool frame that this device owns (R184, R432). A PFRAME has 36 bits (R26). -/
def ownMove (s : State) : State × Nat × List Byte :=
  let frame := (s.mcmdAt 2).toNat
  let key := fieldOf (s.mcmdAt 1) 0 16 * 2 ^ 36 + frame
  if frame < 2 ^ 36 ∧ (s.pkg.owners.find? (·.1 = key)).any (fun o => o.2 == s.pkg.device.toNat) then
    (s.moveOwner key (fieldOf (s.mcmdAt 3) 0 12), 0, [])
  else (s, 1, [])

/-- LOGREAD: a machine-check record (R434). -/
def logRead (s : State) : State × Nat × List Byte :=
  match s.pkg.log[(s.mcmdAt 1).toNat]? with
  | none => (s, 1, [])
  | some r =>
    let ws : List Word := [wordOf (r.cause + r.detail * 2 ^ 8 + r.ctx * 2 ^ 32 + r.gen * 2 ^ 48), r.addr, wordOf r.cyc, wordOf r.slice]
    (s, 0, ws.flatMap fun w => natBytes 8 w.toNat)

/-- The command in MCMD0 (R434): its effect, status and output. `image` is what the host has at the bus address of FWLOAD. -/
def mailCommand (s : State) (image : List Byte) : State × Nat × List Byte :=
  match fieldOf (s.mcmdAt 0) 0 8 with
  | 1 => s.fwLoad image
  | 2 => s.quoteVf
  | 3 => s.ownMove
  | 4 => s.logRead
  | _ => (s, 255, [])

/-- The host rings the mailbox (R434): a write while GO = 1 is ignored. -/
def ring (s : State) (image : List Byte) : State :=
  if s.mailboxBusy then s
  else
    let r := (s.modPkg fun p => { p with mdoor := setField p.mdoor 0 1 1 }).mailCommand image
    r.1.modPkg fun p => { p with answer := some r.2 }

/-- Akmon answers (R434): the output is placed in MBUF, STATUS, OUTLEN and DONE are set, GO is cleared, PF vector 0 is raised. -/
def mailAnswer (s : State) : State :=
  match s.pkg.answer with
  | none => s
  | some (status, out) => (s.putMbuf 0 out).modPkg fun p => { p with
      mdoor := setField (setField (setField (setField p.mdoor 8 8 status) 32 16 out.length) 1 1 1) 0 1 0
      answer := none
      msi := (0, 0) :: p.msi }

/-- The image at a host bus address, as Akmon reads it by DMA where no event names it: the host's memory is outside the part. -/
def hostImage (s : State) : List Byte := (List.range (s.mcmdAt 2).toNat).map fun j => Config.hostByte ((s.mcmdAt 1).toNat + j)

/-- The host writes a word of the PF's window 0 (R433, R434): DOORBELL, MCMD0–7, MDOOR or MBUF; every other word ignores it. In
recovery the PF answers no DOORBELL (R435). MCMD0 keeps its command code alone. -/
def pfWrite (s : State) (off : Nat) (v : Word) : State :=
  if off % 8 ≠ 0 then s
  else if off = 0x18 then if s.pkg.boot = .recovery then s else s.pfDoorbell v
  else if off = 0x100 then s.modPkg fun p => { p with mcmd := aset p.mcmd 0 (v &&& 0xFF) }
  else if 0x100 < off ∧ off ≤ 0x138 then s.modPkg fun p => { p with mcmd := aset p.mcmd ((off - 0x100) / 8) v }
  else if off = 0x140 then
    let s := if v.getLsbD 1 then s.modPkg fun p => { p with mdoor := setField p.mdoor 1 1 0 } else s
    if v.getLsbD 0 then s.ring s.hostImage else s
  else if 0x4000 ≤ off ∧ off < 0x8000 then s.putMbuf (off - 0x4000) (natBytes 8 v.toNat)
  else s

/-! ### Links (R428 to R431, R433) -/

/-- A retry event of a link (R429, R433): links 0 to 135, then the mesh router links of dies 0 to 3. -/
def retryLink (s : State) (l : Nat) : State :=
  if l < 136 then s.modLink l fun k => { k with
    retry := satInc k.retry
    recent := (s.cyc :: k.recent).filter fun t => decide (s.cyc < t + 2 ^ 24) }
  else if l < 140 then s.modDie (l - 136) fun d => { d with meshRetry := satInc d.meshRetry }
  else s

/-- Stop a partition over a link failure (R430, R431). -/
def stopPartition (s : State) (c : Nat) : State := if (s.ctx c).live && (s.ctx c).depth == 1 then s.stopTree c else s

/-- The partitions that sent traffic over a link within some cycles (R430, R431): those noted, and those that a free value names,
since the routes of walks, echoes, replies, host accesses and Akmon's messages are not followed (log entry 37). -/
def recentTraffic (s : State) (l cycles : Nat) : List Nat × State :=
  let (v, s) := s.drawNat Config.freeNat
  ((((s.link_ l).traffic.filter fun t => decide (s.cyc ≤ t.2 + cycles)).map (·.1) ++
    (s.ctxs.filter fun x => v.testBit x.1 && x.2.live && x.2.depth == 1).map (·.1)).eraseDups, s)

/-- MCHECK of a link (R234, R235): logged, with the record's number in FLT2. -/
def linkCheck (s : State) (l detail ctx gen : Nat) (owner : Owner) : State :=
  let n := s.pkg.log.length
  let s := s.logCheck ⟨0x15, detail, ctx, gen, wordOf l, s.cyc, 0xFF⟩
  s.seqNotice ctx gen { cause := 0x15, detail := detail, addr := wordOf l, info := wordOf n, owner := owner, acc := 3, straddle := false }

/-- A partition's header failed (R430): it is stopped, the root is told, and its VF shows link recovery. -/
def headerFailed (s : State) (l c : Nat) : State :=
  let gen := (s.ctx c).gen
  let s := (s.stopPartition c).linkCheck l 3 c gen .root
  s.modPkg fun p => { p with
    vfs := p.vfs.map fun (i, v) => (i, if v.ctx == some (c, gen) then { v with recovery := true } else v) }

/-- Does a context's running engine command satisfy a test? The cluster of the first that does. -/
def engineOf (s : State) (c g : Nat) (p : EngCmd → Bool) : Option Nat :=
  (s.clusters.find? fun (_, k) => k.engine.head?.any fun e => e.started.isSome && e.ctx == c && e.gen == g && p e).map (·.1)

/-- Does a copy's next word cross a link between dies, on its way from its source or to its destination (R180)? -/
def copyCrosses (s : State) (l : Nat) (e : EngCmd) : Bool :=
  e.kind == .cpy && (e.words.head?.any fun w => (w.src.toList ++ w.dst.toList).any fun a => (s.crossing e.core (dieOf a)).contains l)

/-- The unit of a context that a link was carrying is lost (R430), and its words arrive as poison. On a Korxo port: the next line of a
POOLRD or a POOLWR. Between dies: the words of its first request that crosses the link, else of its first synchronising request, else
of the next line of a copy. Which unit the event hits is open where several are on their way (log entry 37). -/
def losePayload (s : State) (l c g : Nat) : State :=
  if l < 8 then
    match s.engineOf c g fun e => e.kind != .cpy with
    | some n => s.poolLineLost n
    | none => s
  else
    match s.reqs.find? fun r => r.ctx == c && r.gen == g && (s.crossing r.core (dieOf r.addr)).contains l with
    | some r => { s with reqs := s.reqs.map fun x =>
        if x.n = r.n then { x with poison := List.replicate (wordsOf x.addr x.bytes.length).length true } else x }
    | none =>
      match s.syncs.find? fun q => (s.slot q.2.1 q.2.2.1).ctx == c && (s.slot q.2.1 q.2.2.1).gen == g &&
          (s.crossing q.2.1 (dieOf q.2.2.2.addr)).contains l with
      | some q => { s with syncs := s.syncs.map fun x =>
          if x.1 = q.1 then (x.1, x.2.1, x.2.2.1, { x.2.2.2 with value := { x.2.2.2.value with poison := true } }) else x }
      | none =>
        match s.engineOf c g (s.copyCrosses l) with
        | some n => s.loseWords n
        | none => s

/-- A payload failed (R430): its context is stopped and its partition receives MCHECK. -/
def payloadFailed (s : State) (l c g : Nat) : State :=
  if (s.ctx c).live && (s.ctx c).gen == g then (s.stopTree c).linkCheck l 2 c g .partition else s

/-- A failure that retries did not resolve is contained by tier (R430). -/
def failLink (s : State) (l : Nat) (e : LinkFault) : State :=
  match e with
  | .payload c g => (s.losePayload l c g).payloadFailed l c g
  | .header n => match s.vfCtx n with
    | some c => s.headerFailed l c
    | none => s
  | .headerAndTag =>
    let (cs, s) := s.recentTraffic l (2 ^ 16)
    cs.foldl (fun s c => s.headerFailed l c) s

/-- Retire a link with more than 64 retry events within 2^24 cycles (R431): every partition that used it lately is
stopped first. From then on `edgeLink` and `notePort` choose other links for its traffic. -/
def retireLink (s : State) (l : Nat) : State :=
  let k := s.link_ l
  if l < 136 && !k.ret && decide ((k.recent.filter fun t => decide (s.cyc < t + 2 ^ 24)).length > 64) then
    let (cs, s) := s.recentTraffic l (2 ^ 24)
    (cs.foldl (fun s c => s.stopPartition c) s).modLink l fun k => { k with ret := true }
  else s

/-- Carry out the operation of a frame whose header is good (R428): each flit is delivered, or, where it failed, as poison (R430). -/
def frameOp (s : State) (f : KorxoFrame) : State :=
  match f.op with
  | .lines cl =>
    if (s.cluster cl).engine.head?.any fun e => e.ctx == f.ctx && e.gen == f.gen then
      f.flits.foldl (fun s (v, ok) => if ok then s.poolFlit cl v else s.poolLineLost cl) s
    else s
  | .owner pool frame d => if frame < 2 ^ 36 then s.moveOwner (pool * 2 ^ 36 + frame) d else s
  | .other => s

/-- A Korxo frame arrives on a port (R428): its header is checked first, then its flits; its partition's traffic is noted and its
operation carried out. A frame on a link that is down, with another EtherType, for another device, or beyond the frame limit changes
nothing. -/
def receiveFrame (s : State) (f : KorxoFrame) : State :=
  let k := s.link_ f.port
  if f.port ≥ 8 || !k.up || k.ret || f.etherType ≠ s.pkg.etherType || decide (f.flits.length > 128) then s
  else if !f.headerOk then s.failLink f.port (if f.tagOk then .header f.vfTag else .headerAndTag)
  else if f.dst ≠ s.pkg.device.toNat then s
  else
    let s := s.modLink f.port fun k => { k with traffic := aset k.traffic f.part s.cyc }
    let s := s.modPkg fun p => { p with korxoSeq := aset p.korxoSeq f.port (max f.seqNo (aget p.korxoSeq 0 f.port)) }
    let s := s.frameOp f
    if f.flits.any fun x => !x.2 then s.payloadFailed f.port f.ctx f.gen else s

/-! ### Power (R438, R439) -/

/-- Set THR: the limit in force binds. -/
def setThr (s : State) : State := s.modPkg fun p => { p with thr := decide (p.pnow.toNat > 1000 * p.limit.toNat) }

/-- A new limit takes effect (R439). -/
def plimEffect (s : State) : State :=
  match s.pkg.plimNew with
  | some v => (s.modPkg fun p => { p with
      plimNew := none
      limit := v }).setThr
  | none => s

/-- The sensors (R438): the power drawn and the temperatures are free values. A new limit takes effect within 1 ms, 1,750,000 cycles
(R439). -/
def powerCycle (s : State) : State :=
  let (w, s) := s.drawNat Config.freeNat
  let (t, s) := s.drawNat Config.freeNat
  let (v, s) := s.drawNat Config.freeNat
  let s := (s.modPkg fun p => { p with
    pnow := BitVec.ofNat 32 w
    temp := wordOf t }).setThr
  if v % 2 = 1 ∨ s.pkg.plimAt + 1750000 ≤ s.cyc then s.plimEffect else s

end State

/-- HOST_WINDOW_READ (R425). -/
def execHostWindowRead (vf off len : Nat) (s : State) : Out := .next (s.hostRead vf off len)

/-- HOST_WINDOW_WRITE (R425). -/
def execHostWindowWrite (vf off : Nat) (data : List Byte) (relaxed : Bool) (s : State) : Out :=
  .next (if vf = 0 ∨ vf > s.pkg.numVfs then s else s.hostWrite vf off data relaxed)

/-- WBASE_WRITE (R424): an unbound VF drops the data of writes (R422). -/
def execWbaseWrite (vf : Nat) (v : BitVec 64) (s : State) : Out :=
  .next (s.controlWrite vf 0x008 v)

/-- HV_CLEAR (R424). -/
def execHvClear (vf : Nat) (s : State) : Out :=
  .next (s.controlWrite vf 0x010 (wordOf (2 ^ 63)))

/-- DOORBELL (R173, R424). -/
def execDoorbell (vf : Nat) (v : BitVec 64) (s : State) : Out := .next (s.controlWrite vf 0x018 v)

/-- DBLOST_CLEAR: a write of DOORBELL with bit 63 set (R424). -/
def execDblostClear (vf : Nat) (s : State) : Out := .next (s.controlWrite vf 0x018 (wordOf (2 ^ 63)))

/-- PF_DOORBELL (R433). -/
def execPfDoorbell (v : BitVec 64) (s : State) : Out := .next (s.pfWrite 0x18 v)

/-- VF_BIND (R422): in step 7 of start-up (R436), a virtual function that is not bound takes a live partition that no other has, one
per partition (R9). -/
def execVfBind (vf ctx : Nat) (s : State) : Out :=
  .next (if s.pkg.boot = .service ∧ vf ≠ 0 ∧ vf ≤ 64 ∧ (s.vfCtx vf).isNone ∧ (s.ctx ctx).live ∧ (s.ctx ctx).depth = 1 ∧
        s.pkg.vfs.all (fun v => v.2.ctx != some (ctx, (s.ctx ctx).gen)) then
      s.modVf vf fun _ =>
        { Vf.reset with
          ctx := some (ctx, (s.ctx ctx).gen) }
    else s)

/-- FWLOAD (R434): the command block, then the ring; `image` is what the host has at the bus address. -/
def execFwload (addr len : BitVec 64) (image : List Byte) (s : State) : Out :=
  .next ((s.putCommand [1, addr, len]).ring image)

/-- QUOTE (R437): the nonce in MBUF and the command block, then the ring. -/
def execQuote (vf nlen : BitVec 64) (nonce : List Byte) (s : State) : Out :=
  .next (((s.putMbuf 0 nonce).putCommand [2, vf, nlen]).ring [])

/-- OWNMOVE (R432). -/
def execOwnmove (pool frame owner : BitVec 64) (s : State) : Out :=
  .next ((s.putCommand [3, pool, frame, owner]).ring [])

/-- LOGREAD (R434). -/
def execLogread (n : BitVec 64) (s : State) : Out := .next ((s.putCommand [4, n]).ring [])

/-- MAILBOX_UNKNOWN (R434): the host writes words of window 0, those of MCMD0–7 and MBUF among them, and rings the mailbox; a code
that is no command's answers 255. -/
def execMailboxUnknown (writes : List (Nat × BitVec 64)) (s : State) : Out :=
  .next ((writes.foldl (fun s (off, v) => s.pfWrite off v) s).pfWrite 0x140 1)

/-- MAILBOX_ANSWER (R434). -/
def execMailboxAnswer (s : State) : Out := .next s.mailAnswer

/-- DONE_CLEAR (R434): MDOOR is written with DONE set and GO clear. -/
def execDoneClear (s : State) : Out := .next (s.pfWrite 0x140 2)

/-- PLIM_WRITE (R438): clamped to 600 to 2,400 W. -/
def execPlimWrite (w : BitVec 16) (s : State) : Out :=
  let v : BitVec 16 := BitVec.ofNat 16 (max 600 (min 2400 w.toNat))
  .next (s.modPkg fun p => { p with
    plim := v
    plimNew := some v
    plimAt := s.cyc })

/-- PLIM_EFFECT (R439). -/
def execPlimEffect (s : State) : Out := .next s.plimEffect

/-- KORXO_FRAME (R428). -/
def execKorxoFrame (f : KorxoFrame) (s : State) : Out := .next (s.receiveFrame f)

/-- LINK_RETRY (R429). -/
def execLinkRetry (l : Nat) (s : State) : Out := .next (s.retryLink l)

/-- LINK_ERROR (R430). -/
def execLinkError (l : Nat) (e : LinkFault) (s : State) : Out := .next (s.failLink l e)

/-- LINK_RETIRE (R431). -/
def execLinkRetire (l : Nat) (s : State) : Out := .next (s.retireLink l)

/-- LINK_TRAINED (R433). -/
def execLinkTrained (l : Nat) (up : Bool) (s : State) : Out :=
  .next (if l < 136 then s.modLink l fun k => { k with up := up } else s)

/-- NUMVFS_WRITE (R422): at most TotalVFs = 64. -/
def execNumvfsWrite (n : Nat) (s : State) : Out := .next (if n ≤ 64 then s.modPkg fun p => { p with numVfs := n } else s)

end Sys2Proof.Machine
end

