-- ==== Sys2Proof/Machine/Boot.lean ====
section
/-!
DEFINITION. Start-up (R435, R436, R445): each step begins only when the one before it has completed; an event that comes
before its step changes nothing.
-/

namespace Sys2Proof.Machine

namespace State

/-- Step 2 (R435): the staged image, or the one fetched, is judged; the device keeps no other. -/
def judge (s : State) (image : List Byte) : State :=
  if s.pkg.boot = .rom ∨ s.pkg.boot = .recovery then
    let img := s.pkg.staged.getD image
    let s := s.modPkg fun p => { p with staged := none }
    if judgeImage img = 0 then s.modPkg fun p => { p with
      boot := .judged
      fwm := Config.sha3 img
      svn := Config.imageSvn img }
    else s.modPkg fun p => { p with boot := .recovery }
  else s

/-- Step 3 (R436): retirement is decided and every line of device memory is zero and clean. IRSIZE stays within R45. -/
def initMemory (s : State) (retired : Option Nat) : State :=
  if s.pkg.boot = .judged ∧ retired.all (· < 192) then
    let s := { s with
      mem := s.mem.filter fun x => decide (2 ^ 40 ≤ x.1)
      poison := s.poison.filter fun w => decide (2 ^ 37 ≤ w)
      uncorr := [] }
    s.modPkg fun p => { p with
      boot := .memory
      retired := retired
      failed := []
      logged := []
      irsize := min p.irsize ((if retired.isSome then 191 else 192) * (2 ^ 32 - p.cbs - 4096)) }
  else s

/-- Step 4 (R436): the dies are powered in order, each at least 200 µs (350,000 cycles) after the one before. -/
def powerDie (s : State) (die : Nat) : State :=
  if (s.pkg.boot = .memory ∨ s.pkg.boot = .dies) ∧ die = s.pkg.diesUp ∧ die < 4 ∧ (die = 0 ∨ s.pkg.dieAt + 350000 ≤ s.cyc) then
    s.modPkg fun p => { p with
      boot := .dies
      diesUp := die + 1
      dieAt := s.cyc }
  else s

/-- Step 4 (R436): the rows of a powered die are released from row 0 to row 31, each 64 cycles after the one before. -/
def releaseRow (s : State) (die row : Nat) : State :=
  let n := aget s.pkg.rowsUp 0 die
  if s.pkg.boot = .dies ∧ die < s.pkg.diesUp ∧ row = n ∧ row < 32 ∧ (row = 0 ∨ s.cyc = aget s.pkg.rowAt 0 die + 64) then
    let s := (s.liveIn (Site.mk die 0 row) 32).foldl (fun s c => s.modCore c fun k => { k with running := true }) s
    s.modPkg fun p => { p with
      rowsUp := aset p.rowsUp die (row + 1)
      rowAt := aset p.rowAt die s.cyc
      boot := if (List.range 4).all fun d => (if d = die then row + 1 else aget p.rowsUp 0 d) == 32 then .rows else .dies }
  else s

/-- Write the words of the root's stage-1 tables to device memory, by machine address (R452); a failed slice drops them (R47). -/
def placeTables (s : State) (ws : List (Nat × Word)) : State :=
  ws.foldl (fun s (a, v) => if a % 8 = 0 ∧ a < 2 ^ 40 then s.acceptBytes a (natBytes 8 v.toNat) [false] else s) s

/-- The pages of a section, by physical address, when the root's tables map each for a kind of access (R445). -/
def sectionPages (s : State) (k : Kind) : List (Nat × Nat) → Option (List (Nat × Nat))
  | [] => some []
  | (va, n) :: rest =>
    match s.translateDirect 0 (wordOf va) k with
    | .error _ => none
    | .ok (a, _, s) => (sectionPages s k rest).map fun l => (a, n) :: l

/-- Place a section of the image where the root's tables map it, readable and, for text, executable, for data, writable (R445); none
where they do not. -/
def placeSection (s : State) (x : Section) (k : Kind) : Option State :=
  let ps := pieces (x.bytes.length / 4096 + 2) x.addr.toNat x.bytes.length
  match s.sectionPages .read ps, s.sectionPages k ps with
  | some _, some l => some (l.foldl (fun (s, bs) (a, n) => (s.acceptBytes a (bs.take n) [], bs.drop n)) (s, x.bytes)).1
  | _, _ => none

/-- Akmon writes the root's descriptor, its tables and the image's sections (R445, R452); none where the tables do not map the
sections. -/
def placeImage (s : State) (img : BootImage) : Option State :=
  let s := (s.placeTables img.tables).modCtx 0 fun k => { k with
    s1root := img.s1root
    s2base := img.s2base
    s2len := img.s2len
    s2 := img.s2.foldl (fun l (i, e) => if e = 0 then l else aset l i e) [] }
  (s.placeSection img.text .fetch).bind fun s => s.placeSection img.data .write

/-- Step 5 (R445): FEAT := FEATADV, the image is placed, and its boot record, read from where it lies in the root, starts slot 0 of every
live core of die 0, in one placement group. -/
def startBoot (s : State) (img : BootImage) : State :=
  if s.pkg.boot ≠ .rows then s
  else match s.placeImage img with
  | none => s
  | some s' =>
    match s'.readBlock 0 img.record 8 with
    | .error _ => s
    | .ok (l, s') =>
      let r : LaunchRec := ⟨s'.serial, 0, (s'.ctx 0).gen, img.record, l.map (·.val), 0, 0, none, false, false, none, false⟩
      match s'.readTemplate 0 r with
      | (_, none) => s
      | (s', some tpl) =>
        let s' := s'.modPkg fun p => { p with
          feat := p.featAdv
          boot := .program }
        let lead := (s'.liveIn 0 32).head?
        (s'.liveIn 0 1024).foldl (fun s c =>
          (s.loadItem r tpl (if lead = some c then 1 else 0) c).modCore c fun k => { k with group := some (0, 0) }) s'

/-- Step 5 ends (R436): every slot 0 of die 0 has exited, and the other dies come into service. -/
def serveDies (s : State) : State :=
  if s.pkg.boot = .program ∧ (s.liveIn 0 1024).all (fun c => (s.slot c 0).state == .free) then
    let s := (s.liveIn 0 1024).foldl (fun s c => s.modCore c fun k => { k with
      group := none
      ports := [] }) s
    s.modPkg fun p => { p with boot := .service }
  else s

end State

/-- POWER_ON (R436): Akmon's cores start from ROM. -/
def execPowerOn (s : State) : Out :=
  .next (if s.pkg.boot = .off then s.modPkg fun p => { p with boot := .rom } else s)

/-- IMAGE_JUDGE (R435). -/
def execImageJudge (image : List Byte) (s : State) : Out := .next (s.judge image)

/-- MEMORY_INIT (R436). -/
def execMemoryInit (retired : Option Nat) (s : State) : Out := .next (s.initMemory retired)

/-- DIE_POWER_UP (R436). -/
def execDiePowerUp (die : Nat) (s : State) : Out := .next (s.powerDie die)

/-- ROW_RELEASE (R436). -/
def execRowRelease (die row : Nat) (s : State) : Out := .next (s.releaseRow die row)

/-- BOOT_PROGRAM_START (R445). -/
def execBootProgramStart (img : BootImage) (s : State) : Out := .next (s.startBoot img)

/-- DIES_INTO_SERVICE (R436). -/
def execDiesIntoService (s : State) : Out := .next s.serveDies

end Sys2Proof.Machine
end

