-- ==== Sys2Proof/Machine/Control.lean ====
section
/-!
DEFINITION. Control flow (R283 to R292): branches, jumps, hardware loops, the repeat frame, NOP and YIELD.
-/

namespace Sys2Proof.Machine

/-- Does a compare-branch take its target (R283)? -/
def branchTaken (op : BranchOp) (a b : Word) : Bool :=
  match op with
  | .beq => a == b
  | .bne => a != b
  | .blt => a.slt b
  | .bge => !a.slt b
  | .blo => a.ult b
  | .bhs => !a.ult b

namespace State

/-- A compare-branch (R246, R283). -/
def branch (s : State) (st : Stall) (op : BranchOp) (a b : Reg) (p : Disp) : State :=
  s.useRegs [a, b]
    (if branchTaken op (s.reg a).val (s.reg b).val then s.transfer st (s.me.pc + dispBytes p)
     else s.retire st (dispLen p))

/-- Write a link register, at distance 1, and transfer control (R284, R285). -/
def link (s : State) (st : Stall) (d : Reg) (back target : Word) : State :=
  match if s.me.chk then lateDest s.me 1 (s.wr d back false) else none with
  | some (x, left) => s.raise (s.stallShort x left)
  | none => (s.post 1 (s.wr d back false)).transfer st target

/-- LoopSetup (R288): loop n of count `cnt`, for a loop instruction of `len` bytes whose last body instruction starts
`last` words on. -/
def loopSetup (s : State) (st : Stall) (n cnt last len : Nat) : State :=
  let p := s.me.pc
  let e := p + wordOf (4 * last)
  match s.fetchWord s.cur.1 s.cur.2 e with
  | .fault t => s.raise t
  | .miss v => s.missPark s.cur.1 s.cur.2 v .fetch
  | .ok w _ s =>
    s.modMe fun sl =>
      let sl := ((sl.setStat 24 3 (sl.stallOf st)).setCb (cbLs + n) (p + wordOf len)).setCb (cbLe + n) e
      let sl := if cnt = 0 then (sl.setLc n 0).endCheck e (wordsSize w) else (sl.setLc n cnt).setPc (p + wordOf len)
      { sl with
        waitSince := none
        walkFault := none
        lanes := []
        asIssued := [] }

end State

/-- BEQ, short form (R283). -/
def execBeq (st : Stall) (a b : Reg) (p : BitVec 8) (s : State) : Out := .next (s.branch st .beq a b (.short p))

/-- BNE, short form (R283). -/
def execBne (st : Stall) (a b : Reg) (p : BitVec 8) (s : State) : Out := .next (s.branch st .bne a b (.short p))

/-- BLT, short form (R283). -/
def execBlt (st : Stall) (a b : Reg) (p : BitVec 8) (s : State) : Out := .next (s.branch st .blt a b (.short p))

/-- BGE, short form (R283). -/
def execBge (st : Stall) (a b : Reg) (p : BitVec 8) (s : State) : Out := .next (s.branch st .bge a b (.short p))

/-- BLO, short form (R283). -/
def execBlo (st : Stall) (a b : Reg) (p : BitVec 8) (s : State) : Out := .next (s.branch st .blo a b (.short p))

/-- BHS, short form (R283). -/
def execBhs (st : Stall) (a b : Reg) (p : BitVec 8) (s : State) : Out := .next (s.branch st .bhs a b (.short p))

/-- A compare-branch in the long form (R246, R283). -/
def execBranchLong (st : Stall) (op : BranchOp) (a b : Reg) (p : BitVec 32) (s : State) : Out :=
  .next (s.branch st op a b (.long p))

/-- JMP (R284). -/
def execJmp (st : Stall) (p : Disp) (s : State) : Out := .next (s.transfer st (s.me.pc + dispBytes p))

/-- JAL: the link is the address after the JAL (R284). -/
def execJal (st : Stall) (d : Reg) (p : Disp) (s : State) : Out :=
  .next (s.link st d (s.me.pc + wordOf (dispLen p)) (s.me.pc + dispBytes p))

/-- JALR: a target that is not word-aligned raises ALIGN (R284). -/
def execJalr (st : Stall) (d a : Reg) (i : Imm) (s : State) : Out :=
  let t := (s.reg a).val + immValue i
  .next (s.useRegs [a]
    (if t.toNat % 4 ≠ 0 then s.raise (State.alignTrap t 4 2) else s.link st d (s.me.pc + wordOf (immLen i)) t))

/-- LOOP: the count is in the extension word (R264, R288). -/
def execLoop (st : Stall) (n : BitVec 2) (i : BitVec 8) (count : BitVec 32) (s : State) : Out :=
  .next (s.loopSetup st n.toNat count.toNat i.toNat 8)

/-- LOOPR: the count is wa[31:0] (R288). -/
def execLoopr (st : Stall) (n : BitVec 2) (a : Reg) (i : BitVec 8) (s : State) : Out :=
  .next (s.useRegs [a] (s.loopSetup st n.toNat (fieldOf (s.reg a).val 0 32) i.toNat 4))

/-- LOOPM: the count is MBXm[31:0]; a poisoned MBXm raises POISON (R288). -/
def execLoopm (st : Stall) (n : BitVec 2) (m : BitVec 3) (i : BitVec 8) (s : State) : Out :=
  .next (if s.me.cbPoison.contains (cbMbx + m.toNat) then s.raise (State.poisonTrap (wordOf (0xAC0 + 8 * m.toNat)))
    else s.loopSetup st n.toNat (fieldOf (s.me.cbWord (cbMbx + m.toNat)) 0 32) i.toNat 4)

/-- RPT: capture the frame, then replay it (R291). -/
def execRpt (st : Stall) (len : BitVec 4) (n : BitVec 12) (sd sa sb sc : BitVec 4) (s : State) : Out :=
  let first := s.me.pc + 8
  .next (match State.capture s.cur.1 s.cur.2 sd sa sb (len.toNat + 1) s first with
    | .fault pc t => s.abandonFrame s.cur.1 s.cur.2 pc t
    | .miss v => s.missPark s.cur.1 s.cur.2 v .fetch
    | .ok code s => s.modMe fun sl =>
      { (((sl.setStat 24 3 (sl.stallOf st)).setCb cbRptst 1).setPc first) with
        frame := some ⟨code, n.toNat + 1, sd, sa, sb, sc⟩
        waitSince := none
        walkFault := none
        lanes := []
        asIssued := [] })

/-- NOP (R287). -/
def execNop (st : Stall) (s : State) : Out := .next (s.retire st 4)

/-- YIELD: the other READY slots are awaited, for at most 10 issue cycles (R287). -/
def execYield (st : Stall) (s : State) : Out :=
  let others := (List.range 11).filter fun j => j != s.cur.2 && (s.slot s.cur.1 j).state == .ready
  .next ((s.retire st 4).modMe fun sl => { sl with yielding := some (others, 10) })

end Sys2Proof.Machine
end

