-- ==== Sys2Proof/Machine/Sched.lean ====
section
/-!
DEFINITION. Turns: how a core offers an issue cycle (R203, R204, R287), and what a slot does with its turn (R229, R231, R241).
`step` is built from these.
-/

namespace Sys2Proof.Machine

/-- What a slot does with its turn. -/
inductive Turn where
  /-- It runs an instruction. -/
  | run (i : Instr) (s : State)
  /-- It traps, parks, or has nothing to do. -/
  | stopped (s : State)

namespace State

/-- The slots of a core from its pointer onward, wrapping from 10 to 0 (R203). -/
def rotation (ptr : Nat) : List Nat := (List.range 11).map fun k => (ptr + k) % 11

/-- May a slot be offered a turn: READY, and not offered one in the previous 3 cycles (R203)? -/
def mayTurn (s : State) (c : Site) (i : Nat) : Bool :=
  (s.slot c i).state == .ready && (match (s.slot c i).lastOffer with
    | some t => decide (t + 3 < s.cyc)
    | none => true)

/-- Drop from every YIELD of a core the slots that are no longer READY, and the slot that is offered a turn (R287). -/
def pruneYields (s : State) (c : Site) (offered : Option Nat) : State :=
  (List.range 11).foldl (fun s i =>
    match (s.slot c i).yielding with
    | some (l, t) => s.modSlot c i fun sl => { sl with
        yielding := some (l.filter (fun j => (s.slot c j).state == .ready && some j != offered), t) }
    | none => s) s

/-- Is the slot still yielding (R287)? -/
def isYielding (s : State) (c : Site) (i : Nat) : Bool :=
  match (s.slot c i).yielding with
  | some (l, n) => !l.isEmpty && decide (0 < n)
  | none => false

/-- An issue cycle of a core begins: every YIELD of it has one fewer to wait (R287). -/
def tickYields (s : State) (c : Site) : State :=
  (List.range 11).foldl (fun s i =>
    match (s.slot c i).yielding with
    | some (l, n) => s.modSlot c i fun sl => { sl with yielding := some (l, n - 1) }
    | none => s) s

/-- Spend a turn without issuing (R204, R287): RESID counts down, where the slot owes turns. -/
def spendTurn (s : State) (c : Site) (i : Nat) : State :=
  if (s.slot c i).state == .ready && (s.slot c i).resid ≠ 0 then
    s.modSlot c i fun sl => sl.setStat 24 3 (sl.resid - 1)
  else s

/-- Offer a turn to a slot: the pointer moves past it, every result in flight is a turn nearer, and those due land. -/
def offerTurn (s : State) (c : Site) (i : Nat) : State :=
  let s := s.pruneYields c (some i)
  let s := s.modCore c fun k => { k with ptr := (i + 1) % 11 }
  ((s.modSlot c i fun sl => { sl with lastOffer := some s.cyc }).tickSlot c i).landDue c i

/-- Offer an issue cycle of a core (R203): the state, and the slot that issues. A slot that owes a turn spends it, and the
cycle goes to the next eligible slot. -/
def offerCycle : Nat → State → Site → State × Option Nat
  | 0, s, _ => (s, none)
  | n + 1, s, c =>
    let s := s.pruneYields c none
    match (rotation (s.core c).ptr).find? (s.mayTurn c) with
    | none => (s, none)
    | some i =>
      let s := s.offerTurn c i
      if (s.slot c i).resid ≠ 0 ∨ s.isYielding c i then offerCycle n (s.spendTurn c i) c
      else (s, some i)

/-- An issue cycle of a core: what it offers, and the slot that issues. -/
def issueCycle (s : State) (c : Site) : State × Option Nat := offerCycle 11 (s.tickYields c) c

/-- Deliver a kept trap when its slot resumes (R231): an own trap, FLT2 of PROMISE_MISS being CYC
then (R234), or one that climbed from a child (R225). -/
def deliverKept (s : State) (c : Site) (i : Nat) (k : KeptTrap) : State :=
  match k.child with
  | none => s.raiseAt c i (if k.trap.cause = 0x0A then { k.trap with info := wordOf s.cyc } else k.trap)
  | some o =>
    let a := (s.slot c i).ctx
    match s.takeAt k.trap o a c with
    | some s => s
    | none => s.climbFrom k.trap o a

/-- The instruction of a slot's turn: from its repeat frame, or fetched (R241, R291). -/
def issueInstr (s : State) (c : Site) (i : Nat) : Turn :=
  let sl := s.slot c i
  if sl.act then
    match sl.frame with
    | some f =>
      let r := sl.cbWord cbRptst
      let (w, e) := f.code.getD (fieldOf r 16 4) (0, 0)
      match s.decodeHere w e with
      | some x => .run (stepInstr f (fieldOf r 20 12) x) s
      | none => .stopped (s.raiseAt c i (illTrap w))
    | none => .stopped s
  else match s.fetchInstr c i sl.pc with
    | .fault t => .stopped (s.raiseAt c i t)
    | .miss v => .stopped (s.fetchPark c i v)
    | .ok w e s => match s.decodeHere w e with
      | some x => .run x s
      | none => .stopped (s.raiseAt c i (illTrap w))

/-- The turn of a slot: a kept trap or a gang timeout first (R231, R338), then its instruction. -/
def turn (s : State) (c : Site) (i : Nat) : Turn :=
  let sl := s.slot c i
  if sl.state ≠ .ready then .stopped s
  else match sl.kept with
    | k :: rest => .stopped ((s.modSlot c i fun sl => { sl with kept := rest }).deliverKept c i k)
    | [] =>
      match sl.gangTrap with
      | some g => .stopped ((s.modSlot c i fun sl => { sl with gangTrap := none }).raiseAt c i
          (ownTrap 0x0B 0 (wordOf g) 0 3))
      | none =>
        let s := { s with cur := (c, i) }
        if sl.act && sl.frame.isNone then
          match s.recapture c i with
          | .ok s => s.issueInstr c i
          | .stopped s => .stopped s
        else s.issueInstr c i

end State

end Sys2Proof.Machine
end

