-- ==== Sys2Proof/Machine/CoreEvents.lean ====
section
/-!
DEFINITION. Events of cores, clusters and slices (R36, R47, R78, R204, R205, R271): results landing, misses presented
again, walks completing, spent turns, words that decode to no instruction, the scrubber, and a slice that fails.
-/

namespace Sys2Proof.Machine

namespace State

/-- A refused miss request is presented again 16 cycles after it was refused (R36). -/
def missAgain (s : State) (c : Site) (i : Nat) : State :=
  match (s.slot c i).wait with
  | some (.missRefused va k t) =>
    if t + 16 ≤ s.cyc then (s.missPark c i va k).modSlot c i fun sl => { sl with waitSince := (s.slot c i).waitSince } else s
  | _ => s

/-- A turn is offered to a slot that owes turns or yields, and is spent (R203, R204, R287). -/
def spentTurn (s : State) (c : Site) (i : Nat) : State :=
  if (s.slot c i).state == .ready && ((s.slot c i).resid != 0 || s.isYielding c i) then (s.offerTurn c i).spendTurn c i
  else s

/-- A slice corrects a single-bit error and counts it in SLCE, which saturates (R78, R433). -/
def correctError (s : State) (slice : Nat) : State :=
  s.modPkg fun p => { p with sliceCe := aset p.sliceCe slice (satInc (aget p.sliceCe 0 slice)) }

/-- A line of device memory becomes uncorrectable: all of its words (R78). -/
def spoilLine (s : State) (line : Nat) : State :=
  if line * 64 ≥ 192 * 2 ^ 32 then s
  else { s with uncorr := (List.range 8).foldl (fun l j => nset l (line * 8 + j)) s.uncorr }

/-- Errors of device memory come in any cycle and at any place (R78): a free value gives what happens in this one. -/
def memoryErrors (s : State) : State :=
  let (v, s) := s.drawNat Config.freeNat
  let (x, s) := s.drawNat Config.freeNat
  match v with
  | 0 => s.correctError (x % 192)
  | 1 => s.spoilLine x
  | _ => s

/-- The scrubber reads a line (R78): a correctable error, which a free value gives, is corrected and counted; an uncorrectable line is
logged once and its words are rewritten with the poison encoding, but those that stores have replaced since. -/
def scrubLine (s : State) (line : Nat) : State :=
  if line * 64 ≥ 2 ^ 40 then s
  else
    let bad := ((List.range 8).map (line * 8 + ·)).filter s.uncorr.contains
    match bad with
    | [] =>
      let (v, s) := s.drawNat Config.freeNat
      if v % 2 = 1 then s.correctError (line * 64 / 2 ^ 32) else s
    | w :: _ =>
      let s := bad.foldl (fun s w => s.tag (8 * w) true) (s.logUncorr w)
      ({ s with uncorr := s.uncorr.filter fun w => !bad.contains w }).modPkg fun p => { p with logged := ndel p.logged line }

/-- The scrubbers at work (R78): every uncorrectable line is read in some cycle, and so is any other line. -/
def scrubCycle (s : State) : State :=
  let s := ((s.uncorr.map (· / 8)).eraseDups).foldl (fun s l =>
    let (v, s) := s.drawNat Config.freeNat
    if v % 2 = 1 then s.scrubLine l else s) s
  let (x, s) := s.drawNat Config.freeNat
  s.scrubLine x

/-- A slice fails (R47): its reads return poison and its writes are dropped until the next reset, and it is logged. -/
def failSlice (s : State) (p : Nat) : State :=
  if p < 192 ∧ !s.pkg.failed.contains p then
    let (a, s) := s.drawNat Config.freeNat
    (s.modPkg fun k => { k with failed := nset k.failed p }).logSlice p (wordOf a)
  else s

end State

/-- RESULT_LAND (R205). -/
def execResultLand (core slot : Nat) (s : State) : Out := .next (s.landDue core slot)

/-- MISS_REPRESENT (R36). -/
def execMissRepresent (core slot : Nat) (s : State) : Out := .next (s.missAgain core slot)

/-- WALK_COMPLETE (R36). -/
def execWalkComplete (cluster : Nat) (s : State) : Out := .next (s.walkDone cluster)

/-- SPENT_TURN (R204). -/
def execSpentTurn (core slot : Nat) (s : State) : Out := .next (s.spentTurn core slot)

/-- ILLEGAL_INSTRUCTION (R271): the word is FLT1 of ILL. -/
def execIllegalInstruction (w : BitVec 32) (s : State) : Out := .next (s.raise (State.illTrap w.toNat))

/-- SCRUB (R78). -/
def execScrub (line : Nat) (s : State) : Out := .next (s.scrubLine line)

/-- SLICE_FAILURE (R47). -/
def execSliceFailure (slice : Nat) (s : State) : Out := .next (s.failSlice slice)

end Sys2Proof.Machine
end

