-- ==== Sys2Proof/Machine/FloatScalar.lean ====
section
/-!
DEFINITION. Scalar floating point (R280 to R282): OP 0x40 to 0x4A.
-/

namespace Sys2Proof.Machine

/-- The F32 code in a register (R280). -/
def f32Code (w : Word) : Nat := fieldOf w 0 32

namespace State

/-- A scalar floating-point operation on registers: result and flags from the F32 codes of its sources. -/
def fop (s : State) (st : Stall) (d : Reg) (rs : List Reg) (r : Nat × Flags) : State :=
  s.readCheck (s.regDests rs)
    (s.finishF st 4 r.2 [(2, s.wr d (wordOf r.1) (rs.any fun x => (s.reg x).poison))])

/-- A two-source operation on F32 codes. -/
def fop2 (s : State) (st : Stall) (d a b : Reg) (f : Nat → Nat → Nat × Flags) : State :=
  s.fop st d [a, b] (f (f32Code (s.reg a).val) (f32Code (s.reg b).val))

end State

/-- A truth value with flags as an integer result. -/
def boolFlags (r : Bool × Flags) : Nat × Flags := (r.1.toNat, r.2)

/-- The one-hot class mask of an F32 code (R281). -/
def fclsMask (c : Nat) : Nat :=
  let sg := c / 2 ^ 31 == 1
  match f32 c with
  | .nan => 256
  | .inf s => if s then 1 else 128
  | .fin _ m _ =>
    if m = 0 then (if sg then 8 else 16)
    else if c % 2 ^ 31 < 2 ^ 23 then (if sg then 4 else 32)
    else (if sg then 2 else 64)

/-- FCVT's result word and flags (R96, R282). -/
def fcvtWord (pair : Nat) (rm : Rm) (sat : Bool) (x : Word) : Word × Flags :=
  let v := f32 (f32Code x)
  let code (r : Nat × Flags) : Word × Flags := (wordOf r.1, r.2)
  match pair with
  | 0 => let r := convInt 32 rm v
         (BitVec.ofInt 64 r.1, r.2)
  | 1 => let i := (x.setWidth 32).toInt
         code (roundFmt Fmt.f32 rm false (decide (i < 0)) i.natAbs 0 false)
  | 2 => let r := convInt 64 rm v
         (BitVec.ofInt 64 r.1, r.2)
  | 3 => code (convFmt Fmt.b16 rm sat v)
  | 4 => code ((Fmt.b16.decode (fieldOf x 0 16)).rn Fmt.f32)
  | 5 => code (convFmt Fmt.f16 rm sat v)
  | _ => code ((Fmt.f16.decode (fieldOf x 0 16)).rn Fmt.f32)

/-- FADD (R280). -/
def execFadd (st : Stall) (d a b : Reg) (s : State) : Out :=
  .next (s.fop2 st d a b (codes2 Fmt.f32 fAdd))

/-- FSUB (R280). -/
def execFsub (st : Stall) (d a b : Reg) (s : State) : Out :=
  .next (s.fop2 st d a b (codes2 Fmt.f32 fSub))

/-- FMUL (R280). -/
def execFmul (st : Stall) (d a b : Reg) (s : State) : Out :=
  .next (s.fop2 st d a b (codes2 Fmt.f32 fMul))

/-- FMA: wa × wb + old wd, rounded once (R280). -/
def execFma (st : Stall) (d a b : Reg) (s : State) : Out :=
  .next (s.fop st d [d, a, b] (codesFma Fmt.f32 (f32Code (s.reg a).val) (f32Code (s.reg b).val) (f32Code (s.reg d).val)))

/-- FMIN, which sets no flag (R280). -/
def execFmin (st : Stall) (d a b : Reg) (s : State) : Out :=
  .next (s.fop2 st d a b fun x y => (fMin Fmt.f32 x y, Flags.none))

/-- FMAX, which sets no flag (R280). -/
def execFmax (st : Stall) (d a b : Reg) (s : State) : Out :=
  .next (s.fop2 st d a b fun x y => (fMax Fmt.f32 x y, Flags.none))

/-- FEQ (R280). -/
def execFeq (st : Stall) (d a b : Reg) (s : State) : Out :=
  .next (s.fop2 st d a b fun x y => boolFlags (codesEq Fmt.f32 x y))

/-- FLT (R280). -/
def execFlt (st : Stall) (d a b : Reg) (s : State) : Out :=
  .next (s.fop2 st d a b fun x y => boolFlags (codesLt Fmt.f32 x y))

/-- FLE (R280). -/
def execFle (st : Stall) (d a b : Reg) (s : State) : Out :=
  .next (s.fop2 st d a b fun x y => boolFlags (codesLe Fmt.f32 x y))

/-- FCLS (R281). -/
def execFcls (st : Stall) (d a : Reg) (s : State) : Out :=
  .next (s.fop st d [a] (fclsMask (f32Code (s.reg a).val), Flags.none))

/-- FCVT (R266, R282). -/
def execFcvt (st : Stall) (d a : Reg) (pair : BitVec 4) (sat : Bool) (rm : BitVec 2) (s : State) : Out :=
  let r := fcvtWord pair.toNat (Rm.ofCode rm.toNat) sat (s.reg a).val
  .next (s.readCheck (s.regDests [a]) (s.finishF st 4 r.2 [(2, s.wr d r.1 (s.reg a).poison)]))

end Sys2Proof.Machine
end

