-- ==== Sys2Proof/Machine/Integer.lean ====
section
/-!
DEFINITION. Integer and address arithmetic (R244, R245, R274 to R279): every instruction of OP 0x01 to 0x2C.
-/

namespace Sys2Proof.Machine

/-! ### The operations, at any width (R275, R276) -/

/-- High half of the signed product. -/
def mulHigh {n : Nat} (a b : BitVec n) : BitVec n := BitVec.ofInt n (a.toInt * b.toInt / 2 ^ n)

/-- High half of the unsigned product. -/
def mulHighU {n : Nat} (a b : BitVec n) : BitVec n := BitVec.ofNat n (a.toNat * b.toNat / 2 ^ n)

/-- Signed quotient truncated toward zero; all ones for a zero divisor (R276). -/
def divS {n : Nat} (a b : BitVec n) : BitVec n := if b = 0 then BitVec.allOnes n else a.sdiv b

/-- Unsigned quotient; all ones for a zero divisor (R276). -/
def divU {n : Nat} (a b : BitVec n) : BitVec n := if b = 0 then BitVec.allOnes n else a / b

/-- Signed remainder, with the sign of the dividend (R276). -/
def remS {n : Nat} (a b : BitVec n) : BitVec n := if b = 0 then a else a.srem b

/-- Unsigned remainder (R276). -/
def remU {n : Nat} (a b : BitVec n) : BitVec n := if b = 0 then a else a % b

/-- A shift amount modulo the width. -/
def shAmt {n : Nat} (b : BitVec n) : Nat := b.toNat % n

/-- A truth value as a result. -/
def boolBits {n : Nat} (c : Bool) : BitVec n := if c then 1 else 0

/-- Leading zero bits; the width for zero. -/
def clzBits {n : Nat} (a : BitVec n) : BitVec n := BitVec.ofNat n (n - bitLen a.toNat)

/-- Trailing zero bits; the width for zero. -/
def ctzBits {n : Nat} (a : BitVec n) : BitVec n :=
  BitVec.ofNat n (((List.range n).find? fun i => a.getLsbD i).getD n)

/-- One bits. -/
def popBits {n : Nat} (a : BitVec n) : BitVec n :=
  BitVec.ofNat n ((List.range n).foldl (fun c i => c + (a.getLsbD i).toNat) 0)

/-- The carry-less product as a number. -/
def clmulNat (a b : Nat) : Nat → Nat
  | 0 => 0
  | k + 1 => clmulNat a b k ^^^ (if b.testBit k then a <<< k else 0)

/-- BEXT's field of a value (R278). -/
def bextWord (a b : Word) : Word :=
  (a >>> fieldOf b 0 6) &&& wordOf (2 ^ min (fieldOf b 8 7) 64 - 1)

/-- BINS's insertion into a field (R278). -/
def binsWord (a b : Word) : Word :=
  let m := wordOf (2 ^ min (fieldOf b 8 6) 32 - 1) <<< fieldOf b 0 6
  (a &&& ~~~m) ||| ((wordOf (fieldOf b 32 32) <<< fieldOf b 0 6) &&& m)

/-- A two-source operation at the width that t selects: its result extended to 64 bits (R244). -/
def atWidth (t : BitVec 2) (f : {n : Nat} → BitVec n → BitVec n → BitVec n) (a b : Word) : Word :=
  if t = 0 then f a b
  else if t = 1 then (f (a.setWidth 32) (b.setWidth 32)).signExtend 64
  else (f (a.setWidth 32) (b.setWidth 32)).setWidth 64

namespace State

/-- A scalar operation on two registers that parks nothing and raises nothing (R274). -/
def alu2 (s : State) (st : Stall) (dist : Nat) (d a b : Reg) (f : Word → Word → Word) : State :=
  s.readCheck (s.regDests [a, b])
    (s.finish st 4 [(dist, s.wr d (f (s.reg a).val (s.reg b).val) ((s.reg a).poison || (s.reg b).poison))])

/-- A scalar operation on one register. -/
def alu1 (s : State) (st : Stall) (dist len : Nat) (d a : Reg) (f : Word → Word) : State :=
  s.readCheck (s.regDests [a]) (s.finish st len [(dist, s.wr d (f (s.reg a).val) (s.reg a).poison)])

end State

/-- ADD (R275). -/
def execAdd (st : Stall) (d a b : Reg) (t : BitVec 2) (s : State) : Out :=
  .next (s.alu2 st 1 d a b (atWidth t (fun x y => x + y)))

/-- SUB (R275). -/
def execSub (st : Stall) (d a b : Reg) (t : BitVec 2) (s : State) : Out :=
  .next (s.alu2 st 1 d a b (atWidth t (fun x y => x - y)))

/-- MUL: the low half of the product (R275). -/
def execMul (st : Stall) (d a b : Reg) (t : BitVec 2) (s : State) : Out :=
  .next (s.alu2 st 2 d a b (atWidth t (fun x y => x * y)))

/-- MULH (R275). -/
def execMulh (st : Stall) (d a b : Reg) (t : BitVec 2) (s : State) : Out :=
  .next (s.alu2 st 2 d a b (atWidth t mulHigh))

/-- MULHU (R275). -/
def execMulhu (st : Stall) (d a b : Reg) (t : BitVec 2) (s : State) : Out :=
  .next (s.alu2 st 2 d a b (atWidth t mulHighU))

/-- DIV (R275, R276). -/
def execDiv (st : Stall) (d a b : Reg) (t : BitVec 2) (s : State) : Out :=
  .next (s.alu2 st 5 d a b (atWidth t divS))

/-- DIVU (R275, R276). -/
def execDivu (st : Stall) (d a b : Reg) (t : BitVec 2) (s : State) : Out :=
  .next (s.alu2 st 5 d a b (atWidth t divU))

/-- REM (R275, R276). -/
def execRem (st : Stall) (d a b : Reg) (t : BitVec 2) (s : State) : Out :=
  .next (s.alu2 st 5 d a b (atWidth t remS))

/-- REMU (R275, R276). -/
def execRemu (st : Stall) (d a b : Reg) (t : BitVec 2) (s : State) : Out :=
  .next (s.alu2 st 5 d a b (atWidth t remU))

/-- SHL (R275). -/
def execShl (st : Stall) (d a b : Reg) (t : BitVec 2) (s : State) : Out :=
  .next (s.alu2 st 1 d a b (atWidth t (fun x y => x <<< shAmt y)))

/-- SHR (R275). -/
def execShr (st : Stall) (d a b : Reg) (t : BitVec 2) (s : State) : Out :=
  .next (s.alu2 st 1 d a b (atWidth t (fun x y => x >>> shAmt y)))

/-- SAR (R275). -/
def execSar (st : Stall) (d a b : Reg) (t : BitVec 2) (s : State) : Out :=
  .next (s.alu2 st 1 d a b (atWidth t (fun x y => x.sshiftRight (shAmt y))))

/-- ROTL (R275). -/
def execRotl (st : Stall) (d a b : Reg) (t : BitVec 2) (s : State) : Out :=
  .next (s.alu2 st 1 d a b (atWidth t (fun x y => x.rotateLeft (shAmt y))))

/-- MIN (R275). -/
def execMin (st : Stall) (d a b : Reg) (t : BitVec 2) (s : State) : Out :=
  .next (s.alu2 st 1 d a b (atWidth t (fun x y => if x.sle y then x else y)))

/-- MAX (R275). -/
def execMax (st : Stall) (d a b : Reg) (t : BitVec 2) (s : State) : Out :=
  .next (s.alu2 st 1 d a b (atWidth t (fun x y => if y.sle x then x else y)))

/-- MINU (R275). -/
def execMinu (st : Stall) (d a b : Reg) (t : BitVec 2) (s : State) : Out :=
  .next (s.alu2 st 1 d a b (atWidth t (fun x y => if x.ule y then x else y)))

/-- MAXU (R275). -/
def execMaxu (st : Stall) (d a b : Reg) (t : BitVec 2) (s : State) : Out :=
  .next (s.alu2 st 1 d a b (atWidth t (fun x y => if y.ule x then x else y)))

/-- SEQ (R275). -/
def execSeq (st : Stall) (d a b : Reg) (t : BitVec 2) (s : State) : Out :=
  .next (s.alu2 st 1 d a b (atWidth t (fun x y => boolBits (x == y))))

/-- SNE (R275). -/
def execSne (st : Stall) (d a b : Reg) (t : BitVec 2) (s : State) : Out :=
  .next (s.alu2 st 1 d a b (atWidth t (fun x y => boolBits (x != y))))

/-- SLT (R275). -/
def execSlt (st : Stall) (d a b : Reg) (t : BitVec 2) (s : State) : Out :=
  .next (s.alu2 st 1 d a b (atWidth t (fun x y => boolBits (x.slt y))))

/-- SLTU (R275). -/
def execSltu (st : Stall) (d a b : Reg) (t : BitVec 2) (s : State) : Out :=
  .next (s.alu2 st 1 d a b (atWidth t (fun x y => boolBits (x.ult y))))

/-- AND (R275). -/
def execAnd (st : Stall) (d a b : Reg) (s : State) : Out :=
  .next (s.alu2 st 1 d a b (fun x y => x &&& y))

/-- OR (R275). -/
def execOr (st : Stall) (d a b : Reg) (s : State) : Out :=
  .next (s.alu2 st 1 d a b (fun x y => x ||| y))

/-- XOR (R275). -/
def execXor (st : Stall) (d a b : Reg) (s : State) : Out :=
  .next (s.alu2 st 1 d a b (fun x y => x ^^^ y))

/-- ANDN (R275). -/
def execAndn (st : Stall) (d a b : Reg) (s : State) : Out :=
  .next (s.alu2 st 1 d a b (fun x y => x &&& ~~~y))

/-- BEXT (R278). -/
def execBext (st : Stall) (d a b : Reg) (s : State) : Out :=
  .next (s.alu2 st 1 d a b bextWord)

/-- BINS (R278). -/
def execBins (st : Stall) (d a b : Reg) (s : State) : Out :=
  .next (s.alu2 st 1 d a b binsWord)

/-- CLMUL: the low 64 bits of the carry-less product (R275). -/
def execClmul (st : Stall) (d a b : Reg) (s : State) : Out :=
  .next (s.alu2 st 2 d a b fun x y => wordOf (clmulNat x.toNat y.toNat 64))

/-- CLMULH: the high 64 bits of the carry-less product (R275). -/
def execClmulh (st : Stall) (d a b : Reg) (s : State) : Out :=
  .next (s.alu2 st 2 d a b fun x y => wordOf (clmulNat x.toNat y.toNat 64 / 2 ^ 64))

/-- CLZ (R275). -/
def execClz (st : Stall) (d a : Reg) (t : BitVec 2) (s : State) : Out :=
  .next (s.alu1 st 1 4 d a fun x => atWidth t (fun y _ => clzBits y) x 0)

/-- CTZ (R275). -/
def execCtz (st : Stall) (d a : Reg) (t : BitVec 2) (s : State) : Out :=
  .next (s.alu1 st 1 4 d a fun x => atWidth t (fun y _ => ctzBits y) x 0)

/-- POPC (R275). -/
def execPopc (st : Stall) (d a : Reg) (t : BitVec 2) (s : State) : Out :=
  .next (s.alu1 st 1 4 d a fun x => atWidth t (fun y _ => popBits y) x 0)

/-- ADDI, short form (R245, R277). -/
def execAddi (st : Stall) (d a : Reg) (i : BitVec 8) (s : State) : Out :=
  .next (s.alu1 st 1 4 d a fun x => x + i.signExtend 64)

/-- ADDI, long form (R245, R277). -/
def execAddiLong (st : Stall) (d a : Reg) (i : BitVec 32) (s : State) : Out :=
  .next (s.alu1 st 1 8 d a fun x => x + i.signExtend 64)

/-- ANDI (R277). -/
def execAndi (st : Stall) (d a : Reg) (i : Imm) (s : State) : Out :=
  .next (s.alu1 st 1 (immLen i) d a fun x => x &&& immValue i)

/-- ORI (R277). -/
def execOri (st : Stall) (d a : Reg) (i : Imm) (s : State) : Out :=
  .next (s.alu1 st 1 (immLen i) d a fun x => x ||| immValue i)

/-- XORI (R277). -/
def execXori (st : Stall) (d a : Reg) (i : Imm) (s : State) : Out :=
  .next (s.alu1 st 1 (immLen i) d a fun x => x ^^^ immValue i)

/-- SHLI by 0 to 63 (R277). -/
def execShli (st : Stall) (d a : Reg) (i : Imm) (s : State) : Out :=
  .next (s.alu1 st 1 (immLen i) d a fun x => x <<< (immValue i).toNat)

/-- SHRI by 0 to 63 (R277). -/
def execShri (st : Stall) (d a : Reg) (i : Imm) (s : State) : Out :=
  .next (s.alu1 st 1 (immLen i) d a fun x => x >>> (immValue i).toNat)

/-- SARI by 0 to 63 (R277). -/
def execSari (st : Stall) (d a : Reg) (i : Imm) (s : State) : Out :=
  .next (s.alu1 st 1 (immLen i) d a fun x => x.sshiftRight (immValue i).toNat)

/-- SLTI (R277). -/
def execSlti (st : Stall) (d a : Reg) (i : Imm) (s : State) : Out :=
  .next (s.alu1 st 1 (immLen i) d a fun x => boolBits (x.slt (immValue i)))

/-- SEL: wa if the old wd is not zero, else wb; an operand that is not selected gives no poison (R226, R279). -/
def execSel (st : Stall) (d a b : Reg) (s : State) : Out :=
  let c := s.reg d
  let x := if c.val ≠ 0 then s.reg a else s.reg b
  .next (s.readCheck (s.regDests [d, a, b]) (s.finish st 4 [(1, s.wr d x.val (c.poison || x.poison))]))

/-- MOVI (R245, R279). -/
def execMovi (st : Stall) (d : Reg) (i : BitVec 32) (s : State) : Out :=
  .next (s.finish st 8 [(1, s.wr d (i.signExtend 64) false)])

namespace State

/-- LEA: the effective address of LD, with the poison of its base and index (R279). -/
def leaForm (s : State) (st : Stall) (d : Reg) (m : MAddr) (len : Nat) : State :=
  s.readCheck (s.regDests (mRegs m))
    (s.finish st len [(1, s.wr d (s.ea m) ((mRegs m).any fun r => (s.reg r).poison))])

end State

/-- LEA, short form (R279). -/
def execLea (st : Stall) (d b : Reg) (m : BitVec 2) (x : BitVec 6) (s : State) : Out :=
  .next (s.leaForm st d (mAddr b m (.short x) 8 false) 4)

/-- LEA, long form (R279). -/
def execLeaLong (st : Stall) (d b : Reg) (m : BitVec 2) (ty : SizeType) (x : BitVec 32) (s : State) :
    Out :=
  .next (s.leaForm st d (mAddr b m (.long ty x) 8 false) 8)

/-- LEAM: bit 63, MF at [62:46], and (wa + OFF15) mod 2^20 (R245). -/
def execLeam (st : Stall) (d a : Reg) (mf : BitVec 17) (off : BitVec 15) (s : State) :
    Out :=
  .next (s.alu1 st 1 8 d a fun x => wordOf (2 ^ 63 + mf.toNat * 2 ^ 46 + (x.toNat + off.toNat) % 2 ^ 20))

end Sys2Proof.Machine
end

