-- ==== Sys2Proof/Machine/MemAccess.lean ====
section
/-!
DEFINITION. Loads and stores (R293 to R299, R163, R174 to R176): OP 0x60 to 0x65, 0x6D to 0x73.

A load that leaves the core parks until its data return (R293). The model accepts it at its bank in the step that issues
it, so its context wakes in that step; it waits only where an earlier store of its own to the same bytes is held by a
reservation (R161, R187).
-/

namespace Sys2Proof.Machine

/-- A loaded value extended to 64 bits (R248). -/
def extLoad (size : Nat) (signed : Bool) (v : Nat) : Word :=
  if signed && decide (v ≥ 2 ^ (8 * size - 1)) then wordOf (v + (2 ^ 64 - 2 ^ (8 * size))) else wordOf v

/-- The eight words of a line of bytes, each with its tag. -/
def lineTagged (bs : List Byte) (p : List Bool) : List Tagged :=
  (List.range 8).map fun j => ⟨wordOf (bytesNat ((bs.drop (8 * j)).take 8)), p.getD j false⟩

namespace State

/-- The whole-register write of a vector register by the issuing slot. -/
def vregWrite (s : State) (v : VReg) (l : List Tagged) : List WordWrite :=
  (List.range 8).map fun j =>
    ⟨.word (s.vregAddr s.cur.1 s.cur.2 v + 8 * j), l.getD j ⟨0, false⟩, BitVec.allOnes 64⟩

/-- Load at a resolved address (R293): `k` makes the register writes from the bytes and the tags of the words read. The base
update is formed from the registers as the instruction issues (R162), before any wait. -/
def loadAt (s : State) (st : Stall) (len : Nat) (m : MAddr) (a : Nat) (own : Bool)
    (k : State → List Byte → List Bool → List WordWrite) : State :=
  let get (s : State) : State × List WordWrite :=
    let s := s.touchWords a m.size
    let bs := mread s.mem a m.size
    (s, k s bs ((wordsOf a m.size).map fun w => (s.bankWord (8 * w)).poison))
  let base := s.baseWrite m
  let s := s.touch a own
  if own then s.afterSig true fun s =>
    let r := get (s.settleOwn a m.size true)
    r.1.finish st len [(2, r.2), (1, base)]
  else
    match s.orderOwn a m.size with
    | (s, true) =>
      let r := get s
      r.1.done len (r.2 ++ base)
    | (s, false) => s.parkMe .drain

/-- A load (R293). -/
def load (s : State) (st : Stall) (len : Nat) (m : MAddr) (k : State → List Byte → List Bool → List WordWrite) :
    State :=
  s.withEa m .read [] [] fun ea =>
    s.withTarget ea m.size .read fun a own _ => s.waitAcc a own (s.loadAt st len m a own k)

/-- The register write of a scalar load (R294). -/
def scalarResult (d : Reg) (size : Nat) (signed : Bool) (s : State) (bs : List Byte) (p : List Bool) :
    List WordWrite :=
  s.wr d (extLoad size signed (bytesNat bs)) (p.any id)

/-- Store bytes at a resolved address and move on (R293): a store never parks. The base update is formed as the instruction
issues (R162). -/
def storeAt (s : State) (st : Stall) (len : Nat) (n : Nat) (ea : Word) (a : Nat) (own viewed : Bool)
    (bs : List Byte) (base : List WordWrite) : State :=
  s.afterSig own fun s => ((s.settleOwn a n own).store a own viewed ea bs []).finish st len [(1, base)]

/-- A scalar store (R294). -/
def storeScalar (s : State) (st : Stall) (len : Nat) (d : Reg) (m : MAddr) (rel : Option Scope) : State :=
  s.withEa m .write (s.regDests [d]) [(8 * d.toNat, (s.reg d).poison)] fun ea =>
    s.withTarget ea m.size .write fun a own viewed =>
      let go (s' : State) : State :=
        s'.storeAt st len m.size ea a own viewed (natBytes m.size (s.reg d).val.toNat) (s.baseWrite m)
      match rel with
      | some sc => s.withRelease sc go
      | none => go s

/-- Does a trap become poison in LDS (R295): PAGE, PERM, REVOKED or MESH_ABSENT? -/
def ldsHides (t : Trap) : Bool := t.cause == 3 || t.cause == 4 || t.cause == 0x12 || t.cause == 0x11

/-- The result of an LDS that would fault: a poisoned zero, and the base update (R295). After a walk that parked the
context it has landed when the context wakes (R205). -/
def ldsPoison (s : State) (st : Stall) (len : Nat) (d : Reg) (m : MAddr) : State :=
  if s.me.walkFault.isSome then s.done len (s.wr d 0 true ++ s.baseWrite m)
  else s.finish st len [(2, s.wr d 0 true), (1, s.baseWrite m)]

/-- LDS (R295). -/
def loadSpec (s : State) (st : Stall) (len : Nat) (d : Reg) (m : MAddr) (signed : Bool) : State :=
  s.readCheck (s.regDests (mSources m))
    (match s.firstPoison (mRegs m) [] with
     | some off => s.raise (poisonTrap off)
     | none =>
       let ea := s.ea m
       if ea.toNat % m.size ≠ 0 then s.ldsPoison st len d m
       else match s.resolve ea m.size .read with
         | .at_ a own _ => s.waitAcc a own (s.loadAt st len m a own (scalarResult d m.size signed))
         | .fault t => if ldsHides t then s.ldsPoison st len d m else s.raise t
         | .miss => s.missPark s.cur.1 s.cur.2 ea.toNat .read)

/-- PREF (R296): it reads nothing and never parks, so its walk takes place with it; a failure does nothing, and so does a mesh
address. -/
def prefetch (s : State) (st : Stall) (len : Nat) (m : MAddr) : State :=
  s.readCheck (s.regDests (mSources m))
    (match s.firstPoison (mRegs m) [] with
     | some off => s.raise (poisonTrap off)
     | none =>
       let ea := s.ea m
       if ea.toNat % m.size ≠ 0 ∨ isMesh ea then s.retire st len
       else match s.translateDirect s.me.ctx ea .read with
         | .error _ => s.retire st len
         | .ok (_, _, s) => s.finish st len [(1, s.baseWrite m)])

/-- The index vector, the mask and the lane size of a gather or scatter (R248, R299). -/
def gatherForm (f : MForm) : VReg × Nat × Nat :=
  match f with
  | .short x => (x.setWidth 5, 0, 4)
  | .long ty e => (e.setWidth 5, e.toNat / 32 % 8, 2 ^ ty.sz.toNat)

/-- A lane that has passed its checks: its number, physical address, whether it is the core's own, VIEWED, and its
virtual address. -/
structure LaneAt where
  lane : Nat
  addr : Nat
  own : Bool
  viewed : Bool
  va : Word
  deriving DecidableEq, Repr

/-- What stops the checks of a gather or scatter. -/
inductive LaneStop where
  | fault (t : Trap)
  /-- A lane's page is in no TLB. -/
  | miss (va : Nat)
  deriving DecidableEq, Repr

/-- Check every active lane, ascending, before any is accessed (R299). `data` gives the data register's tags for a
scatter. -/
def checkLanes (base : Word) (v : VReg) (size : Nat) (kd : Kind) (idx : List Tagged) (data : Option (VReg × List Tagged)) :
    List Nat → State → Except LaneStop (List LaneAt)
  | [], _ => .ok []
  | i :: rest, s =>
    let w := i * size / 8
    if (idx.getD w ⟨0, false⟩).poison then .error (.fault <| poisonTrap (wordOf (0x200 + 64 * v.toNat + 8 * w)))
    else
      let bad : Option Trap := match data with
        | some (d, l) =>
          if (l.getD w ⟨0, false⟩).poison then some (poisonTrap (wordOf (0x200 + 64 * d.toNat + 8 * w))) else none
        | none => none
      match bad with
      | some t => Except.error (.fault t)
      | none =>
        let x := signedLane (8 * size) (laneOf (vecNat idx) (8 * size) i)
        let va := base + BitVec.ofInt 64 (x * size)
        if va.toNat % size ≠ 0 then .error (.fault (alignTrap va size kd.acc))
        else match s.resolve va size kd with
          | .fault t => .error (.fault t)
          | .miss => .error (.miss va.toNat)
          | .at_ a own viewed =>
            match checkLanes base v size kd idx data rest s with
            | .error t => .error t
            | .ok l => .ok (⟨i, a, own, viewed, va⟩ :: l)

/-- The active lanes of a gather or scatter (R299). -/
def gatherLanes (s : State) (k size : Nat) : List Nat :=
  (List.range (64 / size)).filter fun i => decide (i < s.me.vl) && (s.me.kmask k).getLsbD i

/-- Go on with the checked lanes of a gather or scatter (R299, R310). A lane whose page no TLB holds parks the slot for a walk
(R36); the instruction then issues again, with the translations that walks have answered for it. -/
def withLanes (s : State) (b : Reg) (f : MForm) (kd : Kind) (d : Option VReg)
    (k : List LaneAt → State → State) : State :=
  let (v, msk, size) := gatherForm f
  let data := d.map fun x => (x, s.vreg x)
  s.readCheck (s.regDests [b] ++ s.vregDests (v :: d.toList) ++ (if msk = 0 then [] else [.mask msk]))
    (match s.poisonReg [b] with
     | some r => s.raise (poisonTrap (wordOf (8 * r.toNat)))
     | none =>
       let act := s.gatherLanes msk size
       if !act.isEmpty && s.me.kpoison msk then s.raise (poisonTrap (wordOf (0xAA0 + 8 * (msk / 2))))
       else match checkLanes (s.reg b).val v size kd (s.vreg v) data act s with
         | .error (.fault t) => s.raise t
         | .error (.miss va) => s.missPark s.cur.1 s.cur.2 va kd
         | .ok l => k l s)

/-- Order a gather's lanes after the slot's own earlier stores to the same bytes (R161). -/
def orderLanes (size : Nat) : List LaneAt → State → State × Bool
  | [], s => (s, true)
  | x :: t, s =>
    let s := (s.touch x.addr x.own).settleOwn x.addr size x.own
    let s := if s.reqs.any s.mySig then s.drain s.mySig else s
    if x.own then (if s.reqs.any s.mySig then (s, false) else orderLanes size t s)
    else match s.orderOwn x.addr size with
      | (s, true) => orderLanes size t s
      | (s, false) => (s, false)

/-- The words a gather writes: each lane's bytes in its place, with the tags of the words read. -/
def gatherWrites (s : State) (d : VReg) (size : Nat) (l : List LaneAt) : List WordWrite :=
  (List.range 8).map fun j =>
    let here := l.filter fun x => x.lane * size / 8 = j
    let v := here.foldl (fun n x => n + bytesNat (mread s.mem x.addr size) * 2 ^ (8 * (x.lane * size % 8))) 0
    let bits := here.foldl (fun n x => n + (2 ^ (8 * size) - 1) * 2 ^ (8 * (x.lane * size % 8))) 0
    ⟨.word (s.vregAddr s.cur.1 s.cur.2 d + 8 * j), ⟨wordOf v, here.any fun x => (s.bankWord x.addr).poison⟩, wordOf bits⟩

end State

/-- LD, short form: 8 bytes (R294). -/
def execLd (st : Stall) (d b : Reg) (m : BitVec 2) (x : BitVec 6) (s : State) : Out :=
  .next (s.load st 4 (mAddr b m (.short x) 8 false) (State.scalarResult d 8 false))

/-- LD, long form (R294). -/
def execLdLong (st : Stall) (d b : Reg) (m : BitVec 2) (ty : SizeType) (x : BitVec 32) (s : State) : Out :=
  let f := MForm.long ty x
  let n := mSize f 8
  .next (s.load st 8 (mAddr b m f n false) (State.scalarResult d n ty.sx))

/-- ST, short form: 8 bytes (R294). -/
def execSt (st : Stall) (d b : Reg) (m : BitVec 2) (x : BitVec 6) (s : State) : Out :=
  .next (s.storeScalar st 4 d (mAddr b m (.short x) 8 false) none)

/-- ST, long form (R294). -/
def execStLong (st : Stall) (d b : Reg) (m : BitVec 2) (ty : SizeType) (x : BitVec 32) (s : State) : Out :=
  let f := MForm.long ty x
  .next (s.storeScalar st 8 d (mAddr b m f (mSize f 8) false) none)

/-- LDX: the index is scaled by the access size (R294). -/
def execLdx (st : Stall) (d b : Reg) (f : MForm) (s : State) : Out :=
  let n := mSize f 8
  .next (s.load st (mLen f) (mAddr b 3 f n true) (State.scalarResult d n (mSigned f)))

/-- STX (R294). -/
def execStx (st : Stall) (d b : Reg) (f : MForm) (s : State) : Out :=
  .next (s.storeScalar st (mLen f) d (mAddr b 3 f (mSize f 8) true) none)

/-- LDS (R295). -/
def execLds (st : Stall) (d b : Reg) (m : BitVec 2) (f : MForm) (s : State) : Out :=
  .next (s.loadSpec st (mLen f) d (mAddr b m f (mSize f 8) false) (mSigned f))

/-- PREF (R296). -/
def execPref (st : Stall) (b : Reg) (m : BitVec 2) (f : MForm) (s : State) : Out :=
  .next (s.prefetch st (mLen f) (mAddr b m f 8 false))

/-- LDV: 64 bytes, whatever VL and the masks hold (R298). -/
def execLdv (st : Stall) (d : VReg) (b : Reg) (m : BitVec 2) (f : MForm) (s : State) : Out :=
  .next (s.load st (mLen f) (mAddr b m f 64 false) fun s bs p => s.vregWrite d (lineTagged bs p))

/-- STV: a poisoned word of the data raises POISON (R298). -/
def execStv (st : Stall) (d : VReg) (b : Reg) (m : BitVec 2) (f : MForm) (s : State) : Out :=
  let a := mAddr b m f 64 false
  let data := s.vreg d
  let tags := (List.range 8).map fun j => (0x200 + 64 * d.toNat + 8 * j, (data.getD j ⟨0, false⟩).poison)
  .next (s.withEa a .write (s.vregDests [d]) tags fun ea =>
    s.withTarget ea 64 .write fun p own viewed =>
      s.storeAt st (mLen f) 64 ea p own viewed (natBytes 64 (vecNat data)) (s.baseWrite a))

/-- LDVB: one element into every position (R298). -/
def execLdvb (st : Stall) (d : VReg) (b : Reg) (m : BitVec 2) (f : MForm) (s : State) : Out :=
  let n := mSize f 4
  .next (s.load st (mLen f) (mAddr b m f n false) fun s bs p =>
    let v := ofLanes (8 * n) (List.replicate (64 / n) (bytesNat bs))
    s.vregWrite d ((List.range 8).map fun j => ⟨wordOf (laneOf v 64 j), p.any id⟩))

/-- LDVX: a gather, which parks until every lane has returned (R299). -/
def execLdvx (st : Stall) (d : VReg) (b : Reg) (f : MForm) (s : State) : Out :=
  let size := (State.gatherForm f).2.2
  .next (s.withLanes b f .read none fun l s =>
    if l.isEmpty then s.retire st (mLen f)
    else l.foldr (fun x k => s.waitAcc x.addr x.own k) <| match State.orderLanes size l s with
      | (s, true) =>
        let s := l.foldl (fun s x => s.touchWords x.addr size) s
        s.done (mLen f) (s.gatherWrites d size l)
      | (s, false) => s.parkMe .drain)

/-- STVX: a scatter; lanes to the same bytes are accepted in lane order (R299). -/
def execStvx (st : Stall) (d : VReg) (b : Reg) (f : MForm) (s : State) : Out :=
  let size := (State.gatherForm f).2.2
  .next (s.withLanes b f .write (some d) fun l s =>
    let data := vecNat (s.vreg d)
    s.afterSig (l.any (·.own)) fun s => (l.foldl (fun s x => (s.settleOwn x.addr size x.own).store x.addr x.own x.viewed x.va
      (natBytes size (laneOf data (8 * size) x.lane)) []) s).retire st (mLen f))

/-- LD.ACQ: the model accepts a load before any later access of its context, so the acquire adds nothing (R174). -/
def execLdAcq (st : Stall) (d b : Reg) (m : BitVec 2) (f : MForm) (s : State) : Out :=
  let n := mSize f 8
  .next (s.load st (mLen f) (mAddr b m f n false) (State.scalarResult d n (mSigned f)))

/-- ST.REL: a release at its scope, then the store (R175, R294). -/
def execStRel (st : Stall) (d b : Reg) (m : BitVec 2) (scope : Scope) (sz : BitVec 2) (x : BitVec 32) (s : State) : Out :=
  let f := MForm.long ⟨0, false, sz⟩ x
  .next (s.storeScalar st 8 d (mAddr b m f (mSize f 8) false) (some scope))

end Sys2Proof.Machine
end

