-- ==== Sys2Proof/Machine/Matrix.lean ====
section
/-!
DEFINITION. Matrix instructions (R328 to R346): the matrix queue, rounds and steps of a gang, MZERO, MOUT, SKSET, and the
events by which queued operations take effect.
-/

namespace Sys2Proof.Machine

/-! ### Formats (R329, R330) -/

/-- An element type of a matrix operand. -/
inductive Elem where
  | flt (f : Fmt)
  | m8
  deriving DecidableEq, Repr

/-- The width of an element in bits. -/
def Elem.width : Elem → Nat
  | .flt f => f.width
  | .m8 => 8

/-- The exact value of an element's code (R87). -/
def Elem.val (e : Elem) (code : Nat) : FV :=
  match e with
  | .flt f => f.decode code
  | .m8 => decodeM8 code

/-- A format pair: its elements, its k positions, and the sides that take scales (R329). -/
structure PairFmt where
  a : Elem
  w : Elem
  k : Nat
  scaleA : Bool
  scaleW : Bool
  deriving DecidableEq, Repr

/-- The format pair OP − 0xE0, with TE (R329, R346). -/
def pairFmt (pair : Nat) (te : Bool) : PairFmt :=
  let e : Elem := .flt (if te then Fmt.e5 else Fmt.e4)
  match pair with
  | 0 => ⟨.flt Fmt.b16, .flt Fmt.b16, 32, false, false⟩
  | 1 => ⟨e, e, 64, true, true⟩
  | 2 => ⟨e, .flt Fmt.f4, 64, true, true⟩
  | 3 => ⟨.m8, .m8, 64, false, false⟩
  | 4 => ⟨.flt Fmt.b16, .flt Fmt.f4, 64, false, true⟩
  | _ => ⟨.flt Fmt.f4, .flt Fmt.f4, 128, true, true⟩

/-- Bytes used per line of A. -/
def PairFmt.aBytes (f : PairFmt) : Nat := f.k * f.a.width / 8

/-- Bytes used per line of W. -/
def PairFmt.wBytes (f : PairFmt) : Nat := f.k * f.w.width / 8

/-! ### Descriptors and their checks (R331 to R333) -/

/-- BASE of a descriptor pair. -/
def dBase (d : Word × Word) : Nat := fieldOf d.1 0 20

/-- TPITCH. -/
def dTpitch (d : Word × Word) : Nat := fieldOf d.2 32 16

/-- RPITCH. -/
def dRpitch (d : Word × Word) : Nat := fieldOf d.2 0 16

/-- ROT. -/
def dRot (d : Word × Word) : Nat := fieldOf d.2 48 2

/-- The order in which the `n` lines of an operand are read: from line ROT × (n div 4) on, wrapping (R331). -/
def lineOrder (d : Word × Word) (n : Nat) : List Nat := (List.range n).map fun j => (dRot d * (n / 4) + j) % n

/-- ASOFF of a scale register (R332). -/
def asOff (q : Word) : Nat := fieldOf q 32 16

/-- WSOFF. -/
def wsOff (q : Word) : Nat := fieldOf q 0 17

/-- PERM with detail MFORM for a nonzero reserved field of a pair. -/
def descForm (d : Word × Word) (acc : Nat) : Option Trap :=
  if fieldOf d.1 20 44 ≠ 0 ∨ fieldOf d.2 50 14 ≠ 0 ∨ fieldOf d.2 16 16 ≠ 0 then
    some (ownTrap 4 0xB (wordOf (dBase d)) 0 acc)
  else none

/-- The first value of a list that is not a multiple of 64, as ALIGN. -/
def align64 (l : List Nat) (acc : Nat) : Option Trap :=
  (l.find? fun v => decide (v % 64 ≠ 0)).map fun v => State.alignTrap (wordOf v) 64 acc

/-- ALIGN for a pair whose lines use `bytes` bytes. -/
def descAlign (d : Word × Word) (bytes acc : Nat) : Option Trap :=
  (align64 [dBase d, dRpitch d, dTpitch d] acc).or
    (if dRpitch d < bytes then some (State.alignTrap (wordOf (dRpitch d)) 64 acc) else none)

/-- PERM with detail MRANGE where lines of `bytes` bytes, `n` of them, pass the end of a buffer. -/
def descRange (base pitch n bytes size acc : Nat) : Option Trap :=
  if base + (n - 1) * pitch + (bytes + 63) / 64 * 64 > size then some (ownTrap 4 0xC (wordOf base) 0 acc) else none

/-- The first trap of a list of checks. -/
def firstTrap (l : List (Option Trap)) : Option Trap := l.findSome? id

/-- The checks of an MMA after CLASS and POISON, for a member that supplies `rows` rows (R333).
DEDUCED, log entry 10: they look at register values and touch no storage, so FLT0.ACC is 3, no access. -/
def mmaCheck (f : PairFmt) (a b : Word × Word) (q : Option Word) (rows : Nat) : Option Trap :=
  let sa := if f.scaleA then q.toList.map asOff else []
  let sw := if f.scaleW then q.toList.map wsOff else []
  firstTrap ([descForm a 3, descForm b 3, descAlign a f.aBytes 3, descAlign b f.wBytes 3, align64 (sa ++ sw) 3,
    descRange (dBase a) (dRpitch a) rows f.aBytes Buf.a.size 3,
    descRange (dBase b) (dRpitch b) 16 f.wBytes Buf.w.size 3] ++
    sa.map (fun o => descRange o 0 1 (4 * rows) Buf.a.size 3) ++
    sw.map (fun o => descRange o 0 1 64 Buf.w.size 3))

/-! ### The step (R335, R98 to R100, R341) -/

/-- An element scaled by an E8 code (R89). -/
def scaled (v : FV) (e : Nat) : FV := if e = 0xFF then .nan else v.scale ((e : Int) - 127)

/-- The elements of a line, scaled (R335). -/
def MLine.vals (l : MLine) (e : Elem) (k : Nat) : List FV :=
  (List.range k).map fun p =>
    let v := e.val (laneOf l.raw e.width p)
    match l.scale with
    | some q => scaled v (laneOf q 8 (p / 32))
    | none => v

/-- Is a k position skipped (R343)? -/
def skipped (skip : List Word) (p : Nat) : Bool := (skip.getD (p / 64) 0).getLsbD (p % 64)

/-- One output element: the exact sum of the accumulator and the products that are not skipped, rounded once (R98). -/
def mmaElem (c : Nat) (row col : List FV) (skip : List Word) : Nat :=
  let ps := ((row.zip col).zip (List.range row.length)).filterMap fun ((x, y), p) =>
    if skipped skip p then none else some (x.mul y).1
  ((FV.sum (f32 c :: ps)).1.rn Fmt.f32).1

/-- Does a row of A poison its results: a word of it with an element at a position that is not skipped, or its scales
(R341)? -/
def rowPoison (l : MLine) (w k : Nat) (skip : List Word) : Bool :=
  let used (p : Nat) : Bool := !skipped skip p
  (List.range k).any (fun p => used p && (l.poison.getD (p * w / 64) false || l.scalePoison))

/-- Does a column of W poison its results (R341)? -/
def colPoison (l : MLine) : Bool := l.poison.any id || l.scalePoison

/-- The format pair of an operation. -/
def MatOp.pair : MatOp → Nat
  | .mma p .. => p
  | _ => 0

/-- Is the operation an MZERO? -/
def MatOp.isZero : MatOp → Bool
  | .zero _ => true
  | _ => false

/-- Is the operation a MOUT? -/
def MatOp.isOut : MatOp → Bool
  | .out .. => true
  | _ => false

namespace State

/-- The gang index of a member (R328). -/
def gangIndex (s : State) (c : Site) : Nat := (s.gangOf c).idxOf c

/-- The rows of A a member supplies (R330). -/
def suppliedRows (s : State) (c : Site) : Nat := 8 * (32 / (s.gangOf c).length)

/-- Read a line of an operand with its scale entry. -/
def readMLine (s : State) (a n : Nat) (scaleAt : Option Nat) : MLine :=
  { raw := bytesNat (mread s.mem a n), scale := scaleAt.map fun x => bytesNat (mread s.mem x 4)
    poison := (wordsOf a n).map fun w => (s.word (8 * w)).poison
    scalePoison := match scaleAt with
      | some x => (s.word (x / 8 * 8)).poison
      | none => false }

/-- A row of A that a member supplies, by its local index (R330, R332). -/
def readRow (s : State) (c : Site) (f : PairFmt) (a : Word × Word) (q : Option Word) (i : Nat) : MLine :=
  s.readMLine (bufAddr c .a (dBase a + i * dRpitch a)) f.aBytes
    (if f.scaleA then q.map fun x => bufAddr c .a (asOff x + 4 * i) else none)

/-- A column of W of a member. -/
def readCol (s : State) (c : Site) (f : PairFmt) (b : Word × Word) (q : Option Word) (i : Nat) : MLine :=
  s.readMLine (bufAddr c .w (dBase b + i * dRpitch b)) f.wBytes
    (if f.scaleW then q.map fun x => bufAddr c .w (wsOff x + 4 * i) else none)

/-- The operation of the step in progress at a core. -/
def runningOp (s : State) (c : Site) : Option MatOp := (s.runningStep c).map fun e => e.op

/-- A line of a member's step: as the member has read it, or as memory holds it now (R337). -/
def stepLine (s : State) (c : Site) (e : MatEntry) (n : Nat) : MLine :=
  match e.lines.find? (·.1 = n), e.op with
  | some (_, l), _ => l
  | none, .mma pair a b q _ te _ =>
    if n < 256 then s.readRow c (pairFmt pair te) a q n else s.readCol c (pairFmt pair te) b q (n - 256)
  | none, _ => ⟨0, none, [], false⟩

/-- The 256 rows of A that a gang's step takes from its members (R330). -/
def stepRows (s : State) (ms : List Site) : List MLine :=
  (List.range 256).map fun r =>
    let b := r / 8
    let t := ms.getD (b % ms.length) 0
    match s.runningStep t with
    | some e => s.stepLine t e (8 * (b / ms.length) + r % 8)
    | none => ⟨0, none, [], false⟩

/-- The lines that a member has begun to fetch for a step and has not read yet, in the order of R331; a column of W is line 256 and up. -/
def fetching (s : State) (c : Site) (e : MatEntry) : List Nat :=
  match e.op with
  | .mma _ a b _ _ _ _ =>
    ((lineOrder a (s.suppliedRows c)).take e.fetchA ++ ((lineOrder b 16).take e.fetchW).map (256 + ·)).filter fun n =>
      !e.lines.any (·.1 = n)
  | _ => []

/-- Is a member late: a line of A, or of A's scales, that it fetches holds an empty or engine-held word, or a view publication holds its
W write port (R336)? -/
def stepLate (s : State) (c : Site) : Bool :=
  let empty (a n : Nat) : Bool := (wordsOf (a / 64 * 64) ((n + 63) / 64 * 64)).any s.empty.contains
  match s.runningStep c with
  | some e => match e.op with
    | .mma pair a _ q _ te _ =>
      let f := pairFmt pair te
      !s.occEnded c e && (decide (s.cyc < (s.core c).portFree) || (s.fetching c e).any fun i => decide (i < 256) &&
        (empty (bufAddr c .a (dBase a + i * dRpitch a)) f.aBytes ||
          (f.scaleA && q.any fun x => empty (bufAddr c .a (asOff x + 4 * i)) 4)))
    | _ => false
  | none => false

/-- The words of a member's step land: row `r` of its accumulator set (R335, R341). -/
def landRow (s : State) (c : Site) (set : Bool) (skip : List Word) (f : PairFmt) (row : MLine) (cols : List (List FV))
    (pcols : List Bool) (r : Nat) : State :=
  let at_ := bufAddr c .c (0x4000 * set.toNat + 64 * r)
  let old := bytesNat (mread s.mem at_ 64)
  let vals := row.vals f.a f.k
  let new := (List.range 16).map fun j => mmaElem (laneOf old 32 j) vals (cols.getD j []) skip
  let pr := rowPoison row f.a.width f.k skip
  let ps := (List.range 8).map fun i =>
    (s.word (at_ + 8 * i)).poison || pr || pcols.getD (2 * i) false || pcols.getD (2 * i + 1) false
  s.bankWrite at_ (natBytes 64 (ofLanes 32 new)) ps

/-- A member's step lands, with its operands read in state `o`. -/
def landStep (s o : State) (c : Site) (rows : List MLine) : State :=
  match o.runningStep c with
  | some e => match e.op with
   | .mma pair _ _ _ set te skip =>
    let f := pairFmt pair te
    let cs := (List.range 16).map fun i => o.stepLine c e (256 + i)
    let cols := cs.map fun l => l.vals f.w f.k
    let pcols := cs.map colPoison
    (rows.zip (List.range 256)).foldl (fun s (row, r) => s.landRow c set skip f row cols pcols r) s
   | _ => s
  | none => s

/-! ### The queue (R339) -/

/-- Entries of a queue with no earlier entry on the same set (R339). -/
def matHeads : List MatEntry → List MatEntry → List MatEntry
  | _, [] => []
  | seen, e :: t =>
    (if seen.any fun x => MatOp.accSet x.op == MatOp.accSet e.op then [] else [e]) ++ matHeads (seen ++ [e]) t

/-- Can a slot that waits at the matrix queue go on? -/
def matReady (s : State) (c : Site) (i : Nat) (why : MatWait) : Bool :=
  let k := s.core c
  match why with
  | .full => decide (k.matrix.length < 4)
  | .drained => k.matrix.all (·.slot ≠ i)
  | .started => k.matrix.all fun e => !MatOp.isMma e.op || e.started.isSome
  | .accSet b => k.matrix.all fun e => e.slot ≠ i || MatOp.accSet e.op != b

/-- Append an operation of the issuing slot to its core's queue, or wait for an entry (R339). -/
def matEnter (s : State) (k : State) : State :=
  if (s.core s.cur.1).matrix.length < 4 then k else s.parkMe (.matrix .full)

/-- Append an entry. -/
def matPush (s : State) (e : MatEntry) : State := s.modCore s.cur.1 fun k => { k with matrix := k.matrix ++ [e] }

/-- Change an entry. -/
def matSet (s : State) (c : Site) (e x : MatEntry) : State :=
  s.modCore c fun k => { k with matrix := k.matrix.replace e x }

/-- Remove an entry. -/
def matDrop (s : State) (c : Site) (e : MatEntry) : State :=
  s.modCore c fun k => { k with matrix := k.matrix.erase e }

/-! ### Rounds (R334, R338) -/

/-- Complete one participant of a gang's wired barrier, which slots of index `i` join: its round opens; GANG moves on, an MMA
issues again (R334). -/
def openRound (i : Nat) (s : State) (t : Site) : State :=
  match (s.slot t i).wait with
  | some (.barrier .gang _ g _ len) =>
    let s := s.modCore t fun k => { k with round := some ⟨i, g, 0, s.cyc⟩ }
    if len = 0 then s.wakeRetry t i else s.complete t i len []
  | _ => s

/-- The next step of a core: the first MMA of its queue that has not started (R336). -/
def pendingStep (s : State) (c : Site) : Option MatEntry :=
  (s.core c).matrix.find? fun e => MatOp.isMma e.op && e.started.isNone

/-- Join the gang's wired barrier, closing the core's previous round once its steps have started (R334). A GANG from another
slot index than the barrier's, or than the round whose steps it would wait for, closes nothing: it stays parked, uncounted, and its GTMO
runs. -/
def gangJoin (s : State) (len : Nat) : State :=
  match s.pendingStep s.cur.1 with
  | some e => if e.slot = s.cur.2 then s.parkMe (.matrix .started)
    else s.parkMe (.barrier .gang (s.cyc + s.me.gtmo) s.me.gtmo [] len)
  | none =>
    if s.barTaken .gang s.cur.1 s.cur.2 then s.barArrive .gang len (openRound s.cur.2)
    else (s.modCore s.cur.1 fun k => { k with round := none }).barArrive .gang len (openRound s.cur.2)

/-- An uncounted GANG, parked with its GTMO `g` running out at cycle `u`, is counted once its member's steps have started, when the
barrier is free and no round of another slot index has opened at its core since it parked, or when the barrier takes its own slot index
(R334). -/
def gangCount (s : State) (c : Site) (i : Nat) : State :=
  match (s.slot c i).wait with
  | some (.barrier .gang u g [] len) =>
    let own := s.barRound .gang c i
    if s.barTaken .gang c i || (s.pendingStep c).isSome ||
        (own.isNone && (s.core c).round.any fun r => r.slot != i && decide (u ≤ r.opened + g)) then s
    else
      let (u, g, ps) := own.getD (u, g, s.gangOf c)
      let s := (s.modCore c fun k => { k with round := none }).modSlot c i fun sl =>
        { sl with wait := some (.barrier .gang u g ps len) }
      if ps.all fun t => s.barJoined .gang t i then s.barOpen .gang c i ps (openRound i) else s
  | _ => s

/-- A step fails (R338): it and every later MMA of its round have no effect in any member, the round closes for every member, and each
member context receives GANG_TIMEOUT. -/
def stepFail (s : State) (c : Site) (e : MatEntry) : State :=
  (s.gangOf c).foldl (fun s t =>
    let s := s.modCore t fun k => { k with
      matrix := k.matrix.filter fun x => !(MatOp.isMma x.op && x.round == e.round && decide (e.step ≤ x.step))
      round := k.round.filter (·.opened ≠ e.round)
      freeze := false }
    let trap := ownTrap 0x0B 0 (wordOf e.gtmo) 0 3
    match (s.slot t e.slot).state, (s.slot t e.slot).wait with
    | .parked, some (.matrix _) => s.raiseAt t e.slot trap
    | .parked, some (.barrier .gang ..) => s.raiseAt t e.slot trap
    | .free, _ | .exited, _ => s
    | _, _ => s.modSlot t e.slot fun sl => { sl with gangTrap := some e.gtmo }) s

/-- The MMA that a core would start next: nothing earlier of its set is queued, no step is in progress, and its slot is not halted
(R336, R339, R340). -/
def nextStep (s : State) (c : Site) : Option MatEntry :=
  if (s.runningStep c).isSome then none
  else (s.pendingStep c).filter fun e =>
    (matHeads [] (s.core c).matrix).contains e && (s.slot c e.slot).state != .halted

/-- Are two entries MMAs of one step of a round? -/
def sameStep (e x : MatEntry) : Bool :=
  MatOp.isMma x.op && x.slot == e.slot && x.round == e.round && x.step == e.step

/-- Can the gang's next step start (R336)? -/
def stepReady (s : State) (c : Site) : Bool :=
  (s.nextStep c).any fun e => (s.gangOf c).all fun t => (s.nextStep t).any (sameStep e)

/-- The first step of a core's queue for which members have issued different format pairs (R338). -/
def stepMixed (s : State) (c : Site) : Option MatEntry :=
  (s.core c).matrix.find? fun e => MatOp.isMma e.op && e.started.isNone && (s.gangOf c).any fun t =>
    (s.core t).matrix.any fun x => sameStep e x && MatOp.pair x.op != MatOp.pair e.op

/-- The cycle from which the gang counts the time of a step that starts (R338). -/
def stepSince (s : State) (ms : List Site) : Nat :=
  ms.foldl (fun m t => min m (((s.nextStep t).bind (·.since)).getD m)) s.cyc

/-- The gang's next step starts in every member (R336); one for which members have issued different format pairs fails at once
(R338). The power limit may withhold it (R439). -/
def stepStart (s : State) (c : Site) : State :=
  match s.stepMixed c with
  | some e => s.stepFail c e
  | none =>
    if s.stepReady c && !s.withheld c then
      let ms := s.gangOf c
      ms.foldl (fun s' t => match s.nextStep t with
        | some e => s'.matSet t e { e with
            started := some s.cyc
            since := some (s.stepSince ms) }
        | none => s') s
    else s

/-- Have the occupancies of every member of the gang's step ended (R336)? -/
def stepEndable (s : State) (c : Site) : Bool :=
  (s.gangOf c).all fun t => (s.runningStep t).any (s.occEnded t)

/-- The words of a member's step land, once. -/
def landMember (s o : State) (rows : List MLine) (c : Site) : State :=
  match o.runningStep c with
  | some e => if e.landed then s else s.landStep o c rows
  | none => s

/-- The gang's step ends: its words land in every member in one cycle, that in which the last occupancy has ended (R336 leaves a window
of 32 cycles, R197 the cycle of each word: a choice of the model, log entry 10). Where a freeze keeps a member's occupancy from ending, the words of a
member whose own has ended land at the end of its window. -/
def stepEnd (s : State) (c : Site) : State :=
  let ms := s.gangOf c
  let rows := s.stepRows ms
  if s.stepEndable c then
    ms.foldl (fun s' t => (s'.landMember s rows t).modCore t fun k => { k with
      matrix := k.matrix.filter fun e => !(e.started.isSome && MatOp.isMma e.op)
      freeze := false }) s
  else match s.runningStep c with
    | some e =>
      if !e.landed && e.started.any fun t => decide (t + s.gangIndex c + 288 + e.frozen ≤ s.cyc) then
        (s.landMember s rows c).matSet c e { e with landed := true }
      else s
    | none => s

/-- Every member raises the freeze line while it is late (R215, R336). -/
def stepFreeze (s : State) (c : Site) : State :=
  (s.gangOf c).foldl (fun s t => s.modCore t fun k => { k with freeze := s.stepLate t }) s

/-- Is the freeze line of a core's gang raised (R215)? -/
def frozen (s : State) (c : Site) : Bool := (s.gangOf c).any fun t => (s.core t).freeze

/-- A member begins to fetch lines of its step, as many as a free value chooses: in the order of R331, its lines of W within its
occupancy, and its lines of A, which every member takes from the bus, before the first member's ends (R336, R337). -/
def stepFetch (s : State) (c : Site) : State :=
  match s.runningStep c with
  | none => s
  | some e =>
    let start := e.started.getD 0 + e.frozen
    if s.occEnded c e || s.frozen c || decide (s.cyc < start + s.gangIndex c) then s
    else
      let (v, s) := s.drawNat Config.freeNat
      let rows := s.suppliedRows c
      s.matSet c e { e with
        fetchA := if start + 255 ≤ s.cyc then rows else min rows (e.fetchA + v % (rows + 1))
        fetchW := if start + s.gangIndex c + 255 ≤ s.cyc then 16 else min 16 (e.fetchW + v / 512 % 17) }

/-- One cycle of a member's step (R336, R337): the freeze line holds it, or it reads the lines that it fetches, each once. -/
def stepCycle (s : State) (c : Site) : State :=
  match s.runningStep c with
  | none => s
  | some e =>
    if s.occEnded c e then s
    else if s.frozen c then s.matSet c e { e with frozen := e.frozen + 1 }
    else s.matSet c e { e with lines := e.lines ++ (s.fetching c e).map fun n => (n, s.stepLine c e n) }

/-- Start counting the time of a core's next step, at the cycle in which it could start were every member ready (R338). -/
def markWait (s : State) (c : Site) : State :=
  match s.pendingStep c with
  | some e =>
    if e.since.isNone && (s.slot c e.slot).state != .halted && (s.gangOf c).all (fun t => (s.runningStep t).isNone) then
      s.matSet c e { e with since := some s.cyc }
    else s
  | none => s

/-- The step of a core whose time has reached its round's GTMO (R338): the one in progress, unless its occupancy has ended, or the next. -/
def stepOverdue (s : State) (c : Site) : Option MatEntry :=
  let late (e : MatEntry) : Bool := e.since.any fun t => decide (t + e.gtmo ≤ s.cyc)
  ((s.runningStep c).filter fun e => late e && !s.occEnded c e).or ((s.pendingStep c).filter late)

/-- The time of a core's steps runs out (R338). -/
def stepTimes (s : State) (c : Site) : State :=
  match s.stepOverdue c with
  | some e => s.stepFail c e
  | none => s

/-! ### MZERO and MOUT (R344, R345) -/

/-- The first operation of its set at a core that satisfies a test. -/
def matHead (s : State) (c : Site) (p : MatOp → Bool) : Option MatEntry :=
  (matHeads [] (s.core c).matrix).find? fun e => p e.op

/-- An accumulator set lands as +0, without poison (R344). -/
def zeroSet (s : State) (c : Site) (set : Bool) : State :=
  (List.range 256).foldl (fun s r =>
    s.bankWrite (bufAddr c .c (0x4000 * set.toNat + 64 * r)) (natBytes 64 0) []) s

/-- The width in bits of an output type OT (R345). -/
def outWidth (ot : Nat) : Nat :=
  match ot with
  | 0 => 32
  | 1 | 2 => 16
  | _ => 8

/-- Convert an exact quotient to an output type (R96, R345). -/
def outConv (ot : Nat) (rm : Rm) (sat : Bool) (x : FV) : Nat × Flags :=
  match ot with
  | 0 => convFmt Fmt.f32 rm false x
  | 1 => convFmt Fmt.b16 rm sat x
  | 2 => convFmt Fmt.f16 rm sat x
  | 3 => convFmt Fmt.e4 rm sat x
  | 4 => convFmt Fmt.e5 rm sat x
  | _ => convM8 rm x

/-- One output element (R345). -/
def outElem (ot : Nat) (rm : Rm) (sat : Bool) (e c : Nat) : Nat × Flags :=
  if e = 0xFF then ((outConv ot rm sat .nan).1, Flags.none)
  else outConv ot rm sat ((f32 c).scale (127 - (e : Int)))

/-- The bytes of a MOUT's row, and its words. -/
def outRowWords (ot : Nat) : Nat := 16 * outWidth ot / 64

/-- Empty the destination words of a MOUT and hold them (R71, R198). -/
def outHold (s : State) (c : Site) (d : Word × Word) (ot : Nat) : State :=
  (List.range 256).foldl (fun s r => (List.range (outRowWords ot)).foldl (fun s j =>
    s.engineHold (bufAddr c .a (dBase d + r * dRpitch d + 8 * j))) s) s

/-- One row of a MOUT: its elements with their flags, from the C line. -/
def outRow (s : State) (c : Site) (set : Bool) (ot : Nat) (rm : Rm) (sat : Bool) (e r : Nat) : List (Nat × Flags) :=
  let line := bytesNat (mread s.mem (bufAddr c .c (0x4000 * set.toNat + 64 * r)) 64)
  (List.range 16).map fun j => outElem ot rm sat e (laneOf line 32 j)

/-- Write one row of a MOUT: each word is set full and carries the poison of the C words it came from (R345). -/
def outWriteRow (s : State) (c : Site) (d : Word × Word) (set : Bool) (ot : Nat) (l : List (Nat × Flags)) (r : Nat) :
    State :=
  let v := ofLanes (outWidth ot) (l.map (·.1))
  let per := 32 / outWidth ot
  (List.range (outRowWords ot)).foldl (fun s j =>
    let p := (List.range per).any fun i =>
      (s.word (bufAddr c .c (0x4000 * set.toNat + 64 * r + 8 * (j * per + i)))).poison
    s.engineWrite (bufAddr c .a (dBase d + r * dRpitch d + 8 * j)) ⟨wordOf (laneOf v 64 j), p⟩) s

/-- OR flags into the STAT of a workspace (R345): where the slot runs it, and in its control block in the buffer where the slot
has left it or does not run. -/
def orStat (s : State) (c : Site) (i : Nat) (wp : BitVec 5) (fl : Flags) : State :=
  let sl := s.slot c i
  let s := if sl.wp = wp then s.modSlot c i fun sl => sl.addFlags fl else s
  if sl.wp = wp ∧ (sl.state = .ready ∨ sl.state = .parked) then s
  else
    let a := wsBase c wp + 0xA00 + 8 * cbStat
    let t := s.word a
    s.bankSetWord a { t with val := t.val ||| ({ Slot.reset with state := .ready : Slot }.addFlags fl).stat }

/-- A MOUT takes effect: rows in ascending order, then its flags in the STAT of the workspace that issued it (R345). -/
def outSet (s : State) (c : Site) (i : Nat) (wp : BitVec 5) (d : Word × Word) (set : Bool) (ot : Nat) (rm : Rm) (sat : Bool)
    (e : Nat) : State :=
  let (s, fl) := (List.range 256).foldl (fun (s, fl) r =>
    let l := s.outRow c set ot rm sat e r
    (s.outWriteRow c d set ot l r, Flags.or fl (flagsOf (l.map (·.2))))) (s, Flags.none)
  s.orStat c i wp fl

/-- An MZERO or a MOUT takes effect and leaves the queue. -/
def matPerform (s : State) (c : Site) (e : MatEntry) : State :=
  match e.op with
  | .zero set => (s.matDrop c e).zeroSet c set
  | .out d set ot rm sat sc => (s.matDrop c e).outSet c e.slot e.wp d set ot (Rm.ofCode rm) sat sc
  | .mma .. => s

/-- An MZERO or a MOUT starts. -/
def matBegin (s : State) (c : Site) (e : MatEntry) : State := s.matSet c e { e with started := some s.cyc }

/-! ### Issue -/

/-- The two words of a pair register (R331). -/
def pairWords (s : State) (r : Reg) : Word × Word := ((s.reg r).val, (s.reg (r + 1)).val)

/-- The increment of a pair: TPITCH added to BASE modulo 2^20 (R331). -/
def pairInc (s : State) (r : Reg) (inc : Bool) : List WordWrite :=
  if inc then s.wr r (wordOf ((dBase (s.pairWords r) + dTpitch (s.pairWords r)) % 2 ^ 20)) false else []

/-- The skip words an MMA takes at issue, and the slot's SK after it (R343). -/
def takeSkip (s : State) (k : Nat) (sk : Bool) : List Word × Slot :=
  let sl := s.me
  let w := sl.cbWord cbSk
  let base := fieldOf w 3 9
  let left := fieldOf w 16 10
  let n := (k + 63) / 64
  if !sk || fieldOf w 0 1 = 0 then ([], sl)
  else
    let words := (List.range n).map fun i =>
      if i < left then (s.word (bufAddr s.cur.1 .sl (8 * ((base + i) % 512)))).val else 0
    let w := setField w 3 9 (base + n)
    (words, sl.setCb cbSk (if left < n then setField (setField w 16 10 0) 0 1 0 else setField w 16 10 (left - n)))

/-- An MMA (R333, R334, R339, R343). -/
def mma (s : State) (st : Stall) (pair : Nat) (a b q : Reg) (set ia ib sk te : Bool) : State :=
  let (c, i) := s.cur
  let f := pairFmt pair te
  let qs := if q = 0 then [] else [q]
  if (pair == 5) != Site.isQ c then s.raise (ownTrap 0x0C 0 (wordOf pair) (wordOf (Site.isQ c).toNat) 3)
  else s.useRegs ([a, a + 1, b, b + 1] ++ qs)
    (let wa := s.pairWords a
     let wb := s.pairWords b
     let wq := if q = 0 then none else some (s.reg q).val
     match mmaCheck f wa wb wq (s.suppliedRows c) with
     | some t => s.raise t
     | none => match (s.core c).round.filter (·.slot = i) with
       | none => s.gangJoin 0
       | some r => s.matEnter
         (let (skip, sl) := s.takeSkip f.k sk
          s.finishW st 8 (fun s' =>
              let s' := s'.modMe fun x => x.setCb cbSk (sl.cbWord cbSk)
              (s'.matPush { MatEntry.queued i (.mma pair wa wb wq set te skip) s'.me.wp with
                step := r.issued
                round := r.opened
                gtmo := r.gtmo }).modCore c fun k => { k with round := some { r with issued := r.issued + 1 } })
            [(1, s.pairInc a ia ++ s.pairInc b ib)]))

end State

/-- MMA.BB (R329, R335). -/
def execMmaBB (st : Stall) (a b q : Reg) (set ia ib sk te : Bool) (s : State) : Out :=
  .next (s.mma st 0 a b q set ia ib sk te)

/-- MMA.EE (R329, R335). -/
def execMmaEE (st : Stall) (a b q : Reg) (set ia ib sk te : Bool) (s : State) : Out :=
  .next (s.mma st 1 a b q set ia ib sk te)

/-- MMA.EF (R329, R335). -/
def execMmaEF (st : Stall) (a b q : Reg) (set ia ib sk te : Bool) (s : State) : Out :=
  .next (s.mma st 2 a b q set ia ib sk te)

/-- MMA.MM (R329, R335). -/
def execMmaMM (st : Stall) (a b q : Reg) (set ia ib sk te : Bool) (s : State) : Out :=
  .next (s.mma st 3 a b q set ia ib sk te)

/-- MMA.BF (R329, R335). -/
def execMmaBF (st : Stall) (a b q : Reg) (set ia ib sk te : Bool) (s : State) : Out :=
  .next (s.mma st 4 a b q set ia ib sk te)

/-- MMA.FF (R329, R335). -/
def execMmaFF (st : Stall) (a b q : Reg) (set ia ib sk te : Bool) (s : State) : Out :=
  .next (s.mma st 5 a b q set ia ib sk te)

/-- MZERO enters the matrix queue (R339, R344). -/
def execMzero (st : Stall) (set : Bool) (s : State) : Out :=
  .next (s.matEnter ((s.matPush (.queued s.cur.2 (.zero set) s.me.wp)).retire st 8))

/-- MOUT: its checks, then its destination is emptied and it enters the matrix queue (R333, R339, R345). -/
def execMout (st : Stall) (d q : Reg) (set : Bool) (ot : BitVec 3) (rm : BitVec 2) (sat incd : Bool) (s : State) : Out :=
  let bytes := 8 * State.outRowWords ot.toNat
  .next (s.useRegs ([d, d + 1] ++ (if q = 0 then [] else [q]))
    (let w := s.pairWords d
     match firstTrap [descForm w 3, descAlign w bytes 3, descRange (dBase w) (dRpitch w) 256 bytes Buf.a.size 3] with
     | some t => s.raise t
     | none => s.matEnter (s.finishW st 8
         (fun s' => (s'.outHold s.cur.1 w ot.toNat).matPush (.queued s.cur.2
           (.out w set ot.toNat rm.toNat sat (if q = 0 then 0x7F else fieldOf (s.reg q).val 0 8)) s'.me.wp))
         [(1, s.pairInc d incd)])))

/-- GANG opens a round (R334). -/
def execGang (_st : Stall) (s : State) : Out := .next (s.gangJoin 8)

/-- SKSET (R342). -/
def execSkset (st : Stall) (base : BitVec 9) (len : BitVec 10) (s : State) : Out :=
  .next ((s.modMe fun sl => sl.setCb cbSk
    (wordOf (len.toNat * 2 ^ 16 + base.toNat * 8 + (if len.toNat > 0 then 1 else 0)))).retire st 8)

/-- MATRIX_QUEUE_RUN: the first operation of the queue that may take effect does (R339). -/
def execMatrixQueueRun (core : Nat) (s : State) : Out :=
  .next (match s.matHead core fun o => !MatOp.isMma o with
    | some e => s.matPerform core e
    | none => if s.stepEndable core then s.stepEnd core else s.stepStart core)

/-- MMA_STEP_START (R336). -/
def execMmaStepStart (core : Nat) (s : State) : Out := .next (s.stepStart core)

/-- MMA_STEP_END (R336). -/
def execMmaStepEnd (core : Nat) (s : State) : Out := .next (s.stepEnd core)

/-- FREEZE: the freeze lines follow the lateness of the members' operands (R215). -/
def execFreeze (core : Nat) (s : State) : Out := .next (s.stepFreeze core)

/-- GANG_TIMEOUT: a gang's wired barrier not opened within the first join's GTMO (R216, R334). -/
def execGangTimeout (core slot : Nat) (s : State) : Out := .next (s.barExpire .gang core slot)

/-- GANG_STEP_TIMEOUT (R338). -/
def execGangStepTimeout (core : Nat) (s : State) : Out :=
  .next (s.stepTimes core)

/-- MZERO_DONE: the set lands as +0 (R344). -/
def execMzeroDone (core : Nat) (s : State) : Out :=
  .next (match s.matHead core MatOp.isZero with
    | some e => s.matPerform core e
    | none => s)

/-- MOUT_DONE: the rows are written and the flags are ORed into STAT (R345). -/
def execMoutDone (core : Nat) (s : State) : Out :=
  .next (match s.matHead core MatOp.isOut with
    | some e => s.matPerform core e
    | none => s)

end Sys2Proof.Machine
end

