-- ==== Sys2Proof/Machine/Ports.lean ====
section
/-!
DEFINITION. Neighbour ports (R217 to R219, R347 to R353): peers, the queues that consuming cores hold, and the port
instructions.
-/

namespace Sys2Proof.Machine

/-- A port direction (R347). -/
inductive Dir where
  | e | w | n | s | lp | lm
  deriving DecidableEq, Repr

namespace Dir

/-- The direction with a code (R347). -/
def ofCode (k : Nat) : Option Dir :=
  match k with
  | 0 => some .e | 1 => some .w | 2 => some .n | 3 => some .s | 4 => some .lp | 5 => some .lm | _ => none

/-- The code of a direction. -/
def code : Dir → Nat
  | .e => 0 | .w => 1 | .n => 2 | .s => 3 | .lp => 4 | .lm => 5

/-- The opposite direction (R348). -/
def opposite : Dir → Dir
  | .e => .w | .w => .e | .n => .s | .s => .n | .lp => .lm | .lm => .lp

end Dir

namespace State

/-- The site at a column and row of the package's 64 × 64 grid: dies 0 and 1 above dies 2 and 3 (R1, R217). -/
def gridSite (x y : Nat) : Site := Site.mk (x / 32 + 2 * (y / 32)) (x % 32) (y % 32)

/-- The sites of the grid beyond a site in a direction, nearest first (R217). -/
def beyond (c : Site) (d : Dir) : List Site :=
  let x := Site.die c % 2 * 32 + Site.x c
  let y := Site.die c / 2 * 32 + Site.y c
  match d with
  | .e => (List.range (63 - x)).map fun k => gridSite (x + 1 + k) y
  | .w => (List.range x).map fun k => gridSite (x - 1 - k) y
  | .n => (List.range y).map fun k => gridSite x (y - 1 - k)
  | .s => (List.range (63 - y)).map fun k => gridSite x (y + 1 + k)
  | _ => []

/-- The peer of a slot in a direction (R217). -/
def peer (s : State) (c : Site) (i : Nat) (d : Dir) : Option (Site × Nat) :=
  match d with
  | .lp => if i < 10 then some (c, i + 1) else none
  | .lm => if 0 < i then some (c, i - 1) else none
  | _ => ((beyond c d).find? s.live).map fun t => (t, i)

/-- Does a core's slot 0 hold a control context of another core's placement group (R348)? Cores that no launch placed
share a group where their slots 0 hold the same context. -/
def sameGroup (s : State) (c t : Site) : Bool :=
  (s.core t).group == (s.core c).group &&
    ((s.core c).group.isSome || ((s.slot t 0).state != .free && (s.slot t 0).ctx == (s.slot c 0).ctx &&
      (s.slot t 0).gen == (s.slot c 0).gen))

/-- The peer of a slot in its placement group (R218). -/
def groupPeer (s : State) (c : Site) (i : Nat) (d : Dir) : Option (Site × Nat) :=
  (s.peer c i d).filter fun p => s.sameGroup c p.1

/-- The key of an incoming queue. -/
def portKey (i : Nat) (d : Dir) (vec : Bool) : Nat := 12 * i + 2 * d.code + vec.toNat

/-- The incoming queue of a slot from a direction. -/
def portQueue (s : State) (c : Site) (i : Nat) (d : Dir) (vec : Bool) : List PortEntry :=
  aget (s.core c).ports [] (portKey i d vec)

/-- Set an incoming queue. -/
def setPort (s : State) (c : Site) (i : Nat) (d : Dir) (vec : Bool) (q : List PortEntry) : State :=
  s.modCore c fun k => { k with ports := if q.isEmpty then adel k.ports (portKey i d vec) else aset k.ports (portKey i d vec) q }

/-- The capacity of a queue (R218). -/
def portCap (vec : Bool) : Nat := if vec then 2 else 4

/-- NOPEER (R218, R234). -/
def noPeer (d : Dir) : Trap := ownTrap 9 2 (wordOf d.code) 0 3

/-- The cycle up to which the issuing slot's port operation may wait (R218). -/
def portUntil (s : State) : Nat :=
  s.me.parkedSince.getD s.cyc + s.me.ftmo

/-- Can a waiting port operation go on (R349)? One whose peer is gone issues again and raises NOPEER. -/
def portReady (s : State) (c : Site) (i : Nat) (d : Dir) (push vec : Bool) : Bool :=
  match s.groupPeer c i d with
  | none => true
  | some (t, j) =>
    if push then decide ((s.portQueue t j d.opposite vec).length < portCap vec)
    else !(s.portQueue c i d vec).isEmpty

/-- PUSH and PUSHV (R349): `offs` are the workspace offsets of the source words. -/
def push (s : State) (st : Stall) (code : Nat) (vec mark : Bool) (src : List Dest) (offs : List (Nat × Bool))
    (words : List Tagged) : State :=
  match Dir.ofCode code with
  | none => s
  | some d =>
    let (c, i) := s.cur
    s.readCheck src
      (match s.groupPeer c i d with
       | none => s.raise (noPeer d)
       | some (t, j) => match offs.find? (·.2) with
         | some o => s.raise (poisonTrap (wordOf o.1))
         | none =>
           let q := s.portQueue t j d.opposite vec
           if q.length < portCap vec then (s.setPort t j d.opposite vec (q ++ [⟨words, mark⟩])).retire st 4
           else s.parkMe (.port code true vec s.portUntil))

/-- POP, POPV and PEEK (R350): `f` makes the register writes of the entry's words. -/
def pop (s : State) (code : Nat) (vec remove : Bool) (mark : Reg) (f : List Tagged → List WordWrite) : State :=
  match Dir.ofCode code with
  | none => s
  | some d =>
    let (c, i) := s.cur
    match s.groupPeer c i d with
    | none => s.raise (noPeer d)
    | some _ => match s.portQueue c i d vec with
      | [] => s.parkMe (.port code false vec s.portUntil)
      | e :: rest =>
        let s := if remove then s.setPort c i d vec rest else s
        s.done 4 (f e.words ++ s.wr mark (wordOf e.mark.toNat) false)

/-- A stored entry whose queue storage fails its ECC check: it will be delivered with every tag set (R350). -/
def spoiled (e : PortEntry) : PortEntry := { e with words := e.words.map fun t => ⟨t.val, true⟩ }

/-- Queue storage fails in any cycle and at any entry (R350): a free value gives what happens in this one. -/
def queueErrors (s : State) : State :=
  let (v, s) := s.drawNat Config.freeNat
  let (x, s) := s.drawNat Config.freeNat
  let (y, s) := s.drawNat Config.freeNat
  match if v = 0 then s.cores[x % s.cores.length]? else none with
  | none => s
  | some (c, _) => s.modCore c fun k => { k with
    ports := k.ports.map fun (q, l) => if q = y % 132 then (q, ((List.range l.length).zip l).map fun (n, e) =>
      if n = y / 132 % 4 then spoiled e else e) else (q, l) }

/-- PCFG's STATUS byte of a direction (R352). -/
def portStatus (s : State) (d : Dir) : Nat :=
  let (c, i) := s.cur
  let full (vec : Bool) : Nat := match s.groupPeer c i d with
    | some (t, j) => if (s.portQueue t j d.opposite vec).length < portCap vec then 0 else 1
    | none => 0
  (s.portQueue c i d false).length + (s.portQueue c i d true).length * 8 + full false * 32 + full true * 64
    + (s.groupPeer c i d).isSome.toNat * 128

/-- PCFG's PEER result (R352). -/
def portPeer (s : State) (code : Nat) : Word :=
  match (Dir.ofCode code).bind (s.groupPeer s.cur.1 s.cur.2) with
  | some (t, j) => wordOf (Site.die t * 2 ^ 24 + Site.y t * 2 ^ 16 + Site.x t * 2 ^ 8 + j)
  | none => wordOf (2 ^ 63)

/-- PCFG's result (R352). -/
def portInfo (s : State) (a : Word) : Word :=
  match fieldOf a 0 3 with
  | 0 => wordOf (s.portStatus .e + s.portStatus .w * 2 ^ 8 + s.portStatus .n * 2 ^ 16 + s.portStatus .s * 2 ^ 24
      + s.portStatus .lp * 2 ^ 32 + s.portStatus .lm * 2 ^ 40)
  | 1 => s.portPeer (fieldOf a 8 3)
  | _ => 0

end State

/-- PUSH, with its mark (R347). -/
def execPush (st : Stall) (d : Reg) (dir : BitVec 3) (m : Bool) (s : State) : Out :=
  .next (s.push st dir.toNat false m (s.regDests [d]) [(8 * d.toNat, (s.reg d).poison)] [s.reg d])

/-- PUSHV, with its mark (R347). -/
def execPushv (st : Stall) (d : VReg) (dir : BitVec 3) (m : Bool) (s : State) : Out :=
  let v := s.vreg d
  .next (s.push st dir.toNat true m (s.vregDests [d])
    ((List.range 8).map fun j => (0x200 + 64 * d.toNat + 8 * j, (v.getD j ⟨0, false⟩).poison)) v)

/-- POP (R350). -/
def execPop (_st : Stall) (d : Reg) (dir : BitVec 3) (b : Reg) (s : State) : Out :=
  .next (s.pop dir.toNat false true b fun ws => s.regWrite s.cur.1 s.cur.2 d (ws.getD 0 ⟨0, false⟩))

/-- POPV (R350). -/
def execPopv (_st : Stall) (d : VReg) (dir : BitVec 3) (b : Reg) (s : State) : Out :=
  .next (s.pop dir.toNat true true b fun ws => s.vregWrite d ws)

/-- PEEK: the head stays (R350). -/
def execPeek (_st : Stall) (d : Reg) (dir : BitVec 3) (b : Reg) (s : State) : Out :=
  .next (s.pop dir.toNat false false b fun ws => s.regWrite s.cur.1 s.cur.2 d (ws.getD 0 ⟨0, false⟩))

/-- PCFG (R352). -/
def execPcfg (st : Stall) (d a : Reg) (s : State) : Out :=
  .next (s.useRegs [a] (s.finish st 4 [(1, s.wr d (s.portInfo (s.reg a).val) false)]))

/-- PORT_TIMEOUT: a port wait longer than FTMO (R218, R349). -/
def execPortTimeout (core slot : Nat) (s : State) : Out :=
  .next (match (s.slot core slot).wait with
    | some (.port code _ _ u) =>
      if s.cyc > u then s.raiseAt core slot (ownTrap 9 1 (wordOf code) 0 3) else s
    | _ => s)

end Sys2Proof.Machine
end

