-- ==== Sys2Proof/Machine/Save.lean ====
section
/-!
DEFINITION. CTX.SAVE and CTX.LOAD (R383, R415 to R419, R84, R194, R340): the save image.

The spec gives the layout of the header and of the sections BUFFERS, FAULTREPLY and RENAME; the model writes and reads
those byte by byte. The bytes of the other sections are free values; what they stand for is held beside them in State
and found again by those bytes (log entry 20).
-/

namespace Sys2Proof.Config

/-- What bytes that no CTX.SAVE of this device wrote stand for as a save image (R416): the layout is not given. -/
opaque foreignImage : List Byte → Machine.Image

end Sys2Proof.Config

namespace Sys2Proof.Machine

/-! ### Bytes -/

/-- Bytes from bits, the lowest bit first; the last byte is filled with zeros. -/
def packBits : List Bool → List Byte
  | [] => []
  | b0 :: b1 :: b2 :: b3 :: b4 :: b5 :: b6 :: b7 :: t =>
    BitVec.ofNat 8 (b0.toNat + 2 * b1.toNat + 4 * b2.toNat + 8 * b3.toNat + 16 * b4.toNat + 32 * b5.toNat + 64 * b6.toNat
      + 128 * b7.toNat) :: packBits t
  | l => [BitVec.ofNat 8 (l.foldr (fun b n => b.toNat + 2 * n) 0)]

/-- The bits of bytes, the lowest bit first. -/
def unpackBits (l : List Byte) : List Bool := l.flatMap fun b => (List.range 8).map b.getLsbD

/-- Part of a list of bytes. -/
def slice (l : List Byte) (off n : Nat) : List Byte := (l.drop off).take n

/-- A word of a list of bytes. -/
def wordIn (l : List Byte) (off : Nat) : Word := wordOf (bytesNat (slice l off 8))

/-- The bytes of a word. -/
def wordBytes (w : Word) : List Byte := natBytes 8 w.toNat

/-- The regions of a core in the order of a BUFFERS record (R417): buffer and size. -/
def recordBuffers : List (Buf × Nat) := [(.w, 98304), (.a, 65536), (.c, 32768), (.s, 49152), (.sl, 4096)]

/-- The causes of the TRAP entries of a fault-reply cell, in order (R413). -/
def cellCauses : List Nat := [0x0A, 0x0F, 0x10, 0x15]

namespace State

/-! ### What is saved -/

/-- A context and its descendants that are live, by ascending depth and number (R416). -/
def treeOf (s : State) (n : Nat) : List Nat :=
  let l := (s.ctxs.filter fun (m, k) => k.live && s.inTree n 8 m).map (·.1)
  (List.range 8).flatMap fun d => l.filter fun m => (s.ctx m).depth == d

/-- The cores that a context holds, with its descendants, by ascending site (R416). -/
def coresOf (s : State) (n : Nat) : List Site := (s.cores.filter fun (_, k) => k.chain.contains (n, (s.ctx n).gen)).map (·.1)

/-- The parent frame that a stage-2 entry was composed from (R383). -/
def parentFrame (s : State) (n g : Nat) : Nat :=
  match (s.ctx (s.ctx n).parent).grants.find? fun r => r.child == n && decide (r.cgfn ≤ g) && decide (g < r.cgfn + r.count) with
  | some r => r.pgfn + (g - r.cgfn)
  | none => 0

/-- The used reduction slots of a context's region (R194). -/
def redOf (s : State) (n : Nat) : List (Nat × Nat × RedSlot) :=
  (regionWords (s.ctx n).redrgn).flatMap fun va => match s.translate n va .read false with
    | .ok (e, _) =>
      let w := s.targetAddr e.target (va % e.size) / 8
      (s.redSlots.filter fun r => r.word == w && r.ctx == n && r.gen == (s.ctx n).gen).map fun r => (n, va, r)
    | .error _ => []

/-- What an image of a child stands for (R416). -/
def imageOf (s : State) (n : Nat) (key : List Byte) : Image :=
  let tree := s.treeOf n
  { key := key
    child := n
    ctxs := tree.map fun m => (m, s.ctx m)
    frames := tree.flatMap fun m =>
      ((s.ctx m).s2.filter fun x => x.2.getLsbD 0).map fun (g, e) => (m, g, s.parentFrame m g, e)
    cores := (s.coresOf n).map fun c => (c, s.core c)
    churn := s.dies.flatMap fun (d, k) => (k.churn.filter fun i => tree.contains i.ctx).map fun i => (d, i)
    red := tree.flatMap s.redOf
    enrol := s.enrol.filter fun (_, e) => e.rec_.getLsbD 0 && tree.contains (fieldOf e.rec_ 48 16) &&
      fieldOf e.rec_ 40 8 == (s.ctx (fieldOf e.rec_ 48 16)).gen
    queue := s.dies.flatMap fun (d, k) => (k.queue.filter fun r => tree.contains r.ctx).map fun r => (d, r)
    running := s.dies.flatMap fun (d, k) => (k.running.filter fun r => tree.contains r.rec_.ctx).map fun r => (d, r)
    pass := s.dies.flatMap fun (d, k) => (k.pass.filter fun p => tree.contains (p.1 / 8)).map fun p => (d, p.1, p.2) }

/-! ### The sections that the spec lays out (R413, R417) -/

/-- A BUFFERS record (R417). -/
def bufferRecord (s : State) (c : Site) : List Byte :=
  let head := wordBytes (wordOf (Site.die c * 2 ^ 24 + Site.y c * 2 ^ 16 + Site.x c * 2 ^ 8 + s.logical c * 2 ^ 32)) ++
    List.replicate 56 (0 : Byte)
  let data := recordBuffers.flatMap fun (b, n) => mread s.mem (bufAddr c b 0) n
  let full (b : Buf) (n : Nat) : List Bool := (List.range (n / 8)).map fun j => s.isFull (bufAddr c b (8 * j))
  let tags := recordBuffers.flatMap fun (b, n) => (List.range (n / 8)).map fun j => s.poison.contains (bufAddr c b (8 * j) / 8)
  head ++ data ++ packBits (full .a 65536 ++ full .s 49152) ++ packBits tags

/-- An entry of a fault-reply cell (R413). -/
def cellEntry (kind slot gen ctx reg ovf cause : Nat) (addr value info : Word) : List Byte :=
  wordBytes (wordOf (kind * 2 ^ 60 + slot * 2 ^ 56 + gen * 2 ^ 48 + ctx * 2 ^ 32 + reg * 2 ^ 26 + ovf * 2 ^ 25 + cause)) ++
    wordBytes addr ++ wordBytes value ++ wordBytes info

/-- The fault-reply cell of a core (R413), from the replies kept for the saved contexts. -/
def cellBytes (s : State) (tree : List Nat) (c : Site) : List Byte :=
  let all := tree.flatMap fun n => (s.ctx n).replies.filter (·.core == c)
  let none_ : List Byte := List.replicate 32 0
  let status (i : Nat) : List Byte := match all.find? fun r => r.slot == i && r.status.isSome with
    | some r => match r.status with
      | some (d, v) => cellEntry 1 i r.gen r.ctx d.toNat 0 0 0 v 0
      | none => none_
    | none => none_
  let trap (i k : Nat) : List Byte := match all.find? fun r => r.slot == i && r.trap.any (·.cause == k) with
    | some r => match r.trap with
      | some t => cellEntry 2 i r.gen r.ctx 0 t.ovf.toNat k t.addr t.info (wordOf t.detail)
      | none => none_
    | none => none_
  let walks := (all.filterMap fun r => r.walk.map fun w => cellEntry 3 r.slot r.gen r.ctx 0 0 0 w.1 w.2 0).take 9
  ((List.range 11).flatMap fun i => status i ++ cellCauses.flatMap (trap i)) ++
    (walks ++ List.replicate (9 - walks.length) none_).flatten

/-! ### CTX.SAVE (R383, R415) -/

/-- The twelve sections of an image, with the free ones drawn (R416). -/
def sections (s : State) (n : Nat) : List (List Byte) × State :=
  let tree := s.treeOf n
  let cores := s.coresOf n
  (List.range 12).foldl (fun (l, s) i =>
    if i = 3 then (l ++ [cores.flatMap s.bufferRecord], s)
    else if i = 8 then (l ++ [cores.flatMap (s.cellBytes tree)], s)
    else if i = 11 then (l ++ [List.replicate (16 * tree.length) (0 : Byte)], s)
    else
      let size := Config.sectionSize i s.draws
      (l ++ [(List.range size).map fun j => Config.sectionByte i (s.draws + 1 + j)], { s with draws := s.draws + 1 + size })) ([], s)

/-- The offsets and sizes of sections that follow each other, each 64-byte aligned (R416). -/
def directory : Nat → List (List Byte) → List (Nat × Nat)
  | _, [] => []
  | off, x :: t => (off, x.length) :: directory (off + (x.length + 63) / 64 * 64) t

/-- The header of an image (R415). -/
def imageHeader (s : State) (n size : Nat) (dir : List (Nat × Nat)) : List Byte :=
  let k := s.ctx n
  let ws : List Word :=
    [wordOf 0x100, wordOf size, s.pkg.feat.setWidth 64, (s.pkg.feat >>> 64).setWidth 64,
     wordOf (n * 2 ^ 48 + k.gen * 2 ^ 40 + k.depth * 2 ^ 37 + (s.treeOf n).length),
     wordOf ((s.coresOf n).length * 2 ^ 32 + s.liveSlices), 0, 0]
  (ws ++ dir.flatMap fun (o, z) => [wordOf o, wordOf z]).flatMap wordBytes

/-- Sections laid out one after another, padded to 64 bytes. -/
def padded (l : List (List Byte)) : List Byte :=
  l.flatMap fun x => x ++ List.replicate ((x.length + 63) / 64 * 64 - x.length) (0 : Byte)

/-- The part of an image whose layout the spec does not give, with the header (R416). -/
def imageKey (head : List Byte) (secs : List (List Byte)) : List Byte :=
  head ++ ((List.range 12).zip secs).flatMap fun (i, x) => if i = 3 ∨ i = 8 ∨ i = 11 then [] else x

/-- Translate the pieces of a range for a write. -/
def writePieces (s : State) (ctx : Nat) : List (Nat × Nat) → Except Trap (List (Nat × Nat × Bool × Nat) × State)
  | [] => .ok ([], s)
  | (va, n) :: rest =>
    if isMesh (wordOf va) then .error (ownTrap 4 0xB (wordOf va) 0 1)
    else match s.translateDirect ctx (wordOf va) .write with
      | .error t => .error t
      | .ok (a, v, s) => match writePieces s ctx rest with
        | .error t => .error t
        | .ok (l, s) => .ok ((a, n, v, va) :: l, s)

/-- Write bytes over translated pieces. -/
def putPieces (s : State) (ctx gen : Nat) : List (Nat × Nat × Bool × Nat) → List Byte → State
  | [], _ => s
  | (a, n, v, va) :: rest, bs =>
    let s := s.bankWrite a (bs.take n) []
    putPieces (if v then s.masterWrite ctx gen va else s) ctx gen rest (bs.drop n)

/-- Does a word of an engine command lie in the buffers of some cores? -/
def writesTo (cs : List Site) (e : EngCmd) : Bool :=
  e.words.any fun w => w.dst.any fun a => decide (2 ^ 40 ≤ a) && decide (a < 2 ^ 80) && cs.contains (ownerOf a)

/-- Does a stopped child still have engine commands or accesses of its tree to complete, or a core of its an engine command of
anyone that still writes its buffers (R75, R383)? -/
def saveBusy (s : State) (n : Nat) : Bool :=
  s.treeBusy n || s.clusters.any fun (_, k) => k.engine.any fun e =>
    (s.inTree n 8 e.ctx && e.gen == (s.ctx e.ctx).gen) || writesTo (s.coresOf n) e

/-- Does a reservation hold a word of translated pieces (R187)? -/
def piecesHeld (s : State) (l : List (Nat × Nat × Bool × Nat)) : Bool :=
  l.any fun (a, n, _) => (wordsOf a n).any fun w => s.isReserved (8 * w)

/-- Rewrite word 1 of a save area's descriptor, unless a reservation holds it (R187). -/
def putArea (s : State) (va : Word) (size : Nat) (k : State → State) : State :=
  match s.translateDirect s.me.ctx (va + 8) .write with
  | .error t => s.raise t
  | .ok (a, v, s) =>
    if s.isReserved a then s.parkMe .save
    else
    let s := s.bankSetWord a ⟨wordOf size, false⟩
    k (if v then s.masterWrite s.me.ctx s.me.gen (va + 8).toNat else s)

/-- CTX.SAVE of a child into an area (R383): one that saves refuses back the requests parked at its cores (R66). -/
def saveChild (s : State) (d : Reg) (n : Nat) (va : Word) (l : List Tagged) : State :=
  let base := blockWord l 0
  if !(s.ctx n).stopped then s.status d 8 9
  else if s.saveBusy n then s.parkMe .save
  else if l.any (·.poison) || base.toNat % 4096 ≠ 0 then s.status d 8 5
  else
    let (secs, s) := s.sections n
    let dir := directory 256 secs
    let body := padded secs
    let size := 256 + body.length
    if (blockWord l 1).toNat < size then s.putArea va size fun s => s.status d 8 13
    else
      let head := s.imageHeader n size dir
      match s.writePieces s.me.ctx (pieces (size / 4096 + 2) base.toNat size) with
      | .error t => s.raise t
      | .ok (ps, s') =>
        if s.piecesHeld ps then s.parkMe .save
        else s'.putArea va size fun s =>
          let s := (s.coresOf n).foldl (fun s c => s.refuseParked c) s
          let s := s.putPieces s.me.ctx s.me.gen ps (head ++ body)
          { s with images := s.imageOf n (imageKey head secs) :: s.images }.status d 8 0

/-! ### CTX.LOAD (R383, R418, R419) -/

/-- Is an image inconsistent (R379, R415): a section outside it, or a size that the spec fixes and it lacks? A section of size 0 is
absent; an image of another MINOR may have longer records or none (R418). -/
def badImage (bs : List Byte) : Bool :=
  let size := (wordIn bs 8).toNat
  let minor := fieldOf (wordIn bs 0) 0 8
  let nctx := fieldOf (wordIn bs 32) 0 16
  let ncore := fieldOf (wordIn bs 40) 32 16
  let sec (i : Nat) : Nat × Nat := ((wordIn bs (64 + 16 * i)).toNat, (wordIn bs (72 + 16 * i)).toNat)
  let records (i n bytes : Nat) : Bool :=
    if minor = 0 then (sec i).2 == bytes * n
    else (sec i).2 == 0 || (decide ((sec i).2 % max 1 n = 0) && decide (bytes * n ≤ (sec i).2))
  (List.range 12).any (fun i => (minor == 0 || (sec i).2 != 0) &&
      ((sec i).1 % 64 != 0 || decide ((sec i).1 + (sec i).2 > size) || decide ((sec i).1 < 256))) ||
    !(records 3 ncore 255616 && records 8 ncore 2048 && records 11 nctx 16)

/-- The sections of an image. -/
def sectionsIn (bs : List Byte) : List (List Byte) :=
  (List.range 12).map fun i => slice bs (wordIn bs (64 + 16 * i)).toNat (wordIn bs (72 + 16 * i)).toNat

/-- What an image stands for: one this device saved, or one it did not (R416). -/
def findImage (s : State) (bs : List Byte) : Image :=
  let key := imageKey (bs.take 256) (sectionsIn bs)
  match s.images.find? fun x => x.key == key with
  | some x => x
  | none => Config.foreignImage key

/-- The identities that LOAD gives (R419): the saved child takes the number it is loaded into, and every saved descendant
the lowest free number; none where no number is free. -/
def newNumbers (s : State) (n : Nat) (img : Image) : Option (List (Nat × Nat)) :=
  let free := ((List.range (s.ctxs.length + img.ctxs.length + 1)).filter fun m => decide (m < 65536) && !(s.ctx m).live)
  let rest := (img.ctxs.map (·.1)).filter (· ≠ img.child)
  if free.length < rest.length then none else some ((img.child, n) :: rest.zip free)

/-- The new number of a saved context. -/
def renum (m : List (Nat × Nat)) (k : Nat) : Nat := aget m k k

/-- The new generation of a loaded context (R419): the child keeps its own, a descendant takes the next. -/
def newGen (s : State) (n m : Nat) : Nat := if m = n then (s.ctx n).gen else ((s.ctx m).gen + 1) % 256

/-- Compose the saved frames of the child afresh from the issuer's array (R40, R383): the entries, or a status. -/
def loadFrames (s : State) (depth : Nat) (parent : Nat → Word) (slices : Nat) :
    List (Nat × Nat × Word) → Except Nat (List (Nat × Word))
  | [] => .ok []
  | (g, p, e) :: rest =>
    let cb := e.getLsbD 5 && !e.getLsbD 6
    let src := parent p
    if cb && decide (fieldOf e 12 8 ≥ slices) then .error 12
    else if !src.getLsbD 0 then .error (if src.getLsbD 11 then 3 else 2)
    else
      let c := composeEntry src (fieldOf e 1 3) depth (e.getLsbD 7)
      if (cb || (c.getLsbD 5 && !c.getLsbD 6)) && fieldOf c 12 52 != fieldOf e 12 52 then .error 12
      else match loadFrames s depth parent slices rest with
        | .error x => .error x
        | .ok l => .ok ((g, c) :: l)

/-- Compose the stage-2 arrays of every saved context, ancestors first (R383): by new number. -/
def loadArrays (s : State) (issuer : Nat) (img : Image) (m : List (Nat × Nat)) :
    List (Nat × Ctx) → List (Nat × List (Nat × Word)) → Except Nat (List (Nat × List (Nat × Word)))
  | [], acc => .ok acc
  | (old, k) :: rest, acc =>
    let top := old == img.child
    let depth := if top then (s.ctx issuer).depth else (s.ctx issuer).depth + (k.depth - (aget img.ctxs Ctx.reset img.child).depth)
    let parent (g : Nat) : Word := if top then aget (s.ctx issuer).s2 0 g else aget (aget acc [] (renum m k.parent)) 0 g
    let mine := (img.frames.filter fun f => f.1 == old).map fun f => f.2
    match s.loadFrames depth parent s.liveSlices mine with
    | .error x => .error x
    | .ok l => loadArrays s issuer img m rest (aset acc (renum m old) l)

/-- A slot as LOAD restores it, with its contexts renamed (R419). -/
def loadSlotRec (m : List (Nat × Nat)) (gen : Nat → Nat) (sl : Slot) : Slot :=
  { sl with
    ctx := renum m sl.ctx
    gen := gen (renum m sl.ctx)
    kept := sl.kept.map fun k => { k with child := k.child.map fun o => { o with ctx := renum m o.ctx, gen := gen (renum m o.ctx) } }
    wait := none
    state := match sl.state with
      | .ready | .parked | .faulted => .halted
      | x => x }

/-- Write a core's buffers, full-empty bits and poison tags from a BUFFERS record (R417); monitors see the writes (R171). -/
def loadBuffers (s : State) (c : Site) (bs : List Byte) : State :=
  let s := (recordBuffers.foldl (fun (s, off) (b, n) =>
    ({ s with mem := mwrite s.mem (bufAddr c b 0) (slice bs off n) }.noteMonitors (bufAddr c b 0) n, off + n)) (s, 64)).1
  let words := recordBuffers.flatMap fun (b, n) => (List.range (n / 8)).map fun j => bufAddr c b (8 * j)
  let fe := (List.range 8192).map (fun j => bufAddr c .a (8 * j)) ++ (List.range 6144).map fun j => bufAddr c .s (8 * j)
  let s := (words.zip (unpackBits (slice bs 251712 3904))).foldl (fun s (a, p) => s.tag a p) s
  (fe.zip (unpackBits (slice bs 249920 1792))).foldl (fun s (a, f) => s.setFull a f) s

/-- The owner of a notice by its cause and detail (R234): the machine check of a walk and of a link's header are the root's, that of a
link's payload the partition's. -/
def noticeOwner (cause detail : Nat) : Owner :=
  if cause = 0x15 then (if detail = 2 then .partition else .root) else .own

/-- The replies that a fault-reply cell holds for a core's slots (R413). -/
def cellReplies (s : State) (c : Site) (ctxOf : Nat → Nat × Nat × BitVec 5) (bs : List Byte) : List Reply :=
  (List.range 11).flatMap fun i =>
    let (n, gen, wp) := ctxOf i
    (List.range 5).filterMap fun j =>
      let w := wordIn bs (160 * i + 32 * j)
      let v (x : Nat) : Word := wordIn bs (160 * i + 32 * j + 8 * x)
      match fieldOf w 60 4 with
      | 1 => some ⟨s.serial, c, n, gen, i, wp, some (BitVec.ofNat 6 (fieldOf w 26 6), v 2), none, none⟩
      | 2 => some ⟨s.serial, c, n, gen, i, wp, none,
          some { cause := fieldOf w 0 8, detail := fieldOf (v 3) 0 8, addr := v 1, info := v 2
                 owner := noticeOwner (fieldOf w 0 8) (fieldOf (v 3) 0 8), acc := 3
                 straddle := false, ovf := w.getLsbD 25 }, none⟩
      | _ => none

/-- The WALK entries that a fault-reply cell holds (R413), for the slots that they name. -/
def cellWalks (s : State) (c : Site) (ctxOf : Nat → Nat × Nat × BitVec 5) (bs : List Byte) : List Reply :=
  (List.range 9).filterMap fun j =>
    let w := wordIn bs (1760 + 32 * j)
    let i := fieldOf w 56 4
    let (n, gen, wp) := ctxOf i
    if fieldOf w 60 4 = 3 then
      some ⟨s.serial, c, n, gen, i, wp, none, none, some (wordIn bs (1768 + 32 * j), wordIn bs (1776 + 32 * j))⟩
    else none

/-- Arm again the lines of a slot that the image records, with every such line's flag set (R172). -/
def rearm (s : State) (c : Site) (i : Nat) : State :=
  let sl := s.slot c i
  let again (s : State) (m : Monitor) : Monitor :=
    match m.stopped.or (m.armed.map (·.2)) with
    | none => m
    | some va => match s.resolveDirect c sl.ctx va 1 .read with
      | .ok (a, _, _) => { armed := some (a / 64, va), pending := true, stopped := none }
      | .error _ => { m with
          armed := none
          stopped := none }
  s.modSlot c i fun sl => { sl with monitors := sl.monitors.map fun (j, m) => (j, again s m) }

/-- Restore one core (R418, R419): its record, buffers and fault-reply cell; the chain below the child is renamed.
Requests parked at the core are refused back (R66), and the destination of a queued MOUT is held again (R71, R340). -/
def loadCore (s : State) (n child : Nat) (m : List (Nat × Nat)) (base : Nat) (c : Site) (k : Core) (buf cell : List Byte) :
    State :=
  let gen (x : Nat) : Nat := (s.ctx x).gen
  let here := (s.core c).chain
  let below := ((k.chain.map (·.1)).dropWhile (· ≠ child)).drop 1
  let s := (s.refuseParked c).loadBuffers c buf
  let s := s.modCore c fun x =>
    { k with
      chain := here ++ below.map fun y => (renum m y, gen (renum m y))
      slots := k.slots.map fun (i, sl) => (i, loadSlotRec m gen sl)
      placed := k.placed.map fun p => { p with launch := p.launch + base }
      group := k.group.map fun (x, g) => (renum m x, g)
      itlb := []
      dtlb := []
      icache := []
      park := []
      running := x.running
      portFree := x.portFree
      ptr := x.ptr }
  let s := (s.core c).slots.foldl (fun s (i, sl) => if sl.state == .halted then
      ((s.loadSlot c i sl.wp).modSlot c i fun x => { x with state := .halted }).rearm c i
    else s) s
  let s := (s.core c).matrix.foldl (fun s e => match e.op with
    | .out d _ ot .. => s.outHold c d ot
    | _ => s) s
  let of (i : Nat) : Nat × Nat × BitVec 5 := ((s.slot c i).ctx, (s.slot c i).gen, (s.slot c i).wp)
  let rs := s.cellReplies c of cell ++ s.cellWalks c of cell
  rs.foldl (fun s r => if r.ctx = n ∨ below.any (fun y => renum m y == r.ctx) then s.storeReply r else s) s

/-- Restore one context (R416, R419): what it was, under its new number, with its stage-2 array composed afresh. The child
keeps the budgets and rights its parent gave it. -/
def loadCtx (s : State) (n issuer : Nat) (img : Image) (m : List (Nat × Nat)) (arrays : List (Nat × List (Nat × Word)))
    (old : Nat) (k : Ctx) : State :=
  let new := renum m old
  let cur := s.ctx new
  let gen := s.newGen n new
  let s := if gen = 0 ∧ new ≠ n then s.purgeNumber new else s
  let top := aget img.ctxs Ctx.reset img.child
  let depth := if old = img.child then (s.ctx issuer).depth + 1 else (s.ctx issuer).depth + 1 + (k.depth - top.depth)
  let mine := aget arrays [] new
  let here := old == img.child
  let tracked := mine.any (·.2.getLsbD 7)
  let (x, s) := if here && decide (k.s2len ≤ cur.s2len) then (cur.s2base, s) else s.placeFrames (k.s2len / 512) 0
  let (y, s) := if tracked then (s.modCtx new fun c => { c with
      s2base := x
      s2len := k.s2len }).placeFrames (k.s2len / 64) 1 else (0, s)
  let loaded : Ctx :=
    { k with
      s2base := x
      darr := y
      s2 := []
      sub := []
      gen := gen
      live := true
      depth := depth
      parent := if old = img.child then issuer else renum m k.parent
      grants := k.grants.map fun r => { r with child := renum m r.child }
      replies := []
      halting := false }
  let s := s.modCtx new fun _ =>
    if old = img.child then
      { loaded with
        stopped := true
        reflect := cur.reflect
        weight := cur.weight
        memBytes := cur.memBytes
        poolPages := cur.poolPages
        children := cur.children
        launches := cur.launches
        prioMask := cur.prioMask
        dieMask := cur.dieMask
        pmr := cur.pmr }
    else loaded
  let s := mine.foldl (fun s (g, e) => s.s2Write new g e) s
  k.sub.foldl (fun s (g, b) => s.subWrite new g b) s

/-- What LOAD composes for the child is the issuer's use (R381, R403): 2 MiB for each frame, and a pool page for a pool frame; what the
entries it replaces took returns. -/
def chargeFrames (s : State) (n : Nat) (new : List (Nat × Word)) : State :=
  let s := (s.ctx n).s2.foldl (fun s (_, e) => if e.getLsbD 0 then s.refundFrame (s.ctx n).parent e else s) s
  new.foldl (fun s (_, e) => (s.charge s.me.ctx .memBytes (2 ^ 21)).charge s.me.ctx .poolPages (e.getLsbD 6).toNat) s

/-- Restore a used reduction slot at the word its virtual address names now (R194). -/
def loadRed (s : State) (m : List (Nat × Nat)) (x : Nat × Nat × RedSlot) : State :=
  match s.translate (renum m x.1) x.2.1 .read false with
  | .ok (e, _) =>
    let w := s.targetAddr e.target (x.2.1 % e.size) / 8
    { s with redSlots := s.redSlots ++ [{ x.2.2 with
        word := w
        ctx := renum m x.1
        gen := (s.ctx (renum m x.1)).gen }] }
  | .error _ => s

/-- Slots of core numbers that do not exist here are folded into their words (R194), as a flush does (R193). -/
def foldRed (s : State) : State :=
  let n := s.logical 4096
  let words := ((s.redSlots.filter fun r => decide (r.core ≥ n)).map (·.word)).eraseDups
  words.foldl (fun s w =>
    let l := (s.redSlots.filter fun r => r.word == w && decide (r.core ≥ n)).foldr redInsert []
    let s := s.logUncorr w
    let t := s.bankWord (8 * w)
    let v := flushVal (t.val.setWidth 32) l
    { s with redSlots := s.redSlots.filter fun r => !(r.word == w && decide (r.core ≥ n)) }.acceptBytes (8 * w)
      (natBytes 8 (setField t.val 0 32 v.toNat).toNat) [t.poison || l.any (·.poison)]) s

/-- Restore queued views, launches and PASS values (R416, R419); the wait signals of heads are translated and tested again (R397). -/
def loadQueues (s : State) (img : Image) (m : List (Nat × Nat)) (base : Nat) : State :=
  let gen (x : Nat) : Nat := (s.ctx x).gen
  let rec_ (r : LaunchRec) : LaunchRec :=
    { r with
      n := r.n + base
      ctx := renum m r.ctx
      gen := gen (renum m r.ctx)
      waitAt := none }
  let s := img.churn.foldl (fun s (d, i) => s.modDie d fun k =>
    { k with
      churn := k.churn ++ [{ i with ctx := renum m i.ctx }] }) s
  let s := img.queue.foldl (fun s (d, r) => s.modDie d fun k =>
    { k with
      queue := k.queue ++ [rec_ r] }) s
  let s := img.running.foldl (fun s (d, r) => s.modDie d fun k =>
    { k with
      running := k.running ++ [{ r with rec_ := rec_ r.rec_ }] }) s
  let s := img.pass.foldl (fun s (d, k, v) => s.modDie d fun x =>
    { x with
      pass := aset x.pass (renum m (k / 8) * 8 + k % 8) v }) s
  (List.range 4).foldl (fun s d => s.markHeads d) s

/-- Restore the enrolments under their new owners (R84, R419). -/
def loadEnrol (s : State) (img : Image) (m : List (Nat × Nat)) : State :=
  img.enrol.foldl (fun s (key, e) =>
    let o := renum m (fieldOf e.rec_ 48 16)
    { s with enrol := aset s.enrol key { e with rec_ := setField (setField e.rec_ 48 16 o) 40 8 (s.ctx o).gen } }) s

/-- The RENAME section (R419): each saved reference and the new one, in CONTEXTS order. -/
def renameBytes (s : State) (img : Image) (m : List (Nat × Nat)) : List Byte :=
  img.ctxs.flatMap fun (old, k) =>
    wordBytes (wordOf (old * 2 ^ 16 + k.gen)) ++ wordBytes (wordOf (renum m old * 2 ^ 16 + (s.ctx (renum m old)).gen))

/-- Put a grant record before others, joined with the first where its frames lead up to it. -/
def joinGrant (a : Grant) : List Grant → List Grant
  | b :: t =>
    if a.child == b.child && a.pgfn + a.count == b.pgfn && a.cgfn + a.count == b.cgfn then
      { a with count := a.count + b.count } :: t
    else a :: b :: t
  | [] => [a]

/-- The issuer's grant table after LOAD (R41, R383): records for the child's frames that it lacks, in place of what it held for
them. -/
def loadGrants (s : State) (n : Nat) (img : Image) : List Grant :=
  let have_ := s.myCtx.grants
  let new := ((img.frames.filter fun f => f.1 == img.child).filterMap fun (_, g, p, _) =>
    if have_.any fun r => r.child == n && decide (r.cgfn ≤ g) && decide (g < r.cgfn + r.count) && r.pgfn + (g - r.cgfn) == p then
      none
    else some ⟨n, p, g, 1⟩).foldr joinGrant []
  new.foldl (fun l r => (splitGrants (·.child = n) (·.cgfn) r.cgfn (r.cgfn + r.count) l).2 ++ [r]) have_

/-- What a saved context was carved from its parent's budgets (R380, R403). -/
def carvedOf (k : Ctx) : List (Budget × Nat) := carved k.weight k.children k.launches k.memBytes k.poolPages k.hcap

/-- The amount of a budget in a list. -/
def amountOf (l : List (Budget × Nat)) (b : Budget) : Nat := ((l.find? fun x => x.1 == b).map (·.2)).getD 0

/-- What the children of a saved context, of a list, were carved from a budget of its (R403). A CHILDREN limit counts each child. -/
def carvedFrom (img : Image) (p : Nat) (b : Budget) (l : List (Nat × Ctx)) : Nat :=
  ((l.filter fun x => x.2.parent == p && x.1 != img.child).map fun x => amountOf (carvedOf x.2) b).sum

/-- The first carve of a saved descendant that its restored parent cannot give (R419), as CTX.NEW would refuse it: what the parent's
budget leaves beside the carves of the descendants before it. The exhausted context is restored below the issuer, which is its granting
ancestor or stands above it: the issuer receives the fault (log entry 20). -/
def carveFault (s : State) (n : Nat) (img : Image) : List (Nat × Ctx) → List (Nat × Ctx) → Option Trap
  | _, [] => none
  | seen, (old, k) :: rest =>
    if old = img.child then carveFault s n img (seen ++ [(old, k)]) rest
    else
      let p := aget img.ctxs Ctx.reset k.parent
      let limit (b : Budget) : Nat := if k.parent = img.child then (s.ctx n).limit b else p.limit b
      let used (b : Budget) : Nat := p.usedOf b - carvedFrom img k.parent b img.ctxs + carvedFrom img k.parent b seen
      match carveExceeds (fun b => limit b - used b) (carvedOf k) with
      | some t => some { t with owner := .own }
      | none => carveFault s n img (seen ++ [(old, k)]) rest

/-- What the saved child uses of its budgets beside what it carved must lie within the budgets that its parent gave it here (R403): its
launches, its records and the frames composed for its children. The issuer is the granting ancestor. -/
def useFault (s : State) (n : Nat) (img : Image) : Option Trap :=
  let k := aget img.ctxs Ctx.reset img.child
  let use (b : Budget) : Nat := k.usedOf b - carvedFrom img img.child b img.ctxs
  ([Budget.children, .weight, .launches, .memBytes, .poolPages].find? fun b => decide ((s.ctx n).limit b < use b)).map fun b =>
    { budgetTrap b (use b) with owner := .own }

/-- The budget that LOAD exceeds (R403, R419): the issuer's, for the frames composed, the grant records that it gains and a handle table
larger than the child's was; then the child's, for what it used; then the restored parents', for what is carved to their children. -/
def loadBudget (s : State) (n : Nat) (img : Image) (new : List (Nat × Word)) : Option Trap :=
  let olds := (s.ctx n).s2.filter (·.2.getLsbD 0)
  let pool (l : List (Nat × Word)) : Nat := (l.filter (·.2.getLsbD 6)).length
  let mem (frames grants hcap : Nat) : Nat := 2 ^ 21 * frames + Config.grantBytes * grants + Config.handleBytes * hcap
  let have_ := mem olds.length s.myCtx.grants.length (s.ctx n).hcap
  let need := mem new.length (s.loadGrants n img).length (aget img.ctxs Ctx.reset img.child).hcap
  if s.myCtx.left .memBytes + have_ < need then some (budgetTrap .memBytes (need - have_))
  else if s.myCtx.left .poolPages + pool olds < pool new then some (budgetTrap .poolPages (pool new))
  else (s.useFault n img).or (s.carveFault n img [] img.ctxs)

/-- The handle table of the loaded child is as large as it was saved: the issuer is charged for what that adds, or has it returned
(R104, R403). -/
def chargeHandles (s : State) (n hcap : Nat) : State :=
  (s.charge s.me.ctx .memBytes (Config.handleBytes * (hcap - (s.ctx n).hcap))).refund s.me.ctx .memBytes
    (Config.handleBytes * ((s.ctx n).hcap - hcap))

/-- Restore an image whose checks have passed (R383, R418, R419). -/
def restore (s : State) (n : Nat) (img : Image) (m : List (Nat × Nat)) (arrays : List (Nat × List (Nat × Word)))
    (secs : List (List Byte)) : State :=
  let issuer := s.me.ctx
  let base := s.serial
  let top := (img.queue.map (·.2.n) ++ img.running.map (·.2.rec_.n)).foldl max 0
  let s := { s with serial := base + top + 1 }
  let s := ((s.setGrants issuer (s.loadGrants n img)).chargeFrames n (aget arrays [] n)).chargeHandles n
    (aget img.ctxs Ctx.reset img.child).hcap
  let s := img.ctxs.foldl (fun s (old, k) => s.loadCtx n issuer img m arrays old k) s
  let bufs := secs.getD 3 []
  let cells := secs.getD 8 []
  let s := ((List.range img.cores.length).zip img.cores).foldl (fun s (i, c, k) =>
    let size (l : List Byte) : Nat := l.length / max 1 img.cores.length
    s.loadCore n img.child m base c k (slice bufs (size bufs * i) (size bufs)) (slice cells (size cells * i) (size cells))) s
  ((img.red.foldl (fun s x => s.loadRed m x) (s.loadEnrol img m)).foldRed).loadQueues img m base

/-- CTX.LOAD of the bytes of an image, with the translated pieces of its RENAME section (R383, R418, R419). -/
def loadImage (s : State) (d : Reg) (n : Nat) (bs : List Byte) (rename : Option (List (Nat × Nat × Bool × Nat))) : State :=
  let feat : BitVec 128 := (wordIn bs 16).setWidth 128 ||| ((wordIn bs 24).setWidth 128 <<< 64)
  match rename with
  | none => s.status d 8 14
  | some ps =>
    if fieldOf (wordIn bs 0) 8 8 ≠ 1 then s.status d 8 10
    else if feat &&& ~~~s.pkg.feat ≠ 0 then s.status d 8 11
    else
      let img := s.findImage bs
      match s.newNumbers n img with
      | none => s.status d 8 6
      | some m => match s.loadArrays s.me.ctx img m img.ctxs [] with
        | .error code => s.status d 8 code
        | .ok arrays =>
          let deep := img.ctxs.any fun (_, k) =>
            decide (s.myCtx.depth + 1 + (k.depth - (aget img.ctxs Ctx.reset img.child).depth) > 7)
          if img.enrol.any (fun (key, _) => decide (key / 2048 ≥ s.liveSlices)) then s.status d 8 12
          else if img.cores.any (fun (c, _) => s.holder c != (n, (s.ctx n).gen)) then s.status d 8 7
          else if deep then s.status d 8 6
          else if (s.loadGrants n img).length > 4096 then s.status d 8 4
          else match s.loadBudget n img (aget arrays [] n) with
            | some t => s.raise t
            | none =>
              if s.piecesHeld ps then s.parkMe .save
              else
              let s := s.restore n img m arrays (sectionsIn bs)
              (s.putPieces s.me.ctx s.me.gen ps (s.renameBytes img m)).status d 8 0

/-- CTX.LOAD (R383): RUNNING, then BADIMAGE, then the checks of the image. -/
def loadChild (s : State) (d : Reg) (n : Nat) (va : Word) : State :=
  if !(s.ctx n).stopped || (s.ctx n).everRun then s.status d 8 9
  else match s.readBlock s.me.ctx va 32 with
    | .error t => s.raise t
    | .ok (head, s) =>
      let hb := head.flatMap fun t => wordBytes t.val
      if head.any (·.poison) || badImage hb then s.status d 8 14
      else match s.readBlock s.me.ctx va (((wordIn hb 8).toNat + 7) / 8) with
        | .error t => s.raise t
        | .ok (all, s) =>
          let bs := all.flatMap fun t => wordBytes t.val
          if all.any (·.poison) then s.status d 8 14
          else
            let off := (wordIn bs 240).toNat
            let size := (wordIn bs 248).toNat
            match s.writePieces s.me.ctx (pieces (size / 4096 + 2) (va.toNat + off) size) with
            | .error _ => s.loadImage d n bs none
            | .ok (ps, s) => s.loadImage d n bs (some ps)

end State

/-- CTX.SAVE (R383). -/
def execCtxSave (_st : Stall) (d a b : Reg) (s : State) : Out :=
  .next (s.useRegs [a, b]
    (match s.childRef (s.reg a).val with
     | none => s.withRelease .dev fun s => s.status d 8 1
     | some n => s.withBlock (s.reg b).val 16 2 fun l s => s.treeTurn fun s => s.saveChild d n (s.reg b).val l))

/-- CTX.LOAD (R383). -/
def execCtxLoad (_st : Stall) (d a b : Reg) (s : State) : Out :=
  let va := (s.reg b).val
  .next (s.useRegs [a, b]
    (match s.childRef (s.reg a).val with
     | none => s.withRelease .dev fun s => s.status d 8 1
     | some n =>
       if va.toNat % 4096 ≠ 0 then s.raise (State.alignTrap va 4096 0)
       else s.withRelease .dev fun s => s.treeTurn fun s => s.loadChild d n va))

end Sys2Proof.Machine
end

