-- ==== Sys2Proof/Machine/VecOps.lean ====
section
/-!
DEFINITION. The vector operations on 512-bit values (R300 to R323, R327): what each computes from its sources, mask and
VL, with its flags and the poison of each result word.
-/

namespace Sys2Proof.Machine

/-! ### Lanes -/

/-- A lane operation over the active lanes of width `w` (R302): lane values and flags. -/
def laneMap (x : VIn) (w : Nat) (p : List Bool) (f : Nat → Nat × Flags) : VOut :=
  let n := 512 / w
  let act (i : Nat) : Bool := laneActive x.mask x.vl w i
  let rs := (List.range n).map fun i => if act i then f i else (0, Flags.none)
  { value := ofLanes w (rs.map (·.1)), bits := laneBits w n act, poison := p, flags := flagsOf (rs.map (·.2)) }

/-- A result that writes the whole register (R302). -/
def wholeOut (v : Nat) (p : List Bool) (fl : Flags) : VOut := ⟨v, 2 ^ 512 - 1, p, fl⟩

/-- The active lanes in ascending order. -/
def activeLanes (x : VIn) (w : Nat) : List Nat := (List.range (512 / w)).filter fun i => laneActive x.mask x.vl w i

/-- An arithmetic operation by element type: on float codes, on signed numbers, or on unsigned numbers modulo 2^w. -/
def byType (vt w : Nat) (ff : Fmt → Nat × Flags) (fi : Int) (fu : Nat) : Nat × Flags :=
  match VTy.ofCode vt with
  | .flt f => ff f
  | .sint => (laneOfInt w fi, Flags.none)
  | .uint => (fu % 2 ^ w, Flags.none)

/-- A lane of a source. -/
def VIn.la (x : VIn) (w i : Nat) : Nat := laneOf x.a w i
/-- A lane of the second source. -/
def VIn.lb (x : VIn) (w i : Nat) : Nat := laneOf x.b w i
/-- A lane of the old destination. -/
def VIn.ld (x : VIn) (w i : Nat) : Nat := laneOf x.d w i

/-! ### Element-wise arithmetic and logic (R307 to R309) -/

/-- The minimum of two lanes. -/
def laneMin (vt w a b : Nat) : Nat :=
  match VTy.ofCode vt with
  | .flt f => fMin f a b
  | .sint => if signedLane w a ≤ signedLane w b then a else b
  | .uint => if a ≤ b then a else b

/-- The maximum of two lanes. -/
def laneMax (vt w a b : Nat) : Nat :=
  match VTy.ofCode vt with
  | .flt f => fMax f a b
  | .sint => if signedLane w b ≤ signedLane w a then a else b
  | .uint => if b ≤ a then a else b

/-- The sum of two lanes. -/
def laneAdd (vt w a b : Nat) : Nat × Flags :=
  match VTy.ofCode vt with
  | .flt f => codes2 f fAdd a b
  | _ => ((a + b) % 2 ^ w, Flags.none)

/-- The difference of two lanes. -/
def laneSub (vt w a b : Nat) : Nat × Flags :=
  match VTy.ofCode vt with
  | .flt f => codes2 f fSub a b
  | _ => ((a + 2 ^ w - b) % 2 ^ w, Flags.none)

/-- The product of two lanes. -/
def laneMul (vt w a b : Nat) : Nat × Flags :=
  match VTy.ofCode vt with
  | .flt f => codes2 f fMul a b
  | _ => (a * b % 2 ^ w, Flags.none)

/-- a × b + c of lanes. -/
def laneFma (vt w a b c : Nat) : Nat × Flags :=
  match VTy.ofCode vt with
  | .flt f => codesFma f a b c
  | _ => ((a * b + c) % 2 ^ w, Flags.none)

/-- |x| of a lane; the canonical NaN for a NaN (R308). -/
def laneAbs (vt w a : Nat) : Nat :=
  match VTy.ofCode vt with
  | .flt f => if (f.decode a).isNan then f.nanCode else a % 2 ^ (w - 1)
  | _ => laneOfInt w (signedLane w a).natAbs

/-- −x of a lane (R308). -/
def laneNeg (vt w a : Nat) : Nat :=
  match VTy.ofCode vt with
  | .flt f => if (f.decode a).isNan then f.nanCode else (a + 2 ^ (w - 1)) % 2 ^ w
  | _ => laneOfInt w (-(signedLane w a))

/-! ### Compares (R310) -/

/-- A relation on lanes, with flags. -/
def laneRel (op : VecOp) (vt w a b : Nat) : Bool × Flags :=
  match VTy.ofCode vt, op with
  | .flt f, .vcmpeq => codesEq f a b
  | .flt f, .vcmplt => codesLt f a b
  | .flt f, _ => codesLe f a b
  | .sint, .vcmpeq => (a == b, Flags.none)
  | .sint, .vcmplt => (decide (signedLane w a < signedLane w b), Flags.none)
  | .sint, _ => (decide (signedLane w a ≤ signedLane w b), Flags.none)
  | .uint, .vcmpeq => (a == b, Flags.none)
  | .uint, .vcmplt => (decide (a < b), Flags.none)
  | .uint, _ => (decide (a ≤ b), Flags.none)

/-- A compare: the mask bits, with the poison of the source words that hold an active lane. -/
def vecCompare (op : VecOp) (vt w : Nat) (x : VIn) : VOut :=
  let act := activeLanes x w
  let rs := act.map fun i => (i, laneRel op vt w (x.la w i) (x.lb w i))
  { value := rs.foldl (fun m (i, r) => if r.1 then m + 2 ^ i else m) 0
    bits := 2 ^ 32 - 1
    poison := (List.range 8).map fun j =>
      (x.pa.getD j false || x.pb.getD j false) && act.any fun i => i * w / 64 == j
    flags := flagsOf (rs.map fun r => r.2.2) }

/-! ### Permutes, reductions, scans (R311 to R317) -/

/-- VSEL writes every lane below VL; the mask selects (R311). -/
def vecSelect (w : Nat) (x : VIn) : VOut :=
  let n := 512 / w
  { value := ofLanes w ((List.range n).map fun i =>
      if x.mask.getLsbD (if w = 8 then i / 2 else i) then x.la w i else x.lb w i)
    bits := laneBits w n fun i => decide (i < x.vl), poison := wisePoison x.pa x.pb, flags := Flags.none }

/-- VREDADD: one exact sum rounded once, or a sum modulo 2^32 (R314). -/
def vecSum (vt w : Nat) (x : VIn) : VOut :=
  let act := activeLanes x w
  match VTy.ofCode vt with
  | .flt f =>
    let r := FV.rnv Fmt.f32 (FV.sum (act.map fun i => f.decode (x.la w i)))
    wholeOut r.1 (crossPoison x.pa) r.2
  | .sint => wholeOut (laneOfInt 32 (act.foldl (fun a i => a + signedLane w (x.la w i)) (0 : Int))) (crossPoison x.pa) Flags.none
  | .uint => wholeOut (act.foldl (fun a i => a + x.la w i) 0 % 2 ^ 32) (crossPoison x.pa) Flags.none

/-- The identity of a maximum (R314, R315). -/
def maxIdentity (vt w : Nat) : Nat :=
  match VTy.ofCode vt with
  | .flt f => f.signed true (f.infCode.getD 0)
  | .sint => 2 ^ (w - 1)
  | .uint => 0

/-- The identity of a minimum. -/
def minIdentity (vt w : Nat) : Nat :=
  match VTy.ofCode vt with
  | .flt f => f.infCode.getD 0
  | .sint => 2 ^ (w - 1) - 1
  | .uint => 2 ^ w - 1

/-- The identity of an addition: −0 on floating lanes (R315). -/
def addIdentity (vt : Nat) : Nat :=
  match VTy.ofCode vt with
  | .flt f => f.signed true 0
  | _ => 0

/-- VREDMAX or VREDMIN (R314). -/
def vecExtreme (w : Nat) (x : VIn) (f : Nat → Nat → Nat) (e : Nat) : VOut :=
  wholeOut ((activeLanes x w).foldl (fun a i => f a (x.la w i)) e) (crossPoison x.pa) Flags.none

/-- The segment length of a scan (R315). -/
def scanSeg (w : Nat) (q : Word) : Nat := max 1 (512 / w / 2 ^ fieldOf q 4 3)

/-- One segment's lanes scanned by a combine (R316). -/
def scanLanes (act : Nat → Bool) (f : Nat → Nat → Nat × Flags) : List (Nat × Nat) → Nat → List (Nat × Flags)
  | [], _ => []
  | (i, v) :: t, run =>
    if act i then
      let r := f run v
      r :: scanLanes act f t r.1
    else (0, Flags.none) :: scanLanes act f t run

/-- A scan by ADD, MAX or MIN. -/
def vecScan (w : Nat) (x : VIn) (f : Nat → Nat → Nat × Flags) (e : Nat) : VOut :=
  let n := 512 / w
  let g := scanSeg w x.q
  let act (i : Nat) : Bool := laneActive x.mask x.vl w i
  let rs := (List.range (n / g)).flatMap fun s =>
    scanLanes act f ((List.range g).map fun k => (s * g + k, x.la w (s * g + k))) e
  { value := ofLanes w (rs.map (·.1)), bits := laneBits w n act, poison := crossPoison x.pa
    flags := flagsOf (rs.map (·.2)) }

/-- The combine of AFFINE with its flags (R133): the left pair, then the right. -/
def affineCombine (l r : Nat × Nat) : (Nat × Nat) × Flags :=
  if r.1 % 2 ^ 31 = 0 then (r, Flags.none)
  else
    let a := codes2 Fmt.f32 fMul r.1 l.1
    let b := codesFma Fmt.f32 r.1 l.2 r.2
    ((a.1, b.1), a.2.or b.2)

/-- ScanAffine over the lanes of one segment (R317); a NaN that it writes is canonical (R92). -/
def affineLanes (act : Nat → Bool) (h : Nat) : List (Nat × Nat × Nat) → Nat × Nat → List (Nat × Flags)
  | [], _ => []
  | (i, a, b) :: t, run =>
    if act i then
      let (c, fl) := affineCombine run (a, b)
      let r := if c.1 % 2 ^ 31 = 0 then (Fmt.f32.canon c.2, Flags.none) else codesFma Fmt.f32 c.1 h c.2
      (r.1, fl.or r.2) :: affineLanes act h t c
    else (0, Flags.none) :: affineLanes act h t run

/-- A scan of kind AFFINE; a type other than F32 leaves vd unchanged and sets FNV (R317). -/
def vecAffine (vt w : Nat) (x : VIn) : VOut :=
  if vt ≠ 0 then ⟨0, 0, noPoison, Flags.invalid⟩
  else
    let g := scanSeg w x.q
    let act (i : Nat) : Bool := laneActive x.mask x.vl w i
    let rs := (List.range (16 / g)).flatMap fun s =>
      affineLanes act (laneOf x.c 32 (s * g + g - 1))
        ((List.range g).map fun k => (s * g + k, x.la 32 (s * g + k), x.lb 32 (s * g + k))) (0x3F800000, 0)
    { value := ofLanes 32 (rs.map (·.1)), bits := laneBits 32 16 act, poison := crossPoison (x.pa ++ x.pb ++ x.pc)
      flags := flagsOf (rs.map (·.2)) }

/-- VSCAN by its control word (R315). -/
def vecScanBy (vt w : Nat) (x : VIn) : VOut :=
  match fieldOf x.q 0 2 with
  | 0 => vecScan w x (laneAdd vt w) (addIdentity vt)
  | 1 => vecScan w x (fun a b => (laneMax vt w a b, Flags.none)) (maxIdentity vt w)
  | 2 => vecScan w x (fun a b => (laneMin vt w a b, Flags.none)) (minIdentity vt w)
  | _ => vecAffine vt w x

/-- VCMPR: the active lanes packed into the low lanes, the rest zero (R313). -/
def vecPack (w : Nat) (x : VIn) : VOut :=
  wholeOut (ofLanes w ((activeLanes x w).map (x.la w))) (crossPoison x.pa) Flags.none

/-! ### Keys, histograms, thresholded sums (R318 to R320) -/

/-- Key of a float code (R318). -/
def floatKey (f : Fmt) (w c : Nat) : Nat :=
  if (f.decode c).isNan then 0
  else
    let c := if c = 2 ^ (w - 1) then 0 else c
    if c < 2 ^ (w - 1) then c + 2 ^ (w - 1) else 2 ^ w - 1 - c

/-- VHIST (R319). -/
def vecHist (w : Nat) (x : VIn) : VOut :=
  let n := fieldOf x.q 0 4 % (w / 4)
  let pfx := fieldOf x.q 32 32 % 2 ^ w
  let hit (b i : Nat) : Bool :=
    let k := x.la w i
    k / 2 ^ (4 * n) % 16 == b && k / 2 ^ (4 * (n + 1)) == pfx / 2 ^ (4 * (n + 1))
  wholeOut (ofLanes 32 ((List.range 16).map fun b => ((activeLanes x w).filter (hit b)).length))
    (crossPoison x.pa) Flags.none

/-- VSUMGT (R320). -/
def vecSumGt (f : Fmt) (w : Nat) (x : VIn) : VOut :=
  let t := f32 (fieldOf x.q 0 32)
  let sel := ((activeLanes x w).map fun i => f.decode (x.la w i)).filter fun v => t.lt v
  let r := FV.rnv Fmt.f32 (FV.sum sel)
  wholeOut (r.1 + 2 ^ 32 * sel.length) (crossPoison x.pa) r.2

/-! ### Conversions (R321, R322) -/

/-- The width of the narrow side of a conversion. -/
def narrowWidth (op : VecOp) : Nat :=
  match op with
  | .cvtB16F32 | .cvtF16F32 | .cvtF32B16 | .cvtF32F16 => 16
  | .cvtF4F32 | .cvtF32F4 => 4
  | .cvtF32S32 | .cvtS32F32 => 32
  | _ => 8

/-- Does a conversion narrow: from F32 lanes to elements of the narrow side? -/
def isNarrowing (op : VecOp) : Bool :=
  match op with
  | .cvtB16F32 | .cvtF16F32 | .cvtE4F32 | .cvtE5F32 | .cvtM8F32 | .cvtF4F32 | .cvtS32F32 => true
  | _ => false

/-- Convert one element (R96, R97): `e` is its group's scale byte. The product of an F4 element and a scale of 0xFD or 0xFE may
lie beyond F32, for which the table gives no cell: it is rounded as any other value, to an infinity with FOF and FNX, a choice of
the model (log entry 36). -/
def convElem (op : VecOp) (rm : Rm) (sat : Bool) (e c : Nat) : Nat × Flags :=
  match op with
  | .cvtB16F32 => convFmt Fmt.b16 rm sat (f32 c)
  | .cvtF16F32 => convFmt Fmt.f16 rm sat (f32 c)
  | .cvtE4F32 => convFmt Fmt.e4 rm sat (f32 c)
  | .cvtE5F32 => convFmt Fmt.e5 rm sat (f32 c)
  | .cvtM8F32 => convM8 rm (f32 c)
  | .cvtF4F32 => if e = 255 then (0, Flags.invalid) else convFmt Fmt.f4 rm sat ((f32 c).scale (127 - e))
  | .cvtS32F32 => let r := convInt 32 rm (f32 c)
                  (laneOfInt 32 r.1, r.2)
  | .cvtF32B16 => (Fmt.b16.decode c).rn Fmt.f32
  | .cvtF32F16 => (Fmt.f16.decode c).rn Fmt.f32
  | .cvtF32E4 => (Fmt.e4.decode c).rn Fmt.f32
  | .cvtF32E5 => (Fmt.e5.decode c).rn Fmt.f32
  | .cvtF32M8 => (decodeM8 c).rn Fmt.f32
  | .cvtF32F4 => if e = 255 then (Fmt.f32.nanCode, Flags.none) else ((Fmt.f4.decode c).scale ((e : Int) - 127)).rn Fmt.f32
  | _ => let i := signedLane 32 c
         roundFmt Fmt.f32 rm false (decide (i < 0)) i.natAbs 0 false

/-- A vector conversion of part `part` (R321). -/
def vecConvert (op : VecOp) (part : Nat) (rm : Rm) (sat : Bool) (x : VIn) : VOut :=
  let nw := narrowWidth op
  let nar := isNarrowing op
  let sw := if nar then 32 else nw
  let dw := if nar then nw else 32
  let srcAt (i : Nat) : Nat := if nar then i else 16 * part + i
  let dstAt (i : Nat) : Nat := if nar then 16 * part + i else i
  let act := (List.range 16).filter fun i => x.mask.getLsbD i && decide (16 * part + i < x.vl)
  let rs := act.map fun i =>
    (i, convElem op rm sat (laneOf x.q.toNat 8 ((16 * part + i) / 32)) (laneOf x.a sw (srcAt i)))
  { value := rs.foldl (fun v (i, r) => v + r.1 % 2 ^ dw * 2 ^ (dw * dstAt i)) 0
    bits := act.foldl (fun v i => v + (2 ^ dw - 1) * 2 ^ (dw * dstAt i)) 0
    poison := (List.range 8).map fun j =>
      act.any fun i => dstAt i * dw / 64 == j && x.pa.getD (srcAt i * sw / 64) false
    flags := flagsOf (rs.map fun r => r.2.2) }

/-! ### Interpolation (R327) -/

/-- A finite value's numerator over 2^e₀. -/
def numAt (e₀ : Int) (v : FV) : Int := v.at e₀

/-- Is a value finite? -/
def FV.isFin : FV → Bool
  | .fin .. => true
  | _ => false

/-- Round an exact quotient num / den × 2^e to a format, to nearest even. -/
def roundQuot (f : Fmt) (num : Int) (den : Nat) (e : Int) : Nat × Flags :=
  let sh := 80 + bitLen den
  let n := num.natAbs * 2 ^ sh
  roundFmt f .rne false (decide (num < 0)) (n / den) (e - sh) (n % den != 0)

/-- One lane of VTLI over a table of lo, hi and 65 knots; none is an INVALID table. -/
def vtliElem (f : Fmt) (table : Option (List (BitVec 32))) (x : FV) : Nat × Flags :=
  match table with
  | none => (f.nanCode, Flags.invalid)
  | some t =>
    let at_ (k : Nat) : FV := f32 (t.getD k 0).toNat
    let lo := at_ 0
    let hi := at_ 1
    let v (j : Nat) : FV := at_ (j + 2)
    if x.isNan then (f.nanCode, Flags.none)
    else if x.le lo then (v 0).rn f
    else if hi.le x then (v 64).rn f
    else
      let e := minExp [lo, hi, x]
      let d := (numAt e hi - numAt e lo).toNat
      let u := (64 * (numAt e x - numAt e lo)).toNat
      let j := min (u / d) 63
      let r := u - j * d
      if r = 0 then (v j).rn f
      else if !(v j).isFin || !(v (j + 1)).isFin then
        (f.nanCode, if (v j).isNan || (v (j + 1)).isNan then Flags.none else Flags.invalid)
      else
        let g := minExp [v j, v (j + 1)]
        roundQuot f (numAt g (v j) * d + r * (numAt g (v (j + 1)) - numAt g (v j))) d g

end Sys2Proof.Machine
end

