-- ==== Sys2Proof/Machine/Facets.lean ====
section
/-!
DEFINITION. Strand nodes and facets as values (R122 to R137): headers, descriptors, the leaf and the combine of each facet
kind.
-/

namespace Sys2Proof.Machine

/-! ### Headers (R122) -/

/-- CHK of a header: 0x5A XOR its bytes 7 to 2 (R122). -/
def hdrChk (w : Word) : Nat := (List.range 6).foldl (fun c i => c ^^^ fieldOf w (16 + 8 * i) 8) 0x5A

/-- A header with its CHK set (R122). -/
def hdrSeal (w : Word) : Word := setField w 8 8 (hdrChk w)

/-- A header from its fields (R122). -/
def mkHdr (kind height ref fmask arena : Nat) : Word :=
  hdrSeal (wordOf (kind * 2 ^ 60 + height * 2 ^ 54 + ref * 2 ^ 32 + fmask * 2 ^ 28 + arena * 2 ^ 16))

/-- REFCNT of a header; USE for a page. -/
def hdrRef (w : Word) : Nat := fieldOf w 32 22

/-- A header with its count changed by 1 up or down; a count of 0x3F_FFFF stays (R143). -/
def hdrCount (w : Word) (up : Bool) (n : Nat) : Word :=
  let r := hdrRef w
  if r = 0x3FFFFF then w else hdrSeal (setField w 32 22 (if up then min (r + n) 0x3FFFFF else r - n))

/-! ### Descriptors (R131, R132) -/

/-- A facet descriptor (R132). -/
structure Facet where
  kind : Nat
  shc : Nat
  et : Nat
  srct : Nat
  lanes : Nat
  off : Nat
  deriving DecidableEq, Repr

namespace Facet

/-- Components per lane. -/
def comps (f : Facet) : Nat := if f.kind ≥ 5 then 2 else 1

/-- Is the facet cached in clasps (R136)? -/
def cached (f : Facet) : Bool := f.shc != 2

/-- Source components per lane: AFFINE and ROTSUM read two. -/
def reads (f : Facet) : Nat := if f.kind ≥ 6 then 2 else 1

/-- The width in bytes of a source element. -/
def srcWidth (f : Facet) : Nat := if f.srct = 1 || f.srct = 4 then 4 else 2

/-- The combinations of R132, and the source elements within the record. -/
def ok (f : Facet) (rsz : Nat) : Bool :=
  let float := decide (f.srct ≥ 2)
  f.srct ≤ 4 &&
    (match f.kind with
     | 1 | 2 | 3 => f.et == float.toNat
     | 4 => f.et == 0
     | 5 | 6 | 7 => f.et == 1 && float
     | _ => false) &&
    (if f.kind = 7 then f.shc == 1 || f.shc == 2 else f.shc == 0 || f.shc == 2) &&
    f.off % f.srcWidth == 0 && decide (f.off + f.reads * f.lanes * f.srcWidth ≤ rsz)

/-- A facet descriptor word: none when it is invalid, `some none` when the facet is unused (R132). -/
def parse (w : Word) (rsz : Nat) : Option (Option Facet) :=
  let f : Facet := ⟨fieldOf w 60 4, fieldOf w 58 2, fieldOf w 57 1, fieldOf w 54 3, fieldOf w 49 5 + 1, fieldOf w 39 10⟩
  if f.kind = 0 then (if w = 0 then some none else none)
  else if fieldOf w 0 39 = 0 ∧ f.ok rsz then some (some f) else none

end Facet

/-- A strand descriptor (R131). -/
structure SDesc where
  addr : Nat
  facets : List (Option Facet)
  atab : Nat
  win : Bool
  ring : Nat
  sink : Nat
  rsz : Nat
  deriving DecidableEq, Repr

namespace SDesc

/-- Words 1 to 7 of a descriptor, or none where a field breaks R131 or R132. -/
def parse (addr : Nat) (ws : List Word) : Option SDesc :=
  let w (i : Nat) : Word := ws.getD i 0
  let rsz := fieldOf (w 7) 0 11
  let fs := (List.range 4).map fun i => Facet.parse (w (i + 1)) rsz
  if fs.any (·.isNone) then none
  else
    let d : SDesc := ⟨addr, fs.map (·.getD none), (w 5).toNat, (w 6).getLsbD 63, fieldOf (w 6) 24 24,
      fieldOf (w 6) 0 24, rsz⟩
    let rot := d.facets.any fun f => f.any (·.kind = 7)
    if fieldOf (w 7) 11 53 = 0 ∧ rsz % 2 = 0 ∧ 2 ≤ rsz ∧ rsz ≤ 1024 ∧ d.atab % 64 = 0 ∧ (rot ∨ d.atab = 0) ∧
        fieldOf (w 6) 48 15 = 0 ∧
        (if d.win then d.ring ≠ 0 ∧ d.sink + d.ring ≤ 0xFFFFFF ∧ rsz ≥ 6 else d.ring = 0 ∧ d.sink = 0) then some d
    else none

/-- FMASK of the clasps of a strand (R122, R136). -/
def mask (d : SDesc) : Nat :=
  (d.facets.zip (List.range 4)).foldl (fun m (f, i) => if f.any Facet.cached then m + 2 ^ i else m) 0

/-- The bytes that the cached facets before facet `i` take in a facet block (R137). -/
def blockOff (d : SDesc) (i : Nat) : Nat :=
  (d.facets.take i).foldl (fun n f => match f with
    | some f => if f.cached then n + 4 * f.lanes * f.comps else n
    | none => n) 0

/-- The 64-byte units of a facet block. -/
def blockUnits (d : SDesc) : Nat := (d.blockOff 4 + 63) / 64

/-- The angle table of facet `i`: each earlier ROTSUM facet takes 32 entries of LANES cosines and sines (R134). -/
def angleOff (d : SDesc) (i : Nat) : Nat :=
  (d.facets.take i).foldl (fun n f => match f with
    | some f => if f.kind = 7 then n + 256 * f.lanes else n
    | none => n) 0

end SDesc

/-! ### Lanes of a summary (R133) -/

/-- A lane of a summary: its components as 32-bit codes, with their poison. -/
structure FLane where
  x : Nat
  y : Nat
  px : Bool
  py : Bool
  deriving DecidableEq, Repr

/-- F32 sum of codes. -/
def add32 (a b : Nat) : Nat := (fAdd Fmt.f32 (f32 a) (f32 b)).1

/-- F32 difference of codes. -/
def sub32 (a b : Nat) : Nat := (fSub Fmt.f32 (f32 a) (f32 b)).1

/-- F32 product of codes. -/
def mul32 (a b : Nat) : Nat := (fMul Fmt.f32 (f32 a) (f32 b)).1

/-- F32 fused multiply-add of codes. -/
def fma32 (a b c : Nat) : Nat := (fFma Fmt.f32 (f32 a) (f32 b) (f32 c)).1

/-- A 32-bit code with its sign bit inverted. -/
def neg32 (a : Nat) : Nat := a ^^^ 2 ^ 31

/-- A source element widened to its facet's element type (R132). -/
def Facet.widen (f : Facet) (code : Nat) : Nat :=
  match f.srct with
  | 0 => laneOfInt 32 (signedLane 16 code)
  | 2 => ((Fmt.f16.decode code).rn Fmt.f32).1
  | 3 => ((Fmt.b16.decode code).rn Fmt.f32).1
  | _ => code

/-- The leaf of a lane from its source elements (R133). -/
def Facet.leaf (f : Facet) (e u : Nat) (pe pu : Bool) : FLane :=
  match f.kind with
  | 4 => ⟨if f.srct ≥ 2 then (if e % 2 ^ 31 = 0 then 0 else 1) else if e = 0 then 0 else 1, 0, pe, false⟩
  | 5 => ⟨e, 0x3F800000, pe, pe⟩
  | 6 | 7 => ⟨e, u, pe, pu⟩
  | _ => ⟨e, 0, pe, false⟩

/-- One step of Shift: the rotation by the angle of one bit (R134). -/
def rotStep (v : FLane) (c s : Nat) (p : Bool) : FLane :=
  let q := v.px || v.py || p
  ⟨fma32 v.x c (mul32 (neg32 v.y) s), fma32 v.y c (mul32 v.x s), q, q⟩

/-- The combine of a lane; for ROTSUM the right lane has been shifted by the left's length (R133). -/
def Facet.combine (f : Facet) (l r : FLane) : FLane :=
  let int := f.et == 0
  match f.kind with
  | 1 | 4 => ⟨if int then (l.x + r.x) % 2 ^ 32 else add32 l.x r.x, 0, l.px || r.px, false⟩
  | 2 => ⟨if int then (if signedLane 32 l.x < signedLane 32 r.x then r.x else l.x) else fMax Fmt.f32 l.x r.x, 0,
      l.px || r.px, false⟩
  | 3 => ⟨if int then (if signedLane 32 r.x < signedLane 32 l.x then r.x else l.x) else fMin Fmt.f32 l.x r.x, 0,
      l.px || r.px, false⟩
  | 5 =>
    let m := fMax Fmt.f32 l.x r.x
    let p := l.px || r.px
    let s := if m = 0xFF800000 then add32 l.y r.y
      else fma32 r.y (vexp32 (sub32 r.x m)).1 (mul32 l.y (vexp32 (sub32 l.x m)).1)
    ⟨m, s, p, p || l.py || r.py⟩
  | 6 =>
    if r.x % 2 ^ 31 = 0 then ⟨r.x, r.y, r.px, r.px || r.py⟩
    else ⟨mul32 r.x l.x, fma32 r.x l.y r.y, l.px || r.px, r.px || l.py || r.py⟩
  | _ => ⟨add32 l.x r.x, add32 l.y r.y, l.px || r.px, l.py || r.py⟩

end Sys2Proof.Machine
end

