-- ==== Sys2Proof/Machine/Strand.lean ====
section
/-!
DEFINITION. The strand unit (R122 to R156, R357 to R360, R440, R441) and the bead-page allocator (R79 to R84): node checks,
the edit procedures, summaries, commits, references and freeing.

An operation is carried out in the step that issues it. Its reads may fail; a failure leaves the arena as it was.
-/

namespace Sys2Proof.Machine

/-- How a strand operation fails. -/
inductive SFail where
  /-- A status of R156 or R360. -/
  | status (n : Nat)
  /-- Header damage (R154). -/
  | damage
  /-- A fault at the instruction (R357). -/
  | trap (t : Trap)
  /-- A word to be written is reserved by another slot (R186). -/
  | wait

/-- What a strand operation works on: the machine, the context it acts for, the slot that issued it, the bead nodes whose
payload it found poisoned (R153), and the roots it has pinned (R145). -/
structure SWork where
  s : State
  k : Nat
  core : Site
  slot : Nat
  hurt : List Nat
  pins : List Nat

/-- A computation of the strand unit. -/
abbrev SM := ExceptT SFail (StateM SWork)

/-- FREED (R156). -/
def stFreed : Nat := 4
/-- FOREIGN (R156). -/
def stForeign : Nat := 5
/-- MISMATCH (R156). -/
def stMismatch : Nat := 6
/-- RANGE (R156). -/
def stRange : Nat := 7
/-- ARENAFULL (R156). -/
def stArenaFull : Nat := 8
/-- BADSTRAND (R156). -/
def stBadStrand : Nat := 9
/-- BADWIN (R156). -/
def stBadWin : Nat := 10
/-- BADSPD (R360). -/
def stBadSpd : Nat := 11

namespace SM

/-- End with a status. -/
def status {α : Type} (n : Nat) : SM α := throw (.status n)

/-! ### Memory -/

/-- The context. -/
def ctx : SM Ctx := do
  let w ← get
  return w.s.ctx w.k

/-- The first byte of a context's arena. -/
def arenaBase (k : Ctx) : Nat := 2 ^ 16 * fieldOf k.arena0 16 32

/-- The 64-byte units of an arena. -/
def arenaUnits (k : Ctx) : Nat := fieldOf k.arena1 0 20 * 1024

/-- Is an address one of the arena's pages? -/
def onArena (k : Ctx) (a : Nat) : Bool := decide (arenaBase k ≤ a) && decide (a < arenaBase k + 64 * arenaUnits k)

/-- The translation of an address for an access (R28, R357): the physical address, VIEWED and the state after the walk. An arena
page must permit both reads and writes (R127). -/
def access (a : Word) (k : Kind) : SM (Nat × Bool × State) := do
  let w ← get
  if State.isMesh a then throw (.trap (ownTrap 4 0xB a 0 k.acc))
  match w.s.translateDirect w.k a k with
  | .error t => throw (.trap t)
  | .ok r =>
    if onArena (w.s.ctx w.k) a.toNat then
      match w.s.translateDirect w.k a (if k == .read then .write else .read) with
      | .error t => throw (.trap t)
      | .ok _ => return r
    return r

/-- Check that a word can be written, without writing it. -/
def check (a : Word) : SM PUnit := do
  let _ ← access a .write

/-- Read a word at a virtual address of the context. -/
def rd (a : Word) : SM Tagged := do
  let (p, _, s) ← access a .read
  let s := s.touchWords p 8
  modify fun w => { w with s := s }
  return s.bankWord p

/-- Write a word; a write to a viewed master is a master write (R108). A word that another slot has reserved is not written before its
release (R186). -/
def wr (a : Word) (t : Tagged) : SM PUnit := do
  let (p, viewed, s) ← access a .write
  let w ← get
  if (s.reservedBy (p / 8)).any fun v => !(v.core == w.core && v.slot == w.slot) then throw .wait
  let s := s.bankSetWord p t
  set { w with s := if viewed then s.masterWrite w.k (s.ctx w.k).gen a.toNat else s }

/-- A number of `n` bytes at any address, with its poison. -/
def rdNum (a : Word) (n : Nat) : SM (Nat × Bool) := do
  let o := a.toNat % 8
  let base := a - wordOf o
  let t ← rd base
  if o + n ≤ 8 then return (laneOf (t.val.toNat / 2 ^ (8 * o)) (8 * n) 0, t.poison)
  let u ← rd (base + 8)
  return (laneOf ((t.val.toNat + u.val.toNat * 2 ^ 64) / 2 ^ (8 * o)) (8 * n) 0, t.poison || u.poison)

/-! ### The arena (R127, R128) -/

/-- Is a node address aligned and inside the arena (R125, R357)? -/
def inArena (k : Ctx) (a : Nat) : Bool :=
  a % 64 == 0 && decide (arenaBase k ≤ a) && decide (a + 64 ≤ arenaBase k + 64 * arenaUnits k)

/-- The gaps between used extents: first unit and units, for extents in order. Unit 0 is not given out where its address
would be 0, which names the empty strand. -/
def gaps (from_ top : Nat) : List (Nat × Nat) → List (Nat × Nat)
  | [] => [(from_, top - from_)]
  | (u, n) :: t => (from_, u - from_) :: gaps (u + n) top t

/-- The unit at which the `i`-th possible placement of `n` units starts. -/
def placeAt (n : Nat) : Nat → List (Nat × Nat) → Option Nat
  | _, [] => none
  | i, (u, len) :: t =>
    let here := len + 1 - n
    if i < here then some (u + i) else placeAt n (i - here) t

/-- Take `n` units of the arena: at the lowest place, or at one that is free (R128). -/
def alloc (low : Bool) (n : Nat) : SM Nat := do
  let w ← get
  let k := w.s.ctx w.k
  let gs := gaps (if arenaBase k = 0 then 1 else 0) (arenaUnits k) k.arenaUsed
  let total := gs.foldl (fun m g => m + (g.2 + 1 - n)) 0
  let (v, s) := if low then (0, w.s) else w.s.drawNat Config.freeNat
  match placeAt n (v % max 1 total) gs with
  | none => status stArenaFull
  | some u =>
    set { w with s := s.modCtx w.k fun k => { k with arenaUsed := aset k.arenaUsed u n } }
    return arenaBase k + 64 * u

/-- Take storage for facet blocks of `units` units and for nodes. Their placement is free; when free places leave no room for
all of them, the lowest places are taken, the blocks first, which fit whenever any placement does (R128). -/
def allocAll (units blocks nodes : Nat) : SM (List Nat × List Nat) := do
  let w ← get
  try
    let bs ← (List.replicate blocks units).mapM (alloc false)
    let ns ← (List.replicate nodes 1).mapM (alloc false)
    return (bs, ns)
  catch _ =>
    modify fun x => { x with s := x.s.modCtx x.k fun k => { k with arenaUsed := (w.s.ctx w.k).arenaUsed } }
    let bs ← (List.replicate blocks units).mapM (alloc true)
    let ns ← (List.replicate nodes 1).mapM (alloc true)
    return (bs, ns)

/-! ### Nodes (R122 to R125) -/

/-- Fail the node check: BADSTRAND for a node named directly, else header damage (R125). -/
def bad {α : Type} (direct : Bool) : SM α := if direct then status stBadStrand else throw .damage

/-- Do HEIGHT and FMASK suit a kind (R122)? The children of a clasp and its descriptor say more (R125). -/
def hdrShape (h : Word) : Bool :=
  if fieldOf h 60 4 = 1 then fieldOf h 54 6 != 0 else fieldOf h 54 6 == 0 && fieldOf h 28 4 == 0

/-- Read and check the first `n` words of a node, whatever its count (R125). A page header that is FREE or of an earlier arena answers
FREED or FOREIGN here too, where R130 has BADSTRAND: a choice of the model (log entry 39). -/
def headerAny (a n : Nat) (kinds : List Nat) (direct : Bool) : SM (List Tagged) := do
  let ws ← (List.range n).mapM fun j => rd (wordOf (a + 8 * j))
  let h := (ws.getD 0 ⟨0, false⟩).val
  let kind := fieldOf h 60 4
  let hp := (ws.getD 0 ⟨0, false⟩).poison
  if (ws.zip (List.range n)).any fun (t, j) => t.poison && !(j == 1 && kind == 2 && !hp) then throw .damage
  if fieldOf h 8 8 ≠ hdrChk h then bad direct
  if kind = 0 then status stFreed
  if kind > 4 then bad direct
  let arena := fieldOf h 16 12
  if kind = 4 then
    if arena ≠ 0 then bad direct
  else
    let k ← ctx
    if arena ≠ fieldOf k.arena1 52 12 then
      if arena = 0 then bad direct else status stForeign
  if !kinds.contains kind || fieldOf h 0 8 ≠ 0 then bad direct
  if kind = 4 || hdrRef h ≠ 0 then
    if !hdrShape h then bad direct
  return ws

/-- Read and check the first `n` words of a node that is in use: its count is not 0 (R125, R144). -/
def header (a n : Nat) (kinds : List Nat) (direct : Bool) : SM (List Tagged) := do
  let ws ← headerAny a n kinds direct
  let h := (ws.getD 0 ⟨0, false⟩).val
  if fieldOf h 60 4 ≠ 4 && hdrRef h = 0 then status stFreed
  return ws

/-- Change a count by one (R143), after the checks of its node (R125): its new value. -/
def adjust (a : Nat) (kinds : List Nat) (up : Bool) : SM Nat := do
  let ws ← header a 1 kinds false
  let h := hdrCount (ws.getD 0 ⟨0, false⟩).val up 1
  wr (wordOf a) ⟨h, false⟩
  return hdrRef h

/-- Lower a node's count; at 0 it is queued for freeing (R146). -/
def release (a : Nat) : SM PUnit := do
  let n ← adjust a [1, 2, 3] false
  if n = 0 then modify fun w => { w with s := w.s.modCtx w.k fun k => { k with frees := k.frees ++ [⟨a, false, w.core, w.slot⟩] } }

/-- Pin a root: one reference more until the operation ends (R145). -/
def pin (a : Nat) : SM PUnit := do
  let _ ← adjust a [1, 2] true
  modify fun w => { w with pins := w.pins ++ [a] }

/-- Release the pinned roots (R145). -/
def unpin : SM PUnit := do
  let w ← get
  set { w with pins := [] }
  w.pins.forM release

/-- A clasp or a bead node as read. -/
structure Node where
  addr : Nat
  bead : Bool
  h : Nat
  n : Nat
  left : Nat
  right : Nat
  pay : Word
  /-- The PAYLOAD word is poisoned (R153). -/
  payPoison : Bool
  fblk : Nat
  fmask : Nat
  desc : Nat
  direct : Bool

/-- A clasp or a bead node from its words: none where a field disagrees with R122, R123 or R124 (R125). -/
def Node.parse (k : Ctx) (a : Nat) (direct : Bool) (ws : List Tagged) : Option Node :=
  let w (i : Nat) : Word := (ws.getD i ⟨0, false⟩).val
  let x : Node :=
    { addr := a, bead := fieldOf (w 0) 60 4 == 2, h := fieldOf (w 0) 54 6, n := (w 3).toNat, left := (w 1).toNat
      right := (w 2).toNat, pay := w 1, payPoison := (ws.getD 1 ⟨0, false⟩).poison, fblk := (w 4).toNat
      fmask := fieldOf (w 0) 28 4, desc := (w 5).toNat, direct := direct }
  let ok := hdrShape (w 0) && inArena k x.desc && w 6 == 0 && w 7 == 0 &&
    (if x.bead then w 2 == 0 && w 4 == 0 && decide (1 ≤ x.n) && decide (x.n ≤ 64)
     else decide (2 ≤ x.n) && decide (x.n < 2 ^ 32) && inArena k x.left && inArena k x.right &&
       (x.fmask == 0) == (x.fblk == 0) && (x.fblk == 0 || inArena k x.fblk))
  if ok then some x else none

/-- Read a clasp or a bead node (R123 to R125). -/
def node (a : Nat) (direct : Bool) : SM Node := do
  let ws ← header a 8 [1, 2] direct
  match Node.parse (← ctx) a direct ws with
  | some x => return x
  | none => bad direct

/-- Read a strand descriptor (R125, R131). -/
def desc (a : Nat) (direct : Bool) : SM SDesc := do
  let ws ← header a 8 [3] direct
  match SDesc.parse a (ws.map (·.val)) with
  | some d => return d
  | none => bad direct

/-- The descriptor that a node names; the FMASK of a clasp is that of its descriptor (R122, R125). -/
def descOf (x : Node) : SM SDesc := do
  let e ← desc x.desc false
  if !x.bead && x.fmask ≠ e.mask then bad x.direct
  return e

/-- A strand in the hands of an operation: nodes that exist, and nodes it builds, with their addresses once placed. -/
inductive Tree where
  | old (x : Node)
  | bead (addr : Nat) (pay : Word) (payPoison : Bool) (n : Nat)
  | clasp (addr fblk : Nat) (l r : Tree) (h n : Nat)

/-- HEIGHT. -/
def Tree.h : Tree → Nat
  | .old x => x.h
  | .bead .. => 0
  | .clasp _ _ _ _ h _ => h

/-- Positions. -/
def Tree.n : Tree → Nat
  | .old x => x.n
  | .bead _ _ _ n => n
  | .clasp _ _ _ _ _ n => n

/-- The address of a placed node. -/
def Tree.addr : Tree → Nat
  | .old x => x.addr
  | .bead a .. => a
  | .clasp a .. => a

/-- The payload of a bead, with the poison of its address; none for a clasp. -/
def Tree.payload : Tree → Option (Word × Bool)
  | .old x => if x.bead then some (x.pay, x.payPoison) else none
  | .bead _ p q _ => some (p, q)
  | .clasp .. => none

/-- The children of a clasp, checked against it (R125, R138): their FMASK is that of the strand's descriptor, as its own is. -/
def kids (t : Tree) : SM (Tree × Tree) :=
  match t with
  | .old x => do
    let l ← node x.left false
    let r ← node x.right false
    if x.h ≠ 1 + max l.h r.h ∨ l.h > r.h + 1 ∨ r.h > l.h + 1 ∨ x.n ≠ l.n + r.n then bad x.direct
    if [l, r].any fun y => !y.bead && y.fmask ≠ x.fmask then bad false
    return (.old l, .old r)
  | .clasp _ _ l r _ _ => return (l, r)
  | .bead .. => throw .damage

/-- The checks of the operands that are node addresses or anchors, in order (R357): RANGE of every one, then ALIGN. -/
def operands (vs : List Word) : SM PUnit := do
  let k ← ctx
  vs.forM fun v => do if v ≠ 0 && !v.getLsbD 0 && !inArena k v.toNat then status stRange
  vs.forM fun v => do
    if v.getLsbD 0 && (v - 1).toNat % 16 ≠ 0 then throw (.trap (State.alignTrap (v - 1) 16 0))

/-- The address a root operand names: itself, or the ROOT of an anchor (R126, R357). -/
def rootAddr (v : Word) : SM Word := do
  if v.getLsbD 0 then
    let t ← rd (v - 1)
    if t.poison then status stBadStrand
    return t.val
  return v

/-- A root operand, pinned: its tree, or none for the empty strand, and its descriptor; `d` is the descriptor of an earlier
operand, which it must share (R126, R138, R145, R357, R441). -/
def root (v : Word) (d : Option SDesc) : SM (Option Tree × Option SDesc) := do
  let a ← rootAddr v
  if a = 0 then return (none, d)
  let k ← ctx
  if !inArena k a.toNat then status stRange
  let x ← node a.toNat true
  if d.any fun e => x.desc ≠ e.addr then status stMismatch
  let e ← match d with
    | some e => pure e
    | none => descOf x
  if !x.bead && x.fmask ≠ e.mask then bad true
  pin a.toNat
  return (some (.old x), some e)

/-! ### Shapes (R138, R139) -/

/-- Node(l, r) (R139). -/
def mkClasp (l r : Tree) : SM Tree :=
  if l.n + r.n ≥ 2 ^ 32 then status stRange else return .clasp 0 0 l r (1 + max l.h r.h) (l.n + r.n)

/-- Balance(l, r) (R139). -/
def balance (l r : Tree) : SM Tree := do
  if l.h = r.h + 2 then
    let (ll, lr) ← kids l
    if ll.h ≥ lr.h then return ← mkClasp ll (← mkClasp lr r)
    let (a, b) ← kids lr
    return ← mkClasp (← mkClasp ll a) (← mkClasp b r)
  if r.h = l.h + 2 then
    let (rl, rr) ← kids r
    if rr.h ≥ rl.h then return ← mkClasp (← mkClasp l rl) rr
    let (a, b) ← kids rl
    return ← mkClasp (← mkClasp l a) (← mkClasp b rr)
  mkClasp l r

/-- Join of two strands that are not empty (R139). The fuel bounds the height, which falls at every call. -/
def join2 : Nat → Tree → Tree → SM Tree
  | 0, _, _ => throw .damage
  | f + 1, l, r => do
    if l.h ≤ r.h + 1 ∧ r.h ≤ l.h + 1 then return ← mkClasp l r
    if l.h > r.h then
      let (a, b) ← kids l
      return ← balance a (← join2 f b r)
    let (a, b) ← kids r
    balance (← join2 f l a) b

/-- Heights are below 64 (R122), and a join meets each height of either side at most once. -/
def shapeFuel : Nat := 130

/-- Join(l, r) (R139). -/
def join (l r : Option Tree) : SM (Option Tree) :=
  match l, r with
  | none, r => return r
  | l, none => return l
  | some l, some r => do return some (← join2 shapeFuel l r)

/-- The owning context is to be told of a bead's poison (R153). -/
def hurtBead (a : Nat) : SM PUnit := modify fun w => if w.hurt.contains a then w else { w with hurt := w.hurt ++ [a] }

/-- The payload of a bead, as the unit uses it: a poisoned PAYLOAD word is reported (R153). -/
def usePayload (b : Tree) : SM (Word × Bool) :=
  match b.payload with
  | none => throw .damage
  | some (p, q) => do
    if q then hurtBead b.addr
    return (p, q)

/-- Piece(b, o, n) (R139). -/
def piece (rsz : Nat) (b : Tree) (o n : Nat) : SM (Option Tree) := do
  if n = 0 then return none
  if o = 0 ∧ n = b.n then return some b
  let (p, q) ← usePayload b
  return some (.bead 0 (p + wordOf (o * rsz)) q n)

/-- Split(t, q) (R139). -/
def split (rsz : Nat) : Nat → Tree → Nat → SM (Option Tree × Option Tree)
  | 0, _, _ => throw .damage
  | f + 1, t, q => do
    if t.payload.isSome then return (← piece rsz t 0 q, ← piece rsz t q (t.n - q))
    let (l, r) ← kids t
    if q < l.n then
      let (a, b) ← split rsz f l q
      return (a, ← join b (some r))
    if q = l.n then return (some l, some r)
    let (a, b) ← split rsz f r (q - l.n)
    return (← join (some l) a, b)

/-- Splice(t, q, s) (R139). -/
def splice (rsz : Nat) : Nat → Tree → Nat → Tree → SM (Option Tree)
  | 0, _, _, _ => throw .damage
  | f + 1, t, q, s => do
    if t.payload.isSome then
      if q = 0 then return ← join (some s) (some t)
      if q = t.n then return ← join (some t) (some s)
      return ← join (← join (← piece rsz t 0 q) (some s)) (← piece rsz t q (t.n - q))
    let (l, r) ← kids t
    if q ≤ l.n then return ← join (← splice rsz f l q s) (some r)
    join (some l) (← splice rsz f r (q - l.n) s)

/-! ### Summaries (R133 to R137, R142, R153) -/

/-- A source element of position `j` of a bead: component `c` of lane `i` (R132). A poisoned PAYLOAD word poisons every
record read through it. -/
def element (d : SDesc) (f : Facet) (t : Tree) (j i c : Nat) : SM (Nat × Bool) := do
  let (p, bad) ← usePayload t
  if bad then return (0, true)
  else
    let (v, q) ← rdNum (p + wordOf (j * d.rsz + f.off + (c * f.lanes + i) * f.srcWidth)) f.srcWidth
    if q then hurtBead t.addr
    return (f.widen v, q)

/-- The leaf summary of a position (R133). -/
def leaf (d : SDesc) (f : Facet) (t : Tree) (j : Nat) : SM (List FLane) :=
  (List.range f.lanes).mapM fun i => do
    let (e, pe) ← element d f t j i 0
    if f.reads = 2 then
      let (u, pu) ← element d f t j i 1
      return f.leaf e u pe pu
    return f.leaf e 0 pe false

/-- Shift(v, k) of one lane (R134). -/
def shiftLane (d : SDesc) (fi : Nat) (f : Facet) (k i : Nat) (v : FLane) : SM FLane :=
  (List.range 32).foldlM (fun v b =>
    if k.testBit b then do
      let at_ := wordOf (d.atab + d.angleOff fi + 8 * f.lanes * b + 4 * i)
      let (c, pc) ← rdNum at_ 4
      let (s, ps) ← rdNum (at_ + wordOf (4 * f.lanes)) 4
      return rotStep v c s (pc || ps)
    else return v) v

/-- Shift of a whole summary, for ROTSUM (R134). -/
def shift (d : SDesc) (fi : Nat) (f : Facet) (k : Nat) (v : List FLane) : SM (List FLane) :=
  if f.kind = 7 then (v.zip (List.range v.length)).mapM fun (x, i) => shiftLane d fi f k i x else return v

/-- Combine(l, r), where l covers `n` positions (R133). -/
def combine (d : SDesc) (fi : Nat) (f : Facet) (n : Nat) (l r : List FLane) : SM (List FLane) := do
  let r ← shift d fi f n r
  return (l.zip r).map fun (a, b) => f.combine a b

/-- Fold summaries with their position counts, left to right (R135, R142). -/
def fold (d : SDesc) (fi : Nat) (f : Facet) : List (List FLane × Nat) → SM (List FLane)
  | [] => return []
  | (v, n) :: rest => do
    let (v, _) ← rest.foldlM (fun (acc, m) (x, k) => do return (← combine d fi f m acc x, m + k)) (v, n)
    return v

/-- The summary cached in a clasp's facet block (R137). -/
def blockSummary (d : SDesc) (fi : Nat) (f : Facet) (fblk : Nat) : SM (List FLane) :=
  (List.range f.lanes).mapM fun i => do
    let at_ := fblk + d.blockOff fi + 4 * i
    let (x, px) ← rdNum (wordOf at_) 4
    if f.comps = 2 then
      let (y, py) ← rdNum (wordOf (at_ + 4 * f.lanes)) 4
      return ⟨x, y, px, py⟩
    return ⟨x, 0, px, false⟩

/-- The summary of a subtree (R135): a bead's fold, a cached value, or the combine of a new clasp's children. -/
def summary (d : SDesc) (fi : Nat) (f : Facet) : Tree → SM (List FLane)
  | .clasp _ _ l r _ _ => do
    let a ← summary d fi f l
    let b ← summary d fi f r
    combine d fi f l.n a b
  | .old x =>
    if x.bead then do
      let ls ← (List.range x.n).mapM fun j => do return (← leaf d f (.old x) j, 1)
      fold d fi f ls
    else blockSummary d fi f x.fblk
  | .bead a p q n => do
    let ls ← (List.range n).mapM fun j => do return (← leaf d f (.bead a p q n) j, 1)
    fold d fi f ls

/-- The pieces of a range, left to right: covered subtrees at their highest nodes, and single positions (R142); single
positions only where `single` is set. -/
def pieces (d : SDesc) (fi : Nat) (f : Facet) (single : Bool) (q0 q1 : Nat) :
    Nat → Nat → Tree → SM (List (List FLane × Nat))
  | 0, _, _ => throw .damage
  | fuel + 1, base, t => do
    let lo := max q0 base
    let hi := min q1 (base + t.n)
    if hi ≤ lo then return []
    if !single && lo = base && hi = base + t.n then return [(← summary d fi f t, t.n)]
    if t.payload.isSome then
      (List.range (hi - lo)).mapM fun j => do return (← leaf d f t (lo - base + j), 1)
    else
      let (l, r) ← kids t
      let a ← pieces d fi f single q0 q1 fuel base l
      let b ← pieces d fi f single q0 q1 fuel (base + l.n) r
      return a ++ b

/-- The bead that holds a position, with its first position. -/
def locate : Nat → Nat → Tree → Nat → SM (Tree × Nat)
  | 0, _, _, _ => throw .damage
  | f + 1, base, t, q => do
    if t.payload.isSome then return (t, base)
    let (l, r) ← kids t
    if q < base + l.n then locate f base l q else locate f (base + l.n) r q

/-! ### Writing a result (R128, R140, R141) -/

/-- The new nodes of a tree, and how many of them are clasps. -/
def count : Tree → Nat × Nat
  | .old _ => (0, 0)
  | .bead .. => (1, 0)
  | .clasp _ _ l r _ _ => ((count l).1 + (count r).1 + 1, (count l).2 + (count r).2 + 1)

/-- Give the new nodes of a tree their places: nodes from one list, facet blocks from the other. -/
def place : Tree → List Nat → List Nat → Tree × List Nat × List Nat
  | .old x, ns, bs => (.old x, ns, bs)
  | .bead _ p q n, ns, bs => (.bead (ns.headD 0) p q n, ns.tail, bs)
  | .clasp _ _ l r h n, ns, bs =>
    let (l, ns, bs) := place l ns bs
    let (r, ns, bs) := place r ns bs
    (.clasp (ns.headD 0) (bs.headD 0) l r h n, ns.tail, bs.tail)

/-- Give the new nodes of several trees their places. -/
def placeAll : List (Option Tree) → List Nat → List Nat → List (Option Tree)
  | [], _, _ => []
  | none :: t, ns, bs => none :: placeAll t ns bs
  | some x :: t, ns, bs =>
    let (x, ns, bs) := place x ns bs
    some x :: placeAll t ns bs

/-- The new nodes of a placed tree. -/
def newNodes : Tree → List Tree
  | .old _ => []
  | .bead a p q n => [.bead a p q n]
  | .clasp a b l r h n => newNodes l ++ newNodes r ++ [.clasp a b l r h n]

/-- The bead page that holds an address (R129). -/
def pageOf (a : Word) : Nat := a.toNat / 16384 * 16384

/-- The counts a new node raises, with the kinds allowed where they stand: its children that exist already, its page's USE,
its descriptor (R141). A bead whose PAYLOAD word is poisoned names no page, whose USE it then does not raise: a choice of the model (log
entry 39). -/
def raises (d : SDesc) : Tree → List (Nat × List Nat)
  | .old _ => []
  | .bead _ p q _ => (if q then [] else [(pageOf p, [4])]) ++ [(d.addr, [3])]
  | .clasp _ _ l r _ _ =>
    (match l with | .old x => [(x.addr, [1, 2])] | _ => []) ++ (match r with | .old x => [(x.addr, [1, 2])] | _ => []) ++
      [(d.addr, [3])]

/-- The words of a new clasp's facet block (R137). -/
def blockWords (d : SDesc) (t : Tree) : SM (List Tagged) := do
  let cells ← (d.facets.zip (List.range 4)).foldlM (fun (acc : List (Nat × Bool)) (f, fi) =>
    match f with
    | some f =>
      if f.cached then do
        let v ← summary d fi f t
        let ys := if f.comps = 2 then v.map fun x => (x.y, x.py) else []
        return acc ++ v.map (fun x => (x.x, x.px)) ++ ys
      else return acc
    | none => return acc) []
  let c (i : Nat) : Nat × Bool := cells.getD i (0, false)
  return (List.range (8 * d.blockUnits)).map fun j =>
    ⟨wordOf ((c (2 * j)).1 + (c (2 * j + 1)).1 * 2 ^ 32), (c (2 * j)).2 || (c (2 * j + 1)).2⟩

/-- The words of a new node (R123, R124). -/
def nodeWords (d : SDesc) (arena : Nat) : Tree → List Tagged
  | .old _ => []
  | .bead _ p q n =>
    [⟨mkHdr 2 0 1 0 arena, false⟩, ⟨p, q⟩, ⟨0, false⟩, ⟨wordOf n, false⟩, ⟨0, false⟩, ⟨wordOf d.addr, false⟩, ⟨0, false⟩,
      ⟨0, false⟩]
  | .clasp _ b l r h n =>
    [⟨mkHdr 1 h 1 d.mask arena, false⟩, ⟨wordOf l.addr, false⟩, ⟨wordOf r.addr, false⟩, ⟨wordOf n, false⟩,
      ⟨wordOf b, false⟩, ⟨wordOf d.addr, false⟩, ⟨0, false⟩, ⟨0, false⟩]

/-- Write words from an address upward. -/
def wrAll (a : Nat) (ws : List Tagged) : SM PUnit :=
  (ws.zip (List.range ws.length)).forM fun (t, j) => wr (wordOf (a + 8 * j)) t

/-- Write the result trees of an edit: every place and translation is found before anything is written (R128, R150); the
roots are held by the issuer (R141). -/
def keep (d : SDesc) (roots : List (Option Tree)) : SM (List Nat) := do
  let trees := roots.filterMap id
  let (bs, ns) ← allocAll d.blockUnits (if d.blockUnits = 0 then 0 else (trees.map fun t => (count t).2).sum)
    (trees.map fun t => (count t).1).sum
  let roots := placeAll roots ns bs
  let new := roots.flatMap fun t => match t with
    | some t => newNodes t
    | none => []
  let held := roots.flatMap fun t => match t with
    | some (.old x) => [(x.addr, [1, 2])]
    | _ => []
  let ups := new.flatMap (raises d) ++ held
  let blocks ← new.mapM fun t => match t with
    | .clasp _ b .. => if b = 0 then return (b, []) else do return (b, ← blockWords d t)
    | _ => return (0, [])
  new.forM fun t => check (wordOf t.addr)
  blocks.forM fun (b, ws) => (List.range (ws.length / 8)).forM fun j => check (wordOf (b + 64 * j))
  ups.forM fun (a, ks) => do
    let _ ← header a 1 ks false
    check (wordOf a)
  let k ← ctx
  new.forM fun t => wrAll t.addr (nodeWords d (fieldOf k.arena1 52 12) t)
  blocks.forM fun (b, ws) => wrAll b ws
  ups.forM fun (a, ks) => do let _ ← adjust a ks true
  return roots.map fun t => match t with
    | some t => t.addr
    | none => 0

end SM

namespace State

/-! ### Bead pages (R79 to R83, R129) -/

/-- The key of a channel-bound frame's enrolment: live slice × 2048 + SFRAME. -/
def enrolKey (slice sframe : Nat) : Nat := slice * 2048 + sframe

/-- Is a frame enrolled to a context (R79)? -/
def enrolledTo (e : Enrol) (ctx gen : Nat) : Bool :=
  e.rec_.getLsbD 0 && fieldOf e.rec_ 48 16 == ctx && fieldOf e.rec_ 40 8 == gen

/-- The live slice with a physical number (R44). -/
def liveSlice (s : State) (p : Nat) : Nat :=
  match s.pkg.retired with
  | some r => if p > r then p - 1 else p
  | none => p

/-- The lowest clear bit of an occupancy map. -/
def firstClear (m : BitVec 128) : Option Nat := (List.range 128).find? fun n => !m.getLsbD n

/-- FirstClear at a slice (R82): the frame's key and the page, in ascending SFRAME. -/
def freePage (s : State) (slice ctx gen : Nat) : Option (Nat × Nat) :=
  s.enrol.findSome? fun (key, e) =>
    if key / 2048 = slice && enrolledTo e ctx gen then (firstClear e.map).map fun n => (key, n) else none

/-- The physical address of a page of a channel-bound frame (R48). -/
def pageAddr (s : State) (key page : Nat) : Nat :=
  devAddr (s.physSlice (key / 2048)) (2 ^ 32 - s.pkg.cbs + 2 ^ 21 * (key % 2048) + 16384 * page)

/-- The channel-bound frame and page of a physical address, if it lies in a channel-bound region. -/
def cbPage (s : State) (a : Nat) : Option (Nat × Nat) :=
  let o := a % 2 ^ 32
  if a < 2 ^ 40 ∧ o ≥ 2 ^ 32 - s.pkg.cbs then
    let x := o - (2 ^ 32 - s.pkg.cbs)
    some (enrolKey (s.liveSlice (a / 2 ^ 32)) (x / 2 ^ 21), x % 2 ^ 21 / 16384)
  else none

/-- A page of a channel-bound frame has been written for a context: D and the sub-bit of every entry of its stage-2 array that maps the
frame (R25, R27). -/
def frameWritten (s : State) (k key page : Nat) : State :=
  (s.ctx k).s2.foldl (fun s (i, e) =>
    if e.getLsbD 0 && e.getLsbD 5 && !e.getLsbD 6 && enrolKey (fieldOf e 12 8) (fieldOf e 20 11) == key then
      s.markDirty2 k i (16384 * page) e
    else s) s

/-- Set or clear an occupancy bit. -/
def setPage (s : State) (key page : Nat) (on : Bool) : State :=
  let e := aget s.enrol Enrol.reset key
  let bit : BitVec 128 := 1#128 <<< page
  { s with enrol := aset s.enrol key { e with map := if on then e.map ||| bit else e.map &&& ~~~bit } }

end State

namespace SM

/-- KVPG.FREE (R83). The page's address is translated for a read, and PAGES of 0 goes down to 0xFFFF_FFFF: choices of the model (log
entry 39). -/
def freeBeadPage (a spd : Word) : SM PUnit := do
  let _ ← rd (a - wordOf (a.toNat % 8))
  let w ← get
  let d ← rd spd
  check spd
  match w.s.translateDirect w.k a .read with
  | .error t => throw (.trap t)
  | .ok (p, _, _) =>
    match w.s.cbPage p with
    | none => status 12
    | some (key, page) =>
      let e := aget w.s.enrol Enrol.reset key
      if !State.enrolledTo e w.k (w.s.ctx w.k).gen then status 12
      if !e.map.getLsbD page then status 13
      if d.poison || fieldOf d.val 40 24 ≠ 0 then status stBadSpd
      wr spd ⟨setField d.val 8 32 (fieldOf d.val 8 32 + 2 ^ 32 - 1), false⟩
      modify fun w => { w with s := w.s.setPage key page false }

/-- The header of a bead page is written at its slice (R129), as a write of the context through the stage-2 entries that map its frame
(R25, R27); a word of it that another slot has reserved is not written before its release (R186). -/
def writePageHeader (key page : Nat) (spd : Word) : SM PUnit := do
  let w ← get
  let a := w.s.pageAddr key page
  if (State.wordsOf a 64).any fun x => (w.s.reservedBy x).any fun v => !(v.core == w.core && v.slot == w.slot) then throw .wait
  let s := w.s.bankWrite a (natBytes 64 ((mkHdr 4 0 0 0 0).toNat + spd.toNat * 2 ^ 64)) []
  set { w with s := s.frameWritten w.k key page }

/-- KVPG.ALLOC (R82): the page's address, or 0. -/
def allocBeadPage (spd : Word) : SM Nat := do
  let d ← rd spd
  check spd
  let w ← get
  let n := w.s.liveSlices
  let next := fieldOf d.val 0 8
  if d.poison || fieldOf d.val 40 24 ≠ 0 || next ≥ n then status stBadSpd
  match (List.range n).findSome? fun i => w.s.freePage ((next + i) % n) w.k (w.s.ctx w.k).gen with
  | none => return 0
  | some (key, page) =>
    writePageHeader key page spd
    modify fun w => { w with s := w.s.setPage key page true }
    wr spd ⟨setField (setField d.val 0 8 ((key / 2048 + 1) % n)) 8 32 (fieldOf d.val 8 32 + 1), false⟩
    return fieldOf (aget w.s.enrol Enrol.reset key).rec_ 13 27 * 2 ^ 21 + page * 16384

/-- Discard the status of a step that ends with one (R129, R144). -/
def quiet (m : SM PUnit) : SM PUnit :=
  try m catch
    | .status _ => pure ⟨⟩
    | e => throw e

/-- Lower the USE of a bead's page; at 0 the page is freed through the descriptor in its header, as KVPG.FREE frees it; what
becomes of that is discarded (R129). A USE that is 0 already, as in a page that the program has freed and allocated again, stays 0 and
the page is freed so once more: a choice of the model (log entry 39). -/
def leavePage (page : Nat) : SM PUnit := do
  let n ← adjust page [4] false
  if n = 0 then
    let ws ← headerAny page 2 [4] false
    wr (wordOf page) ⟨0, false⟩
    try freeBeadPage (wordOf page) (ws.getD 1 ⟨0, false⟩).val catch
      | .wait => throw .wait
      | _ => pure ⟨⟩

/-- A bead that is freed subtracts one from its page's USE (R146). One whose PAYLOAD word is poisoned is reported (R153), and names no page
to leave: a choice of the model (log entry 39). -/
def leaveBead (x : Node) : SM PUnit :=
  if x.payPoison then hurtBead x.addr else quiet (leavePage (pageOf x.pay))

/-- Free the node at an address (R146), after its checks (R125): what it named is released in turn. -/
def freeNode (a : Nat) : SM PUnit := do
  let k ← ctx
  let hs ← headerAny a 1 [1, 2, 3] false
  let h := (hs.getD 0 ⟨0, false⟩).val
  if !hdrShape h then throw .damage
  let x ← if fieldOf h 60 4 = 3 then pure none else do
    match Node.parse k a false (← headerAny a 8 [1, 2] false) with
    | some x => pure (some x)
    | none => throw .damage
  wr (wordOf a) ⟨mkHdr 0 0 0 0 0, false⟩
  let units := a :: (match x with
    | some x => if x.bead || x.fblk = 0 then [] else [x.fblk]
    | none => [])
  modify fun w => { w with s := w.s.modCtx w.k fun k =>
    { k with arenaUsed := units.foldl (fun l u => adel l ((u - arenaBase k) / 64)) k.arenaUsed } }
  match x with
  | none => return ⟨⟩
  | some x => do
    if x.bead then leaveBead x
    else do
      quiet (release x.left)
      quiet (release x.right)
    quiet (release x.desc)

/-- Release the old root of an anchor (R148), which is a node named directly (R125): where it is none, nothing is released. -/
def releaseRoot (a : Nat) : SM PUnit := do
  if !inArena (← ctx) a then status stBadStrand
  let _ ← header a 1 [1, 2] true
  release a

/-! ### Operations (R358 to R360) -/

/-- An operand that counts positions (R357). -/
def position (v : Word) : SM Nat := if v.toNat ≥ 2 ^ 32 then status stRange else return v.toNat

/-- SNEW.DESC (R131). -/
def newDesc (t : Word) : SM Nat := do
  if t.toNat % 64 ≠ 0 then throw (.trap (State.alignTrap t 64 0))
  let ws ← (List.range 8).mapM fun j => rd (t + wordOf (8 * j))
  if (SDesc.parse 0 (ws.map (·.val))).isNone then status stBadStrand
  let a ← alloc false 1
  check (wordOf a)
  let k ← ctx
  wrAll a (⟨mkHdr 3 0 1 0 (fieldOf k.arena1 52 12), false⟩ :: ws.drop 1)
  return a

/-- SNEW.BEAD (R130). Its payload range is translated (R357); what it holds is not looked at. -/
def newBead (da pay len : Word) : SM Nat := do
  let k ← ctx
  if !inArena k da.toNat then status stRange
  let d ← desc da.toNat true
  let n ← position len
  let off := pay.toNat % 16384
  if n < 1 ∨ n > 64 ∨ pay.toNat % 2 ≠ 0 ∨ off < 64 ∨ off + n * d.rsz > 16384 then status stRange
  (List.range ((n * d.rsz + 4095) / 4096 + 1)).forM fun j => do
    let _ ← rd (pay + wordOf (min (4096 * j) (n * d.rsz - 1)) - wordOf ((pay.toNat + min (4096 * j) (n * d.rsz - 1)) % 8))
  let _ ← header (pageOf pay) 1 [4] true
  let as ← keep d [some (.bead 0 pay false n)]
  return as.getD 0 0

/-- SCAT (R139, R441). -/
def cat (a b : Word) : SM Nat := do
  operands [a, b]
  let (x, d) ← root a none
  let (y, d) ← root b d
  match d with
  | none => return 0
  | some d => do
    let r ← join x y
    return (← keep d [r]).getD 0 0

/-- SSPLIT (R139). Split is not defined for the empty strand: at position 0 its two parts are empty, a choice of the model
(log entry 34). -/
def splitOp (t q : Word) : SM (Nat × Nat) := do
  operands [t]
  let (x, d) ← root t none
  let n ← position q
  match x, d with
  | some x, some d =>
    if n > x.n then status stRange
    let (a, b) ← split d.rsz shapeFuel x n
    let as ← keep d [a, b]
    return (as.getD 0 0, as.getD 1 0)
  | _, _ => if n > 0 then status stRange else return (0, 0)

/-- SSPLICE (R139, R358). Splice is not defined for an empty `t`: at position 0 the result is `s`, which gains a reference as
the result of SCAT does (R441), a choice of the model (log entry 34). -/
def spliceOp (t q u : Word) : SM Nat := do
  if u = 0 then status stRange
  operands [t, u]
  let (x, d) ← root t none
  let (y, d) ← root u d
  let n ← position q
  match y, d with
  | some y, some d =>
    match x with
    | some x =>
      if n > x.n then status stRange
      let r ← splice d.rsz shapeFuel x n y
      return (← keep d [r]).getD 0 0
    | none => if n > 0 then status stRange else return (← keep d [some y]).getD 0 0
  | _, _ => status stRange

/-- SSUM (R142): the lanes of the summary, and SLOW. -/
def sumOp (t q0 q1 : Word) (fi : Nat) : SM (List FLane × Bool) := do
  operands [t]
  let (x, d) ← root t none
  let a ← position q0
  let b ← position q1
  match x, d with
  | some x, some d =>
    if b ≤ a ∨ b > x.n then status stRange
    match d.facets.getD fi none with
    | none => status stBadStrand
    | some f =>
      let ps ← pieces d fi f (!f.cached) a b shapeFuel 0 x
      if f.kind = 7 && !f.cached then
        let ls ← (ps.zip (List.range ps.length)).mapM fun (p, j) => shift d fi f (a + j) p.1
        match ls with
        | [] => return ([], true)
        | l :: rest => return (rest.foldl (fun acc r => (acc.zip r).map fun (u, v) => f.combine u v) l, true)
      let v ← fold d fi f ps
      return (← shift d fi f a v, !f.cached)
  | _, _ => status stRange

/-- The bead that holds a position of a strand, its first position and the record size (R142). -/
def locOp (t q : Word) : SM (Tree × Nat × Nat × Nat) := do
  operands [t]
  let (x, d) ← root t none
  let n ← position q
  match x, d with
  | some x, some d =>
    if n ≥ x.n then status stRange
    let (b, base) ← locate shapeFuel 0 x n
    return (b, base, n, d.rsz)
  | _, _ => status stRange

/-- SREF.HOLD and SREF.REL (R143, R144), after the checks of the node and of its descriptor (R125). -/
def refOp (a : Word) (hold : Bool) : SM PUnit := do
  let k ← ctx
  if a = 0 || !inArena k a.toNat then status stRange
  let ws ← header a.toNat 1 [1, 2, 3] true
  if fieldOf (ws.getD 0 ⟨0, false⟩).val 60 4 = 3 then
    let _ ← desc a.toNat true
  else
    let _ ← descOf (← node a.toNat true)
  check a
  if hold then
    let _ ← adjust a.toNat [1, 2, 3] true
  else release a.toNat

/-- SCOMMIT (R148, R440): the status, ITER after the step, and the poison of the words read. A poisoned read releases
without a write (R190). The release of the old root is queued. -/
def commitOp (anchor it new : Word) : SM (Nat × Word × Bool) := do
  let k ← ctx
  if new ≠ 0 && !inArena k new.toNat then status stRange
  if anchor.toNat % 16 ≠ 0 then throw (.trap (State.alignTrap anchor 16 1))
  if new ≠ 0 then
    let _ ← descOf (← node new.toNat true)
  let r ← rd anchor
  let i ← rd (anchor + 8)
  check anchor
  let p := r.poison || i.poison
  if r.val = new then return (1, i.val, p)
  if it.ult i.val then return (2, i.val, p)
  if i.val.ult it then return (3, i.val, p)
  if p then return (0, it + 1, true)
  wr (anchor + 8) ⟨it + 1, false⟩
  wr anchor ⟨new, false⟩
  if r.val ≠ 0 then modify fun w => { w with s := w.s.modCtx w.k fun k =>
    { k with frees := k.frees ++ [⟨r.val.toNat, true, w.core, w.slot⟩] } }
  return (0, it + 1, false)

/-- KVPG.SLOT (R152): the result word and its poison. -/
def slotOp (t q : Word) : SM (Word × Bool) := do
  operands [t]
  let (x, d) ← root t none
  let n ← position q
  match x, d with
  | some x, some d =>
    if !d.win || x.n ≠ d.sink + d.ring then status stBadWin
    let slot := if n < d.sink then n else d.sink + (n - d.sink) % d.ring
    let g := if n < d.sink then 0 else (n - d.sink) / d.ring
    let (b, base) ← locate shapeFuel 0 x slot
    let (pay, bad) ← usePayload b
    let (v, p) ← if bad then pure (0, true) else rdNum (pay + wordOf ((slot - base) * d.rsz)) 4
    if p then hurtBead b.addr
    return (wordOf (g * 2 ^ 32 + (if v = g then 0 else 2 ^ 31) + slot), p)
  | _, _ => status stBadWin

end SM

namespace State

/-! ### Running an operation -/

/-- The state after an operation that fails: it leaves nothing behind (R128, R150). Its nodes go back to the arena, and the roots
that it pinned are released; `s` is the state in which it began. -/
def undone (w : SWork) (s : State) : State :=
  (SM.unpin.run { w with s := w.s.modCtx w.k fun k =>
    { k with
      arenaUsed := (s.ctx w.k).arenaUsed
      frees := (s.ctx w.k).frees } }).2.s

/-- STRAND_DAMAGED with detail ARENA (R154, R234). -/
def arenaLost (k : Ctx) : Trap := ownTrap 0x10 2 (wordOf (SM.arenaBase k)) 0 3

/-- Go on when no other slot's reservation holds the anchors and page descriptors an operation reserves (R82, R145,
R148); else queue for them (R186). -/
def withAnchors (s : State) (k : State → State) : List Word → State
  | [] => k s
  | a :: rest =>
    match s.translateDirect s.me.ctx a .read with
    | .error _ => withAnchors s k rest
    | .ok (p, _, _) =>
      match s.reserve s.cur.1 s.cur.2 (p / 8) with
      | some s => withAnchors s k rest
      | none => (s.enqueueRes s.cur.1 s.cur.2 (p / 8)).parkMe .strand

/-- Tell a context of the bead nodes whose payload was found poisoned (R153). -/
def beadNotices (s : State) (c : Site) (i : Nat) (l : List Nat) : State :=
  l.foldl (fun s a => s.notice c i (ownTrap 0x10 1 (wordOf a) 0 3)) s

/-- The anchor that a root operand names, if it is an anchor form (R126). -/
def anchorOf (v : Word) : List Word := if v.getLsbD 0 && (v - 1).toNat % 16 == 0 then [v - 1] else []

/-- The arena of a context is lost (R154). -/
def loseArena (s : State) (k : Nat) : State := s.modCtx k fun x => { x with arena1 := setField x.arena1 51 1 1 }

/-- Run a strand instruction (R354, R357, R200): the operands' check, the arena's check, the release, then the operation.
`out` and `fail` make the register writes of a result and of a status. -/
def strandOp {α : Type} (s : State) (rs : List Reg) (len : Nat) (anchors : List Word) (op : SM α)
    (out : α → List WordWrite) (fail : Nat → List WordWrite) : State :=
  s.useRegs rs
    (let k := s.myCtx
     if k.arena1.getLsbD 51 || fieldOf k.arena1 52 12 = 0 then s.raise (arenaLost k)
     else s.withRelease .dev fun s => s.withAnchors (k := fun s =>
       let (c, i) := s.cur
       let k := s.me.ctx
       match (do let a ← op; SM.unpin; return a : SM α).run ⟨s, k, c, i, [], []⟩ with
       | (.ok a, w) => (w.s.done len (out a)).beadNotices c i w.hurt
       | (.error e, w) =>
         let t := undone w s
         match e with
         | .status n => (t.done len (fail n)).beadNotices c i w.hurt
         | .damage => ((t.loseArena k).raise (arenaLost s.myCtx)).beadNotices c i w.hurt
         | .trap x => (t.raise x).beadNotices c i w.hurt
         | .wait => s.parkMe .strand) anchors)

/-- Tell the slot whose operation queued a task, while the slot still holds the context. -/
def tellIssuer (s : State) (k : Nat) (t : StrandTask) (f : State → State) : State :=
  if (s.slot t.core t.slot).ctx = k ∧ (s.slot t.core t.slot).gen = (s.ctx k).gen then f s else s

/-- The strand unit takes the first task of a context's queue (R146, R148). A task that cannot go on, for a translation that
fails or a word that is reserved, stays queued; header damage loses the arena, and the slot whose operation queued the task is
told of it (R154) and of a bead whose payload is poisoned (R153): choices of the model (log entry 34). -/
def strandTask (s : State) (k : Nat) : State :=
  match (s.ctx k).frees with
  | [] => s
  | t :: rest =>
    let u := s.modCtx k fun x => { x with frees := rest }
    match (if t.release then SM.releaseRoot t.addr else SM.freeNode t.addr : SM PUnit).run ⟨u, k, t.core, t.slot, [], []⟩ with
    | (.ok _, w) => w.s.tellIssuer k t fun s => s.beadNotices t.core t.slot w.hurt
    | (.error e, _) => match e with
      | .status _ => u
      | .damage => (u.loseArena k).tellIssuer k t fun u => u.notice t.core t.slot (arenaLost (s.ctx k))
      | .trap _ | .wait => s

/-- The failure of the ADDR form (R355). -/
def addrFail (n : Nat) : Word := wordOf (2 ^ 63 + n)

/-- Run an operation of the ADDR form (R355). -/
def addrOp (s : State) (d : Reg) (rs : List Reg) (len : Nat) (anchors : List Word) (op : SM Nat) : State :=
  s.strandOp rs len anchors op (fun a => s.wr d (wordOf a) false) (fun n => s.wr d (addrFail n) false)

/-- The failure of the PAIR form (R355). -/
def pairFail (s : State) (d : Reg) (n : Nat) : List WordWrite := s.wr d (addrFail n) false ++ s.wr (d + 1) 0 false

/-- The five registers of SSUM (R359). -/
def sumWrites (s : State) (d : VReg) (l : List FLane) (slow : Bool) (st : Nat) : List WordWrite :=
  let half (f : FLane → Nat × Bool) (o : Nat) : List Tagged := (List.range 8).map fun j =>
    let c (i : Nat) : Nat × Bool := match l[o + i]? with
      | some x => f x
      | none => (0, false)
    ⟨wordOf ((c (2 * j)).1 + (c (2 * j + 1)).1 * 2 ^ 32), (c (2 * j)).2 || (c (2 * j + 1)).2⟩
  let x (v : FLane) : Nat × Bool := (v.x, v.px)
  let y (v : FLane) : Nat × Bool := (v.y, v.py)
  s.vregWrite d (half x 0) ++ s.vregWrite (d + 1) (half x 16) ++ s.vregWrite (d + 2) (half y 0) ++
    s.vregWrite (d + 3) (half y 16) ++ s.vregWrite (d + 4) [⟨wordOf (st + slow.toNat * 256), false⟩]

end State

/-- SNEW.BEAD (R130, R358). -/
def execSnewBead (_st : Stall) (d a b c : Reg) (s : State) : Out :=
  .next (s.addrOp d [a, b, c] 8 [] (SM.newBead (s.reg a).val (s.reg b).val (s.reg c).val))

/-- SNEW.DESC (R131, R358). -/
def execSnewDesc (_st : Stall) (d a : Reg) (s : State) : Out :=
  .next (s.addrOp d [a] 4 [] (SM.newDesc (s.reg a).val))

/-- SCAT (R139, R358). -/
def execScat (_st : Stall) (d a b : Reg) (s : State) : Out :=
  .next (s.addrOp d [a, b] 8 (State.anchorOf (s.reg a).val ++ State.anchorOf (s.reg b).val)
    (SM.cat (s.reg a).val (s.reg b).val))

/-- SSPLIT (R139, R358). -/
def execSsplit (_st : Stall) (d a b : Reg) (s : State) : Out :=
  .next (s.strandOp [a, b] 8 (State.anchorOf (s.reg a).val) (SM.splitOp (s.reg a).val (s.reg b).val)
    (fun r => s.wr d (wordOf r.1) false ++ s.wr (d + 1) (wordOf r.2) false) (s.pairFail d))

/-- SSPLICE (R139, R358). -/
def execSsplice (_st : Stall) (d a b c : Reg) (s : State) : Out :=
  .next (s.addrOp d [a, b, c] 8 (State.anchorOf (s.reg a).val ++ State.anchorOf (s.reg c).val)
    (SM.spliceOp (s.reg a).val (s.reg b).val (s.reg c).val))

/-- SSUM (R142, R359). -/
def execSsum (_st : Stall) (d : VReg) (a b c : Reg) (f : BitVec 2) (s : State) : Out :=
  .next (s.strandOp [a, b, c] 8 (State.anchorOf (s.reg a).val)
    (SM.sumOp (s.reg a).val (s.reg b).val (s.reg c).val f.toNat)
    (fun r => s.sumWrites d r.1 r.2 0) (fun n => s.sumWrites d [] false n))

/-- SLOC (R142, R358). -/
def execSloc (_st : Stall) (d a b : Reg) (s : State) : Out :=
  .next (s.strandOp [a, b] 8 (State.anchorOf (s.reg a).val)
    (do let r ← SM.locOp (s.reg a).val (s.reg b).val
        let _ ← SM.usePayload r.1
        return r)
    (fun (t, base, q, rsz) =>
      let (p, bad) := t.payload.getD (0, false)
      s.wr d (p + wordOf ((q - base) * rsz)) bad ++ s.wr (d + 1) (wordOf t.addr) false) (s.pairFail d))

/-- SSTEP (R142, R358). -/
def execSstep (_st : Stall) (d a b : Reg) (s : State) : Out :=
  .next (s.strandOp [a, b] 8 (State.anchorOf (s.reg a).val) (SM.locOp (s.reg a).val (s.reg b).val)
    (fun (t, base, _, _) =>
      s.wr d (wordOf t.addr) false ++ s.wr (d + 1) (wordOf (base + t.n * 2 ^ 32)) false) (s.pairFail d))

/-- SREF.HOLD (R143, R144). -/
def execSrefHold (_st : Stall) (d a : Reg) (s : State) : Out :=
  .next (s.strandOp [a] 4 [] (SM.refOp (s.reg a).val true) (fun _ => s.wr d 0 false) (fun n => s.wr d (wordOf n) false))

/-- SREF.REL (R143, R146). -/
def execSrefRel (_st : Stall) (d a : Reg) (s : State) : Out :=
  .next (s.strandOp [a] 4 [] (SM.refOp (s.reg a).val false) (fun _ => s.wr d 0 false) (fun n => s.wr d (wordOf n) false))

/-- SCOMMIT (R148, R358). -/
def execScommit (_st : Stall) (d a b c : Reg) (s : State) : Out :=
  .next (s.strandOp [a, b, c] 8 [(s.reg a).val] (SM.commitOp (s.reg a).val (s.reg b).val (s.reg c).val)
    (fun (n, it, p) => s.wr d (wordOf n) p ++ s.wr (d + 1) it p)
    (fun n => s.wr d (wordOf n) false ++ s.wr (d + 1) 0 false))

/-- KVPG.ALLOC (R82, R360). -/
def execKvpgAlloc (_st : Stall) (d a : Reg) (s : State) : Out :=
  let spd := (s.reg a).val
  .next (s.addrOp d [a] 4 [spd] (if spd.toNat % 8 ≠ 0 then throw (.trap (State.alignTrap spd 8 1)) else
    SM.allocBeadPage spd))

/-- KVPG.FREE (R83, R360). -/
def execKvpgFree (_st : Stall) (d a b : Reg) (s : State) : Out :=
  let spd := (s.reg b).val
  .next (s.strandOp [a, b] 8 [spd] (if spd.toNat % 8 ≠ 0 then throw (.trap (State.alignTrap spd 8 1)) else
    SM.freeBeadPage (s.reg a).val spd) (fun _ => s.wr d 0 false) (fun n => s.wr d (wordOf n) false))

/-- KVPG.SLOT (R152, R360). -/
def execKvpgSlot (_st : Stall) (d a b : Reg) (s : State) : Out :=
  .next (s.strandOp [a, b] 8 (State.anchorOf (s.reg a).val) (SM.slotOp (s.reg a).val (s.reg b).val)
    (fun r => s.wr d r.1 r.2) (fun n => s.wr d (wordOf (n * 2 ^ 24)) false))

/-- STRAND_FREE: the strand unit takes the first task queued by a context (R146). -/
def execStrandFree (ctx : Nat) (s : State) : Out := .next (s.strandTask ctx)

end Sys2Proof.Machine
end

