-- ==== Sys2Proof/Machine/Sync.lean ====
section
/-!
DEFINITION. The full-empty instructions (R60 to R66, R168, R297): OP 0x66 to 0x6C, and the events that carry their
requests: arrival at the owner core, presentation again after a refusal, timeout.
-/

namespace Sys2Proof.Machine

/-- The kind of access of a full-empty operation, for ACC (R211). -/
def FeOp.kind : FeOp → Kind
  | .ldf | .ldfe | .feqry => .read
  | _ => .write

/-- Is the operation a release at its owner scope (R168)? -/
def FeOp.releases : FeOp → Bool
  | .ste | .stf | .feset => true
  | _ => false

/-- The narrowest of CORE, CLU, DIE and DEV that contains an owner core (R168). -/
def ownerScope (c owner : Site) : Scope :=
  if owner = c then .core
  else if Site.cluster owner = Site.cluster c then .clu
  else if Site.die owner = Site.die c then .die
  else .dev

namespace State

/-- The target of a synchronising access: a mesh address in A or S (R61). -/
def syncTarget (s : State) (ea : Word) (k : Kind) : Except Trap (Nat × Bool) :=
  if !isMesh ea then .error (ownTrap 4 0xB ea 0 k.acc)
  else match s.meshCheck s.cur.1 s.me.ctx s.me.gen ea 8 k with
    | .error t => .error t
    | .ok (a, own) =>
      let b := (a - 2 ^ 40) / 2 ^ 17 % 8
      if b = 1 ∨ b = 3 then .ok (a, own) else .error (ownTrap 4 0xB ea 0 k.acc)

/-- Send a synchronising request to its owner: at once to the own core, else over the mesh, with the slot parked. -/
def sendSync (s : State) (r : SyncReq) (own : Bool) : State :=
  let s := (s.touch r.addr own).settleOwn r.addr 8 own
  match s.orderOwn r.addr 8 with
  | (s, false) => s.parkMe .drain
  | (s, true) =>
    if own then s.syncArrive s.cur.1 s.cur.2 r
    else
      let (n, s) := s.fresh
      { (s.parkMe (.sync r)) with syncs := s.syncs ++ [(n, s.cur.1, s.cur.2, r)] }

/-- A full-empty instruction (R297). `d` is its destination; `data` the register it stores, if any. -/
def fullEmpty (s : State) (op : FeOp) (d : Reg) (data : Option Reg) (m : MAddr) (len : Nat) : State :=
  let tags := data.toList.map fun r => (8 * r.toNat, (s.reg r).poison)
  s.withEa m op.kind (s.regDests data.toList) tags fun ea =>
    match s.syncTarget ea op.kind with
    | .error t => s.raise t
    | .ok (a, own) =>
      let v := match data with
        | some r => s.reg r
        | none => ⟨0, false⟩
      let r : SyncReq :=
        { op := op, addr := a, value := v, d := d, len := len, base := (s.baseAfter m).map fun t => (m.base, t), va := ea
          prlim := s.me.prlim, refusals := 0, since := s.cyc, ftmo := s.me.ftmo }
      if op.releases then s.withRelease (ownerScope s.cur.1 (ownerOf a)) fun s => s.sendSync r own
      else s.sendSync r own

/-- The request of a parked slot is presented to its owner again, with its admission checked again (R64, R66). -/
def syncAgain (s : State) (c : Site) (i : Nat) (r : SyncReq) : State :=
  let sl := s.slot c i
  if !s.admitted sl.ctx sl.gen (ownerOf r.addr) then s.raiseAt c i (ownTrap 4 0xD r.va 0 r.op.kind.acc)
  else s.syncArrive c i r

/-- Cancel a slot's waiting request (R65, R66). -/
def cancelSync (s : State) (c : Site) (i : Nat) (a : Nat) : State :=
  { (s.modCore (ownerOf a) fun k => { k with park := k.park.filter fun p => !(p.core == c && p.slot == i) }) with
    syncs := s.syncs.filter fun q => !(q.2.1 == c && q.2.2.1 == i) }

/-- The timeout of a slot's synchronising request that is due: PARKFULL or FTMO (R64). -/
def syncExpired (s : State) (c : Site) (i : Nat) : Option (SyncReq × Nat) :=
  match (s.slot c i).wait with
  | some (.backoff r _) =>
    if r.refusals > r.prlim then some (r, 1) else if s.cyc ≥ r.since + r.ftmo then some (r, 2) else none
  | some (.sync r) => if s.cyc ≥ r.since + r.ftmo then some (r, 2) else none
  | _ => none

end State

/-- LDF (R60, R297). -/
def execLdf (_st : Stall) (d b : Reg) (m : BitVec 2) (f : MForm) (s : State) : Out :=
  .next (s.fullEmpty .ldf d none (mAddr b m f 8 false) (mLen f))

/-- LDFE (R60, R297). -/
def execLdfe (_st : Stall) (d b : Reg) (m : BitVec 2) (f : MForm) (s : State) : Out :=
  .next (s.fullEmpty .ldfe d none (mAddr b m f 8 false) (mLen f))

/-- STE (R60, R297). -/
def execSte (_st : Stall) (d b : Reg) (m : BitVec 2) (f : MForm) (s : State) : Out :=
  .next (s.fullEmpty .ste 0 (some d) (mAddr b m f 8 false) (mLen f))

/-- STF (R60, R297). -/
def execStf (_st : Stall) (d b : Reg) (m : BitVec 2) (f : MForm) (s : State) : Out :=
  .next (s.fullEmpty .stf 0 (some d) (mAddr b m f 8 false) (mLen f))

/-- FESET (R60, R297). -/
def execFeset (_st : Stall) (b : Reg) (m : BitVec 2) (f : MForm) (s : State) : Out :=
  .next (s.fullEmpty .feset 0 none (mAddr b m f 8 false) (mLen f))

/-- FECLR (R60, R297). -/
def execFeclr (_st : Stall) (b : Reg) (m : BitVec 2) (f : MForm) (s : State) : Out :=
  .next (s.fullEmpty .feclr 0 none (mAddr b m f 8 false) (mLen f))

/-- FEQRY (R60, R297). -/
def execFeqry (_st : Stall) (d b : Reg) (m : BitVec 2) (f : MForm) (s : State) : Out :=
  .next (s.fullEmpty .feqry d none (mAddr b m f 8 false) (mLen f))

/-- SYNC_REQUEST: request `n` on its way arrives at its owner (R62); with no such request, nothing happens. -/
def execSyncRequest (n : Nat) (s : State) : Out :=
  .next (match s.syncs.find? fun q => q.1 = n with
    | some q => { s with syncs := s.syncs.filter fun q => q.1 ≠ n }.syncArrive q.2.1 q.2.2.1 q.2.2.2
    | none => s)

/-- SYNC_REPRESENT: a refused request is presented again when its backoff has passed (R64). -/
def execSyncRepresent (core slot : Nat) (s : State) : Out :=
  .next (match (s.slot core slot).wait with
    | some (.backoff r t) => if s.cyc ≥ t then s.syncAgain core slot r else s
    | _ => s)

/-- SYNC_TIMEOUT: a request past FTMO or past PRLIM is cancelled and its slot traps (R64, R65). -/
def execSyncTimeout (core slot : Nat) (s : State) : Out :=
  .next (match s.syncExpired core slot with
    | some (r, detail) => (s.cancelSync core slot r.addr).raiseAt core slot (ownTrap 8 detail r.va 0 r.op.kind.acc)
    | none => s)

end Sys2Proof.Machine
end

