-- ==== Sys2Proof/Machine/Vector.lean ====
section
/-!
DEFINITION. The vector and special-function instructions (R300 to R327): OP 0x88 to 0xA7 and 0xC8 to 0xDD.
-/

namespace Sys2Proof.Machine

/-- The distance of a vector operation (R205). -/
def vecDist (s : State) (op : VecOp) : Nat :=
  match op with
  | .vperm | .vslide | .vredadd | .vredmax | .vredmin | .vscan | .vcnt | .vcmpr | .vidx | .vkey | .vhist | .vsumgt => 3
  | .vlog2 | .vrcp | .vrsq | .vtli => 4
  | .vexp => if fieldOf s.pkg.xsplit 0 5 ≤ 8 then 4 else 5
  | _ => 2

/-- Which of the old vd, va, vb and vc an operation reads (R303). -/
def vecUses (op : VecOp) (q : Word) : Bool × Bool × Bool × Bool :=
  match op with
  | .vfma => (true, true, true, false)
  | .vscan => if fieldOf q 0 2 = 3 then (false, true, true, true) else (false, true, false, false)
  | .vcnt | .vidx => (false, false, false, false)
  | .vabs | .vneg | .vmov | .vredadd | .vredmax | .vredmin | .vcmpr | .vkey | .vhist | .vsumgt
  | .cvtB16F32 | .cvtF16F32 | .cvtF32B16 | .cvtF32F16 | .cvtE4F32 | .cvtE5F32 | .cvtF32E4 | .cvtF32E5
  | .cvtM8F32 | .cvtF32M8 | .cvtF4F32 | .cvtF32F4 | .cvtF32S32 | .cvtS32F32
  | .vexp | .vlog2 | .vrcp | .vrsq | .vtli => (false, true, false, false)
  | _ => (false, true, true, false)

/-- A function of F32 lanes (R323). -/
def vecF32 (x : VIn) (f : Nat → Nat × Flags) : VOut := laneMap x 32 x.pa fun i => f (x.la 32 i)

/-- What a vector operation gives from its sources. `vb` is the field that names a part or a form; `tb` and `tp` are the
slot's interpolation table. -/
def vecAlu (op : VecOp) (vt vb : Nat) (rm : Rm) (sat : Bool) (tb : Option (List (BitVec 32))) (tp : Bool) (x : VIn) :
    VOut :=
  let w := laneWidth vt
  let ab := wisePoison x.pa x.pb
  match op with
  | .vadd => laneMap x w ab fun i => laneAdd vt w (x.la w i) (x.lb w i)
  | .vsub => laneMap x w ab fun i => laneSub vt w (x.la w i) (x.lb w i)
  | .vmul => laneMap x w ab fun i => laneMul vt w (x.la w i) (x.lb w i)
  | .vfma => laneMap x w (wisePoison ab x.pd) fun i => laneFma vt w (x.la w i) (x.lb w i) (x.ld w i)
  | .vmin => laneMap x w ab fun i => (laneMin vt w (x.la w i) (x.lb w i), Flags.none)
  | .vmax => laneMap x w ab fun i => (laneMax vt w (x.la w i) (x.lb w i), Flags.none)
  | .vabs => laneMap x w x.pa fun i => (laneAbs vt w (x.la w i), Flags.none)
  | .vneg => laneMap x w x.pa fun i => (laneNeg vt w (x.la w i), Flags.none)
  | .vand => laneMap x w ab fun i => (x.la w i &&& x.lb w i, Flags.none)
  | .vor => laneMap x w ab fun i => (x.la w i ||| x.lb w i, Flags.none)
  | .vxor => laneMap x w ab fun i => (x.la w i ^^^ x.lb w i, Flags.none)
  | .vshl => laneMap x w ab fun i => (x.la w i * 2 ^ (x.lb w i % w) % 2 ^ w, Flags.none)
  | .vshr => laneMap x w ab fun i => (x.la w i / 2 ^ (x.lb w i % w), Flags.none)
  | .vsar => laneMap x w ab fun i => (laneOfInt w (signedLane w (x.la w i) / 2 ^ (x.lb w i % w)), Flags.none)
  | .vcmpeq | .vcmplt | .vcmple => vecCompare op vt w x
  | .vsel => vecSelect w x
  | .vmov => laneMap x w x.pa fun i => (x.la w i, Flags.none)
  | .vperm => laneMap x w (crossPoison (x.pa ++ x.pb)) fun i =>
      (if x.lb w i < 512 / w then x.la w (x.lb w i) else 0, Flags.none)
  | .vslide =>
    let n := 512 / w
    let k := min x.q.toNat n
    laneMap x w (crossPoison (x.pa ++ x.pb)) fun i =>
      (if i + k < n then x.la w (i + k) else x.lb w (i + k - n), Flags.none)
  | .vredadd => vecSum vt w x
  | .vredmax => vecExtreme w x (laneMax vt w) (maxIdentity vt w)
  | .vredmin => vecExtreme w x (laneMin vt w) (minIdentity vt w)
  | .vscan => vecScanBy vt w x
  | .vcnt => wholeOut (activeLanes x w).length noPoison Flags.none
  | .vcmpr => vecPack w x
  | .vidx => laneMap x w noPoison fun i => ((i + fieldOf x.q 0 32) % 2 ^ w, Flags.none)
  | .vkey => match VTy.ofCode vt with
    | .flt f => laneMap x w x.pa fun i => (floatKey f w (x.la w i), Flags.none)
    | _ => laneMap x w x.pa fun i => (x.la w i, Flags.none)
  | .vhist => vecHist w x
  | .vsumgt => match VTy.ofCode vt with
    | .flt f => vecSumGt f w x
    | _ => wholeOut 0 noPoison Flags.none
  | .vexp => vecF32 x vexp32
  | .vlog2 => vecF32 x fun c => log232 (f32 c)
  | .vrcp => vecF32 x fun c => recip32 (f32 c)
  | .vrsq => vecF32 x fun c => rsqrt32 (f32 c)
  | .vtli =>
    let p := if tp then List.replicate 8 true else x.pa
    if vb = 1 then laneMap x 16 p fun i => vtliElem Fmt.b16 tb (Fmt.b16.decode (x.la 16 i))
    else laneMap x 32 p fun i => vtliElem Fmt.f32 tb (f32 (x.la 32 i))
  | _ => vecConvert op vb rm sat x

namespace State

/-- A vector instruction (R302). `i` is the instruction itself, for the ILL of a VSCAN by ADD, MAX or MIN whose vb or vc
is not zero (R316). -/
def vecExec (s : State) (st : Stall) (op : VecOp) (f : VForm) (i : Instr) : State :=
  let (ud, ua, ub, uc) := vecUses op (s.reg f.x.q).val
  if op = .vscan ∧ !ub ∧ (f.b ≠ 0 ∨ f.x.vc ≠ 0) then s.raiseIll i
  else s.withVec f ud ua ub uc fun s p x =>
    let o := vecAlu op f.vt f.b.toNat (Rm.ofCode f.x.rm.toNat) f.x.sat s.me.table s.me.tablePoison x
    if VecOp.dIsMask op then s.finishK st f p o else s.finishV st f p (vecDist s op) o

end State

/-- VADD, short form (R307). -/
def execVadd (st : Stall) (d a b : VReg) (k : KReg) (t : BitVec 2) (s : State) : Out :=
  .next (s.vecExec st .vadd (vShort d a b k t) (.vadd st d a b k t))

/-- VSUB, short form (R307). -/
def execVsub (st : Stall) (d a b : VReg) (k : KReg) (t : BitVec 2) (s : State) : Out :=
  .next (s.vecExec st .vsub (vShort d a b k t) (.vsub st d a b k t))

/-- VMUL, short form (R307). -/
def execVmul (st : Stall) (d a b : VReg) (k : KReg) (t : BitVec 2) (s : State) : Out :=
  .next (s.vecExec st .vmul (vShort d a b k t) (.vmul st d a b k t))

/-- VFMA, short form (R307). -/
def execVfma (st : Stall) (d a b : VReg) (k : KReg) (t : BitVec 2) (s : State) : Out :=
  .next (s.vecExec st .vfma (vShort d a b k t) (.vfma st d a b k t))

/-- VMIN, short form (R307). -/
def execVmin (st : Stall) (d a b : VReg) (k : KReg) (t : BitVec 2) (s : State) : Out :=
  .next (s.vecExec st .vmin (vShort d a b k t) (.vmin st d a b k t))

/-- VMAX, short form (R307). -/
def execVmax (st : Stall) (d a b : VReg) (k : KReg) (t : BitVec 2) (s : State) : Out :=
  .next (s.vecExec st .vmax (vShort d a b k t) (.vmax st d a b k t))

/-- VAND, short form (R309). -/
def execVand (st : Stall) (d a b : VReg) (k : KReg) (t : BitVec 2) (s : State) : Out :=
  .next (s.vecExec st .vand (vShort d a b k t) (.vand st d a b k t))

/-- VOR, short form (R309). -/
def execVor (st : Stall) (d a b : VReg) (k : KReg) (t : BitVec 2) (s : State) : Out :=
  .next (s.vecExec st .vor (vShort d a b k t) (.vor st d a b k t))

/-- VXOR, short form (R309). -/
def execVxor (st : Stall) (d a b : VReg) (k : KReg) (t : BitVec 2) (s : State) : Out :=
  .next (s.vecExec st .vxor (vShort d a b k t) (.vxor st d a b k t))

/-- VSHL, short form (R309). -/
def execVshl (st : Stall) (d a b : VReg) (k : KReg) (t : BitVec 2) (s : State) : Out :=
  .next (s.vecExec st .vshl (vShort d a b k t) (.vshl st d a b k t))

/-- VSHR, short form (R309). -/
def execVshr (st : Stall) (d a b : VReg) (k : KReg) (t : BitVec 2) (s : State) : Out :=
  .next (s.vecExec st .vshr (vShort d a b k t) (.vshr st d a b k t))

/-- VSAR, short form (R309). -/
def execVsar (st : Stall) (d a b : VReg) (k : KReg) (t : BitVec 2) (s : State) : Out :=
  .next (s.vecExec st .vsar (vShort d a b k t) (.vsar st d a b k t))

/-- VSEL, short form (R311). -/
def execVsel (st : Stall) (d a b : VReg) (k : KReg) (t : BitVec 2) (s : State) : Out :=
  .next (s.vecExec st .vsel (vShort d a b k t) (.vsel st d a b k t))

/-- VPERM, short form (R313). -/
def execVperm (st : Stall) (d a b : VReg) (k : KReg) (t : BitVec 2) (s : State) : Out :=
  .next (s.vecExec st .vperm (vShort d a b k t) (.vperm st d a b k t))

/-- VSLIDE, short form (R313). -/
def execVslide (st : Stall) (d a b : VReg) (k : KReg) (t : BitVec 2) (s : State) : Out :=
  .next (s.vecExec st .vslide (vShort d a b k t) (.vslide st d a b k t))

/-- VSCAN, short form (R315). -/
def execVscan (st : Stall) (d a b : VReg) (k : KReg) (t : BitVec 2) (s : State) : Out :=
  .next (s.vecExec st .vscan (vShort d a b k t) (.vscan st d a b k t))

/-- VABS, short form (R308). -/
def execVabs (st : Stall) (d a : VReg) (k : KReg) (t : BitVec 2) (s : State) : Out :=
  .next (s.vecExec st .vabs (vShort d a 0 k t) (.vabs st d a k t))

/-- VNEG, short form (R308). -/
def execVneg (st : Stall) (d a : VReg) (k : KReg) (t : BitVec 2) (s : State) : Out :=
  .next (s.vecExec st .vneg (vShort d a 0 k t) (.vneg st d a k t))

/-- VMOV, short form (R309). -/
def execVmov (st : Stall) (d a : VReg) (k : KReg) (t : BitVec 2) (s : State) : Out :=
  .next (s.vecExec st .vmov (vShort d a 0 k t) (.vmov st d a k t))

/-- VREDADD, short form (R314). -/
def execVredadd (st : Stall) (d a : VReg) (k : KReg) (t : BitVec 2) (s : State) : Out :=
  .next (s.vecExec st .vredadd (vShort d a 0 k t) (.vredadd st d a k t))

/-- VREDMAX, short form (R314). -/
def execVredmax (st : Stall) (d a : VReg) (k : KReg) (t : BitVec 2) (s : State) : Out :=
  .next (s.vecExec st .vredmax (vShort d a 0 k t) (.vredmax st d a k t))

/-- VREDMIN, short form (R314). -/
def execVredmin (st : Stall) (d a : VReg) (k : KReg) (t : BitVec 2) (s : State) : Out :=
  .next (s.vecExec st .vredmin (vShort d a 0 k t) (.vredmin st d a k t))

/-- VCMPR, short form (R313). -/
def execVcmpr (st : Stall) (d a : VReg) (k : KReg) (t : BitVec 2) (s : State) : Out :=
  .next (s.vecExec st .vcmpr (vShort d a 0 k t) (.vcmpr st d a k t))

/-- VKEY, short form (R318). -/
def execVkey (st : Stall) (d a : VReg) (k : KReg) (t : BitVec 2) (s : State) : Out :=
  .next (s.vecExec st .vkey (vShort d a 0 k t) (.vkey st d a k t))

/-- VHIST, short form (R319). -/
def execVhist (st : Stall) (d a : VReg) (k : KReg) (t : BitVec 2) (s : State) : Out :=
  .next (s.vecExec st .vhist (vShort d a 0 k t) (.vhist st d a k t))

/-- VSUMGT, short form (R320). -/
def execVsumgt (st : Stall) (d a : VReg) (k : KReg) (t : BitVec 2) (s : State) : Out :=
  .next (s.vecExec st .vsumgt (vShort d a 0 k t) (.vsumgt st d a k t))

/-- VCNT, short form (R312). -/
def execVcnt (st : Stall) (d : VReg) (k : KReg) (t : BitVec 2) (s : State) : Out :=
  .next (s.vecExec st .vcnt (vShort d 0 0 k t) (.vcnt st d k t))

/-- VIDX, short form (R312). -/
def execVidx (st : Stall) (d : VReg) (k : KReg) (t : BitVec 2) (s : State) : Out :=
  .next (s.vecExec st .vidx (vShort d 0 0 k t) (.vidx st d k t))

/-- VCMPEQ, short form (R310). -/
def execVcmpeq (st : Stall) (d : KReg) (a b : VReg) (k : KReg) (t : BitVec 2) (s : State) : Out :=
  .next (s.vecExec st .vcmpeq (vShort (d.setWidth 5) a b k t) (.vcmpeq st d a b k t))

/-- VCMPLT, short form (R310). -/
def execVcmplt (st : Stall) (d : KReg) (a b : VReg) (k : KReg) (t : BitVec 2) (s : State) : Out :=
  .next (s.vecExec st .vcmplt (vShort (d.setWidth 5) a b k t) (.vcmplt st d a b k t))

/-- VCMPLE, short form (R310). -/
def execVcmple (st : Stall) (d : KReg) (a b : VReg) (k : KReg) (t : BitVec 2) (s : State) : Out :=
  .next (s.vecExec st .vcmple (vShort (d.setWidth 5) a b k t) (.vcmple st d a b k t))

/-- VCVT of a part, short form (R321). -/
def execVcvtB16F32 (st : Stall) (d a : VReg) (p : BitVec 5) (k : KReg) (s : State) : Out :=
  .next (s.vecExec st .cvtB16F32 (vShort d a p k 0) (.vcvtB16F32 st d a p k))

/-- VCVT of a part, short form (R321). -/
def execVcvtF16F32 (st : Stall) (d a : VReg) (p : BitVec 5) (k : KReg) (s : State) : Out :=
  .next (s.vecExec st .cvtF16F32 (vShort d a p k 0) (.vcvtF16F32 st d a p k))

/-- VCVT of a part, short form (R321). -/
def execVcvtF32B16 (st : Stall) (d a : VReg) (p : BitVec 5) (k : KReg) (s : State) : Out :=
  .next (s.vecExec st .cvtF32B16 (vShort d a p k 0) (.vcvtF32B16 st d a p k))

/-- VCVT of a part, short form (R321). -/
def execVcvtF32F16 (st : Stall) (d a : VReg) (p : BitVec 5) (k : KReg) (s : State) : Out :=
  .next (s.vecExec st .cvtF32F16 (vShort d a p k 0) (.vcvtF32F16 st d a p k))

/-- VCVT of a part, short form (R321). -/
def execVcvtE4F32 (st : Stall) (d a : VReg) (p : BitVec 5) (k : KReg) (s : State) : Out :=
  .next (s.vecExec st .cvtE4F32 (vShort d a p k 0) (.vcvtE4F32 st d a p k))

/-- VCVT of a part, short form (R321). -/
def execVcvtE5F32 (st : Stall) (d a : VReg) (p : BitVec 5) (k : KReg) (s : State) : Out :=
  .next (s.vecExec st .cvtE5F32 (vShort d a p k 0) (.vcvtE5F32 st d a p k))

/-- VCVT of a part, short form (R321). -/
def execVcvtF32E4 (st : Stall) (d a : VReg) (p : BitVec 5) (k : KReg) (s : State) : Out :=
  .next (s.vecExec st .cvtF32E4 (vShort d a p k 0) (.vcvtF32E4 st d a p k))

/-- VCVT of a part, short form (R321). -/
def execVcvtF32E5 (st : Stall) (d a : VReg) (p : BitVec 5) (k : KReg) (s : State) : Out :=
  .next (s.vecExec st .cvtF32E5 (vShort d a p k 0) (.vcvtF32E5 st d a p k))

/-- VCVT of a part, short form (R321). -/
def execVcvtM8F32 (st : Stall) (d a : VReg) (p : BitVec 5) (k : KReg) (s : State) : Out :=
  .next (s.vecExec st .cvtM8F32 (vShort d a p k 0) (.vcvtM8F32 st d a p k))

/-- VCVT of a part, short form (R321). -/
def execVcvtF32M8 (st : Stall) (d a : VReg) (p : BitVec 5) (k : KReg) (s : State) : Out :=
  .next (s.vecExec st .cvtF32M8 (vShort d a p k 0) (.vcvtF32M8 st d a p k))

/-- VCVT of a part, short form (R321, R322). -/
def execVcvtF4F32 (st : Stall) (d a : VReg) (p : BitVec 5) (k : KReg) (s : State) : Out :=
  .next (s.vecExec st .cvtF4F32 (vShort d a p k 0) (.vcvtF4F32 st d a p k))

/-- VCVT of a part, short form (R321, R322). -/
def execVcvtF32F4 (st : Stall) (d a : VReg) (p : BitVec 5) (k : KReg) (s : State) : Out :=
  .next (s.vecExec st .cvtF32F4 (vShort d a p k 0) (.vcvtF32F4 st d a p k))

/-- VCVT of a part, short form (R321). -/
def execVcvtF32S32 (st : Stall) (d a : VReg) (p : BitVec 5) (k : KReg) (s : State) : Out :=
  .next (s.vecExec st .cvtF32S32 (vShort d a p k 0) (.vcvtF32S32 st d a p k))

/-- VCVT of a part, short form (R321). -/
def execVcvtS32F32 (st : Stall) (d a : VReg) (p : BitVec 5) (k : KReg) (s : State) : Out :=
  .next (s.vecExec st .cvtS32F32 (vShort d a p k 0) (.vcvtS32F32 st d a p k))

/-- VEXP, short form (R101, R323). -/
def execVexp (st : Stall) (d a : VReg) (k : KReg) (s : State) : Out :=
  .next (s.vecExec st .vexp (vShort d a 0 k 0) (.vexp st d a k))

/-- VLOG2, short form (R323). -/
def execVlog2 (st : Stall) (d a : VReg) (k : KReg) (s : State) : Out :=
  .next (s.vecExec st .vlog2 (vShort d a 0 k 0) (.vlog2 st d a k))

/-- VRCP, short form (R323). -/
def execVrcp (st : Stall) (d a : VReg) (k : KReg) (s : State) : Out :=
  .next (s.vecExec st .vrcp (vShort d a 0 k 0) (.vrcp st d a k))

/-- VRSQ, short form (R323). -/
def execVrsq (st : Stall) (d a : VReg) (k : KReg) (s : State) : Out :=
  .next (s.vecExec st .vrsq (vShort d a 0 k 0) (.vrsq st d a k))

/-- VTLI, short form (R327). -/
def execVtli (st : Stall) (d a : VReg) (f : BitVec 5) (k : KReg) (s : State) : Out :=
  .next (s.vecExec st .vtli (vShort d a f k 0) (.vtli st d a f k))

/-- Any vector instruction in the long form (R250). -/
def execVectorLong (st : Stall) (op : VecOp) (d a b : VReg) (k : KReg) (t : BitVec 2) (x : VExt) (s : State) : Out :=
  .next (s.vecExec st op (vLong d a b k t x) (.vectorLong st op d a b k t x))

/-- SETVL: VL is wa, at most 128, from the next instruction on (R306). -/
def execSetvl (st : Stall) (d a : Reg) (s : State) : Out :=
  let n := min (s.reg a).val.toNat 128
  .next (s.useRegs [a]
    (s.finishW st 4 (fun s => s.modMe fun sl => sl.setStat 16 8 n) [(2, s.wr d (wordOf n) false)]))

/-- TBLSET: the slot's table, VALID when lo and hi are finite and lo < hi, and POISONED by a poisoned word (R325). -/
def execTblset (st : Stall) (a : Reg) (s : State) : Out :=
  .next (s.useRegs [a]
    (match s.ptrTarget (s.reg a).val 272 .read with
     | .error t => s.raise t
     | .ok p =>
       let s := s.settleOwn p 272 true
       let ws := (List.range 68).map fun j => BitVec.ofNat 32 (bytesNat (mread s.mem (p + 4 * j) 4))
       let lo := f32 (ws.getD 0 0).toNat
       let hi := f32 (ws.getD 1 0).toNat
       let ok := lo.isFin && hi.isFin && lo.lt hi
       (s.modMe fun sl => { sl with
         table := if ok then some ws else none
         tablePoison := s.anyPoison p 272 }).retire st 4))

end Sys2Proof.Machine
end

