-- ==== Sys2Proof/Machine/Views.lean ====
section
/-!
DEFINITION. Tensor handles, masters, views and the churns (R104 to R121, R361 to R363, R450).
-/

namespace Sys2Proof.Machine

/-! ### Handles (R104, R105) -/

/-- The entry of a handle slot: its generation and content. -/
def Ctx.handleAt (k : Ctx) (n : Nat) : Nat × Handle :=
  match k.handles.find? (·.1 = n) with
  | some (_, g, h) => (g, h)
  | none => (0, .empty)

/-- Set a handle slot. -/
def Ctx.setHandle (k : Ctx) (n g : Nat) (h : Handle) : Ctx :=
  { k with handles := aset k.handles n (g, h) }

/-- The content of a slot that a handle names (R104), or none where HANDLE is raised. -/
def Ctx.lookup (k : Ctx) (h : Nat) : Option (Nat × Handle) :=
  let n := h / 4096 % 2 ^ 20
  let (g, x) := k.handleAt n
  if n = 0 ∨ n ≥ k.hcap ∨ g ≠ h % 4096 then none
  else match x with
    | .empty | .retired => none
    | x => some (n, x)

/-- The lowest-numbered empty slot that is not retired (R105). -/
def firstEmpty : Nat → List (Nat × Nat × Handle) → Nat
  | n, [] => n
  | n, (m, _, h) :: t => if m = n ∧ h ≠ .empty then firstEmpty (n + 1) t else if m < n then firstEmpty n t else n

/-- The slot the next registration takes, if one is left. -/
def Ctx.freeHandle (k : Ctx) : Option Nat :=
  let n := firstEmpty 1 k.handles
  if n < k.hcap then some n else none

/-- Put a handle into a slot and give its name (R104). -/
def Ctx.register (k : Ctx) (n : Nat) (h : Handle) : Ctx × Nat :=
  (k.setHandle n (k.handleAt n).1 h, n * 4096 + (k.handleAt n).1)

/-- Empty a slot: its generation rises, and one dropped at 0xFFF is retired (R105). -/
def Ctx.dropHandle (k : Ctx) (n : Nat) : Ctx :=
  let g := (k.handleAt n).1
  if g = 0xFFF then k.setHandle n g .retired else k.setHandle n (g + 1) .empty

/-- HANDLE (R104, R234). -/
def handleTrap (h : Nat) : Trap := ownTrap 0x0D 0 (wordOf h) 0 3

/-- How a registration is refused. -/
inductive Refuse where
  | status (n : Nat)
  | trap (t : Trap)

/-! ### Descriptors -/

/-- MTYPE of a master. -/
def mType (w0 : Word) : Nat := fieldOf w0 0 2

/-- Elements of a master block (R106). -/
def mElems (w0 : Word) : Nat := if mType w0 = 0 then 1024 else 2048

/-- The virtual address of block 0 of a master. -/
def mBase (w0 : Word) : Nat := fieldOf w0 12 36 * 4096

/-- NBLK of a master. -/
def mBlocks (w1 : Word) : Nat := fieldOf w1 0 25

/-- Is a master descriptor well formed (R107)? -/
def masterOk (w0 w1 : Word) : Bool :=
  fieldOf w0 48 16 == 0 && fieldOf w0 4 8 == 0 && decide (fieldOf w0 2 2 ≤ 1) && mType w0 != 3 &&
    fieldOf w1 25 39 == 0 && decide (1 ≤ mBlocks w1) && decide (mBlocks w1 ≤ 2 ^ 24)

/-- VT of a view. -/
def vType (w0 : Word) : Nat := fieldOf w0 20 4

/-- LAY = TRANS. -/
def vTrans (w0 : Word) : Bool := fieldOf w0 18 2 == 1

/-- SCL = GROUP. -/
def vScaled (w0 : Word) : Bool := fieldOf w0 16 2 == 1

/-- POL. -/
def vPol (w0 : Word) : Nat := fieldOf w0 14 2

/-- SH = WBUF. -/
def vWbuf (w0 : Word) : Bool := fieldOf w0 12 2 == 1

/-- The width in bits of a target element. -/
def vWidth (w0 : Word) : Nat :=
  match vType w0 with
  | 3 => 4 | 4 => 16 | _ => 8

/-- ESZ: element bytes of a view block of `e` elements (R113). -/
def vEsz (w0 : Word) (e : Nat) : Nat := e * vWidth w0 / 8

/-- G: scale bytes of a view block. -/
def vG (w0 : Word) (e : Nat) : Nat := if vScaled w0 then e / 32 else 0

/-- VBS (R113). -/
def vBytes (w0 : Word) (e : Nat) : Nat := (vEsz w0 e + vG w0 e + 63) / 64 * 64

/-- NC of a WBUF view. -/
def vNc (w2 : Word) : Nat := fieldOf w2 16 6

/-- The site of column `i` of a WBUF view. -/
def vSite (w2 : Word) (i : Nat) : Site := Site.mk (fieldOf w2 14 2) (fieldOf w2 4 5 + i) (fieldOf w2 9 5)

/-- The first check of R112: fields, codes, combinations and alignments. -/
def viewOk (w0 w1 w2 w3 : Word) : Bool :=
  fieldOf w0 24 8 == 0 && decide (vType w0 ≤ 4) && decide (fieldOf w0 18 2 ≤ 1) && decide (fieldOf w0 16 2 ≤ 1) &&
    vPol w0 != 3 && decide (fieldOf w0 12 2 ≤ 1) && fieldOf w0 0 10 == 0 && w3 == 0 &&
    !(vType w0 == 4 && vScaled w0) &&
    !((vType w0 == 0 || vType w0 == 1 || vType w0 == 3) && !vScaled w0) &&
    (if vWbuf w0 then
      fieldOf w1 17 47 == 0 && fieldOf w1 0 6 == 0 && fieldOf w2 22 42 == 0 && fieldOf w2 0 4 == 0 &&
        decide (1 ≤ vNc w2) && decide (vNc w2 ≤ 32)
     else w1.toNat % 64 == 0 && w2.toNat % 32 == 0 && (vScaled w0 || w2 == 0))

/-! ### Conversion of a block (R114, R115) -/

/-- The largest finite magnitude of a target (R114). -/
def vMax (vt : Nat) : Nat :=
  match vt with
  | 0 => 448 | 1 => 57344 | 2 => 64 | _ => 6

/-- The smallest es with m × 2^e ≤ M × 2^es, for m not 0 (R114). -/
def scaleExp (m : Nat) (e : Int) (mx : Nat) : Int :=
  let es := e + bitLen m - bitLen mx
  let d := e - es
  if (if d ≥ 0 then m * 2 ^ d.toNat else m) ≤ (if d ≥ 0 then mx else mx * 2 ^ (-d).toNat) then es else es + 1

/-- The largest magnitude among the finite elements of a group. -/
def groupMax (g : List FV) : FV :=
  g.foldl (fun a x => match x with
    | .fin _ m e => if a.lt (.fin false m e) then .fin false m e else a
    | _ => a) FV.zero

/-- ScaleFor (R114). -/
def scaleFor (g : List FV) (vt : Nat) : Nat :=
  match groupMax g with
  | .fin _ m e => if m = 0 then 127 else (127 + min (max (scaleExp m e (vMax vt)) (-127)) 127).toNat
  | _ => 127

/-- Convert of R115: R96 with RM nearest and SAT = 1, but infinities stay where the target has them. -/
def viewConv (vt : Nat) (x : FV) : Nat :=
  let f : Fmt := match vt with
    | 0 => Fmt.e4 | 1 => Fmt.e5 | 3 => Fmt.f4 | _ => Fmt.b16
  match vt with
  | 2 => (convM8 .rne x).1
  | _ => match x, f.infCode with
    | .inf s, some i => f.signed s i
    | _, _ => (convFmt f .rne true x).1

/-- A master block's elements in the view's order: under TRANS each 32 × 32 tile is read by columns (R111). -/
def viewOrder (trans : Bool) (l : List FV) : List FV :=
  if trans then (List.range l.length).map fun i =>
    l.getD (i / 1024 * 1024 + i % 32 * 32 + i / 32 % 32) .nan
  else l

/-- The groups of 32 elements. -/
def groupsOf (l : List FV) : List (List FV) := (List.range (l.length / 32)).map fun g => (l.drop (32 * g)).take 32

/-- One group of Refresh: its scale byte and its codes (R115). -/
def refreshGroup (vt : Nat) (scaled : Bool) (g : List FV) : Nat × List Nat :=
  if vt = 3 && g.any FV.isNan then (0xFF, List.replicate 32 0)
  else
    let s := if scaled then scaleFor g vt else 127
    (s, g.map fun x => viewConv vt (x.scale (127 - (s : Int))))

/-- The element type of a master. -/
def mFmt (w0 : Word) : Fmt :=
  match mType w0 with
  | 0 => Fmt.f32 | 1 => Fmt.b16 | _ => Fmt.f16

/-- The values of a master block's bytes. -/
def masterVals (w0 : Word) (bs : List Byte) : List FV :=
  let f := mFmt w0
  let n := f.width / 8
  (List.range (4096 / n)).map fun i => f.decode (bytesNat ((bs.drop (n * i)).take n))

/-- The element bytes and scale bytes of a view block from a master block (R115). -/
def viewBlock (m0 w0 : Word) (bs : List Byte) : List Byte × List Byte :=
  let gs := (groupsOf (viewOrder (vTrans w0) (masterVals m0 bs))).map (refreshGroup (vType w0) (vScaled w0))
  let w := vWidth w0
  (gs.flatMap fun g => natBytes (32 * w / 8) (ofLanes w g.2),
    if vScaled w0 then gs.map fun g => BitVec.ofNat 8 g.1 else [])

namespace State

/-! ### Registration (R106 to R112) -/

/-- The check of one page of a master (R107): it makes no access and sets neither A nor D. -/
def viewedPage (s : State) (ctx va : Nat) : Option Refuse :=
  if va ≥ 2 ^ 48 then some (.trap (xlTrap .write 3 0x1 .own va 0))
  else match s.walk1 ctx va .write 4 (s.ctx ctx).s1root with
    | .error t => some (.trap t)
    | .ok (e, _, _) =>
      if !e.getLsbD 10 || !e.getLsbD 2 then some (.status 5)
      else match s.translate ctx va .write false with
        | .error t => some (.trap t)
        | .ok _ => none

/-- Does a range overlap a registered master or the reduction region of a context (R107)? -/
def viewOverlap (k : Ctx) (base len : Nat) : Bool :=
  let red := fieldOf k.redrgn 3 45 * 8
  let redLen := 8 * fieldOf k.redrgn 48 9
  (masters k).any (fun (_, b, n) => overlaps base len b (n * 4096)) ||
    (redLen != 0 && overlaps base len red redLen)

/-- The masters registered on the device (R107). -/
def masterCount (s : State) : Nat := s.ctxs.foldl (fun n (_, k) => n + (masters k).length) 0

/-- The checks of R107, then the empty slot and the budget. -/
def masterCheck (s : State) (ctx : Nat) (l : List Tagged) : Except Refuse Nat :=
  let w0 := blockWord l 0
  let w1 := blockWord l 1
  let k := s.ctx ctx
  if l.any (·.poison) || !masterOk w0 w1 then .error (.status 1)
  else match (List.range (mBlocks w1)).findSome? fun b => s.viewedPage ctx (mBase w0 + 4096 * b) with
    | some r => .error r
    | none =>
      if viewOverlap k (mBase w0) (mBlocks w1 * 4096) then .error (.status 6)
      else if s.masterCount ≥ 1024 then .error (.status 7)
      else match k.freeHandle with
        | none => .error (.status 3)
        | some n =>
          if k.left .memBytes < 8 * mBlocks w1 then .error (.trap (budgetTrap .memBytes (8 * mBlocks w1))) else .ok n

/-- The failure of a registration: the ADDR form, or a fault. -/
def refuseReg (s : State) (d : Reg) (len : Nat) (r : Refuse) : State :=
  match r with
  | .status n => s.done len (s.wr d (wordOf (2 ^ 63 + n)) false)
  | .trap t => s.raise t

/-- VIEW.REG of a master. -/
def regMaster (s : State) (d a : Reg) : State :=
  s.useRegs [a] (s.withBlock (s.reg a).val 16 2 fun l s =>
    let ctx := s.me.ctx
    match s.masterCheck ctx l with
    | .error r => s.refuseReg d 4 r
    | .ok n =>
      let (k, h) := (s.ctx ctx).register n (.master (blockWord l 0) (blockWord l 1))
      let s := s.modCtx ctx fun _ => { k with versions := k.versions.filter fun v => v.1 / 2 ^ 32 != n }
      (s.charge ctx .memBytes (8 * mBlocks (blockWord l 1))).done 4 (s.wr d (wordOf h) false))

/-- The views of a master: slots and first descriptor words. -/
def viewsOf (k : Ctx) (m : Nat) : List (Nat × Word) :=
  k.handles.filterMap fun (v, _, h) => match h with
    | .view m' w0 .. => if m' = m then some (v, w0) else none
    | _ => none

/-- The WBUF check of R112. -/
def wbufOk (s : State) (ctx : Nat) (w0 w1 w2 : Word) (nblk e : Nat) : Bool :=
  let k := s.ctx ctx
  decide (fieldOf w2 4 5 + vNc w2 ≤ 32) &&
    (List.range (vNc w2)).all (fun i => !s.fused (vSite w2 i) && s.admitted ctx k.gen (vSite w2 i)) &&
    decide (fieldOf w1 0 17 + (nblk + vNc w2 - 1) / vNc w2 * vBytes w0 e ≤ Buf.w.size)

/-- The first fault of a write to the pages of a range (R112, R450). -/
def pagesFault (s : State) (ctx base len : Nat) : Option Trap :=
  if len = 0 then none
  else if base ≥ 2 ^ 63 then some (ownTrap 4 0xB (wordOf base) 0 1)
  else (List.range ((base + len - 1) / 4096 - base / 4096 + 1)).findSome? fun i =>
    let va := if i = 0 then base else (base / 4096 + i) * 4096
    if va ≥ 2 ^ 48 then some (xlTrap .write 3 0x1 .own va 0)
    else match s.translate ctx va .write false with
      | .error t => some t
      | .ok _ => none

/-- The checks of R112, then the budget: the new slot, and the master's slot and blocks. -/
def viewCheck (s : State) (ctx : Nat) (l : List Tagged) : Except Refuse (Nat × Nat × Nat) :=
  let w0 := blockWord l 0
  let w1 := blockWord l 1
  let w2 := blockWord l 2
  let k := s.ctx ctx
  let hm := fieldOf w0 32 32
  if l.any (·.poison) || !viewOk w0 w1 w2 (blockWord l 3) then .error (.status 1)
  else match k.lookup hm with
    | some (m, .master m0 m1) =>
      let e := mElems m0
      let nblk := mBlocks m1
      if (vType w0 = 4 ∧ mType m0 ≠ 0) ∨ (vTrans w0 ∧ fieldOf m0 2 2 ≠ 1) then .error (.status 1)
      else if (viewsOf k m).length ≥ 8 then .error (.status 2)
      else if vWbuf w0 && !s.wbufOk ctx w0 w1 w2 nblk e then .error (.status 1)
      else
        let pages := if vWbuf w0 then none else
          (s.pagesFault ctx w1.toNat (nblk * vEsz w0 e)).or (s.pagesFault ctx w2.toNat (nblk * vG w0 e))
        match pages with
        | some t => .error (.trap t)
        | none => match k.freeHandle with
          | none => .error (.status 3)
          | some n =>
            if k.left .memBytes < 8 * nblk then .error (.trap (budgetTrap .memBytes (8 * nblk)))
            else .ok (n, m, nblk)
    | _ => .error (.trap (handleTrap hm))

/-- VIEW.REG of a view: every block is queued for its first refresh. -/
def regView (s : State) (d a : Reg) : State :=
  s.useRegs [a] (s.withBlock (s.reg a).val 32 4 fun l s =>
    let ctx := s.me.ctx
    match s.viewCheck ctx l with
    | .error r => s.refuseReg d 4 r
    | .ok (n, m, nblk) =>
      let w0 := blockWord l 0
      let (k, h) := (s.ctx ctx).register n (.view m w0 (blockWord l 1) (blockWord l 2) s.cur.1 s.cur.2)
      let s := s.modCtx ctx fun _ => { k with tags := k.tags.filter fun v => v.1 / 2 ^ 32 != n }
      let s := (List.range nblk).foldl (fun s b => s.queueBlock ctx n b w0) s
      (s.charge ctx .memBytes (8 * nblk)).done 4 (s.wr d (wordOf h) false))

/-- Remove a dropped view's queued and PEND blocks, tag records and failures (R121). -/
def forgetView (s : State) (ctx n die : Nat) : State :=
  (s.modDie die fun x => { x with churn := x.churn.filter fun i => !(i.ctx == ctx && i.view == n) }).modCtx ctx fun k =>
    { k with
      tags := k.tags.filter fun v => v.1 / 2 ^ 32 != n
      unmapped := k.unmapped.filter fun v => v / 2 ^ 32 != n }

/-- VIEW.DROP (R105, R112, R121). -/
def dropView (s : State) (d a : Reg) : State :=
  s.useRegs [a] (s.withRelease .dev fun s =>
    let ctx := s.me.ctx
    let k := s.ctx ctx
    let h := fieldOf (s.reg a).val 0 32
    match k.lookup h with
    | some (n, .master _ m1) =>
      if (viewsOf k n).isEmpty then
        ((s.modCtx ctx fun k => { (k.dropHandle n) with
            versions := k.versions.filter fun v => v.1 / 2 ^ 32 != n }).refund ctx .memBytes (8 * mBlocks m1)).done 4
          (s.wr d 0 false)
      else s.done 4 (s.wr d 4 false)
    | some (n, .view m w0 ..) =>
      let blocks := match (k.handleAt m).2 with
        | .master _ m1 => mBlocks m1
        | _ => 0
      (((s.modCtx ctx fun k => k.dropHandle n).forgetView ctx n (fieldOf w0 10 2)).refund ctx .memBytes (8 * blocks)).done 4
        (s.wr d 0 false)
    | _ => s.raise (handleTrap h))

/-! ### Reading a view (R119, R361, R362) -/

/-- The version and tag record of a view block, and whether it is fresh (R118). -/
def blockFresh (k : Ctx) (view master b : Nat) : Word × Bool :=
  let t := aget k.tags 0 (blockKey view b)
  (t, t.getLsbD 31 && fieldOf t 32 32 == (aget k.versions 0 (blockKey master b)).toNat)

/-- The result word of VIEW.LD and VIEW.WAIT (R362). -/
def viewWord (tag : Word) (stale : Bool) (bytes : Nat) : Word :=
  wordOf (fieldOf tag 32 32 * 2 ^ 32 + stale.toNat * 2 ^ 31 + fieldOf tag 30 1 * 2 ^ 30 + bytes)

/-- The destination of VIEW.LD (R361). -/
def viewDst (s : State) (va : Word) (n : Nat) : Except Trap Nat :=
  if va.toNat % 64 ≠ 0 then .error (ownTrap 4 0xB va 0 1) else s.ptrTarget va n .write

/-- Send a request to a view's churn and park (R119, R361). -/
def askChurn (s : State) (d : Reg) (len view : Nat) (handle : Word) (w0 : Word) (b pol : Nat) (dst : Option Nat)
    (bytes : Nat) : State :=
  let (n, s) := s.fresh
  let die := fieldOf w0 10 2
  let hold (s : State) (a : Nat) : State := (List.range (bytes / 8)).foldl (fun s j => s.engineHold (a + 8 * j)) s
  let s := match dst with
    | some a => hold (s.settleOwn a bytes true) a
    | none => s
  let since := s.me.parkedSince.getD s.cyc
  let r : ViewReq :=
    { n := n, core := s.cur.1, slot := s.cur.2, ctx := s.me.ctx, view := view, block := b, pol := pol, dst := dst
      bytes := bytes, d := d, len := len, since := since, ftmo := s.me.ftmo, waiting := false }
  (s.parkMe (.view die n handle (since + s.me.ftmo))).modDie die fun x => { x with viewReqs := x.viewReqs ++ [r] }

/-- VIEW.LD, and VIEW.WAIT with no destination (R119, R361). A handle is 32 bits (R104): bits [63:32] of its register are not
looked at, a choice of the model (log entry 35). -/
def viewRead (s : State) (d a b : Reg) (c : Option Reg) : State :=
  s.useRegs ([a, b] ++ c.toList)
    (let k := s.myCtx
     let h := fieldOf (s.reg a).val 0 32
     let blk := (s.reg b).val.toNat
     match k.lookup h with
     | some (n, .view m w0 ..) =>
       match (k.handleAt m).2 with
       | .master m0 m1 =>
         let bytes := if c.isSome then vBytes w0 (mElems m0) else 0
         let range := s.done 8 (s.wr d (wordOf (2 ^ 26)) false)
         match c with
         | some c => match s.viewDst (s.reg c).val bytes with
           | .error t => s.raise t
           | .ok p => if blk ≥ mBlocks m1 then range
             else s.afterSig true fun s => s.askChurn d 8 n (wordOf h) w0 blk (vPol w0) (some p) bytes
         | none => if blk ≥ mBlocks m1 then range else s.afterSig true fun s => s.askChurn d 8 n (wordOf h) w0 blk 0 none 0
       | _ => s.raise (handleTrap h)
     | _ => s.raise (handleTrap h))

/-- Remove a request from its churn. -/
def dropReq (s : State) (die n : Nat) : State :=
  s.modDie die fun x => { x with viewReqs := x.viewReqs.filter fun r => r.n != n }

/-- Read `n` bytes as words at consecutive addresses given by `at_`. -/
def gatherWords (s : State) (ctx : Nat) (base n : Nat) : Except Trap (List Tagged × State) :=
  s.readBlock ctx (wordOf base) (n / 8)

/-- The words of a view block's storage, elements then scales (R113). What fills the block up to VBS is the model's choice (log
entry 35): the bytes that follow in W, or zeros after DEVMEM storage. -/
def viewStorage (s : State) (ctx : Nat) (w0 w1 w2 : Word) (e b : Nat) : Except Trap (List Tagged × State) :=
  if vWbuf w0 then
    let a := bufAddr (vSite w2 (b % vNc w2)) .w (fieldOf w1 0 17 + b / vNc w2 * vBytes w0 e)
    .ok ((List.range (vBytes w0 e / 8)).map (fun j => s.word (a + 8 * j)), s)
  else match s.gatherWords ctx (w1.toNat + b * vEsz w0 e) (vEsz w0 e) with
    | .error t => .error t
    | .ok (l, s) => match s.gatherWords ctx (w2.toNat + b * vG w0 e) (vG w0 e) with
      | .error t => .error t
      | .ok (m, s) => .ok (l ++ m, s)

/-- Write words to a destination as engine writes. -/
def engineWords (s : State) (a : Nat) (l : List Tagged) : State :=
  (l.zip (List.range l.length)).foldl (fun s (t, j) => s.engineWrite (a + 8 * j) t) s

/-- Answer a request: its data, filled with zeros to its length, then its word (R361, R362). -/
def viewAnswer (s : State) (die : Nat) (r : ViewReq) (data : List Tagged) (w : Word) : State :=
  let s := s.dropReq die r.n
  let s := match r.dst with
    | some a => s.engineWords a (data ++ List.replicate (r.bytes / 8 - data.length) (⟨0, false⟩ : Tagged))
    | none => s
  s.complete r.core r.slot r.len (s.regWrite r.core r.slot r.d ⟨w, false⟩)

/-- Does the wait of a slot's view request run out: one under WAIT that found its block stale (R119)? -/
def viewExpired (s : State) (c : Site) (i u : Nat) : Bool :=
  decide (u ≤ s.cyc) && (List.range 4).any fun d => (s.die d).viewReqs.any fun r => r.core == c && r.slot == i && r.waiting

/-- Does a reservation hold a word of the destination of a request (R187)? -/
def answerHeld (s : State) (r : ViewReq) : Bool :=
  match r.dst with
  | some a => (wordsOf a r.bytes).any fun w => s.isReserved (8 * w)
  | none => false

/-- End a request with a trap at its instruction: its destination words become full and settle (R361). -/
def viewFail (s : State) (r : ViewReq) (t : Trap) : State := (s.endViewReq r.core r.slot).raiseAt r.core r.slot t

/-- The churn serves a request (R119); one whose destination a reservation holds waits for its release (R187). -/
def serveReq (s : State) (die : Nat) (r : ViewReq) : State :=
  if s.answerHeld r then s else
  let k := s.ctx r.ctx
  let h := match (s.slot r.core r.slot).wait with
    | some (.view _ _ h _) => h
    | _ => 0
  let wait (s : State) : State := s.modDie die fun x =>
    { x with viewReqs := x.viewReqs.map fun q => if q.n = r.n then { q with waiting := true } else q }
  match k.lookup h.toNat with
  | some (n, .view m w0 w1 w2 _ _) =>
    let e := match (k.handleAt m).2 with
      | .master m0 _ => mElems m0
      | _ => 0
    let (tag, fresh) := blockFresh k n m r.block
    if fresh || (r.pol = 1 && tag.getLsbD 31) then
      if r.dst.isNone then s.viewAnswer die r [] (viewWord tag (!fresh) 0)
      else match s.viewStorage r.ctx w0 w1 w2 e r.block with
        | .error t => s.viewFail r t
        | .ok (l, s) => s.viewAnswer die r l (viewWord tag (!fresh) r.bytes)
    else match r.pol with
      | 1 => s.viewAnswer die r [] (viewWord 0 true r.bytes)
      | 2 => s.viewFail r (ownTrap 0x0E 0 h (wordOf r.block) 3)
      | _ =>
        let queued := (s.die die).churn.contains (⟨r.ctx, n, r.block⟩ : ChurnItem) || tag.getLsbD 29
        wait (if queued then s else s.queueBlock r.ctx n r.block w0)
  | _ => if r.pol = 1 then s.viewAnswer die r [] (viewWord 0 true r.bytes) else wait s

/-! ### Refresh and publication (R115 to R118, R120, R450) -/

/-- Tell the registering context: at the slot that registered the view while that slot still runs it, else at a slot
that does (R120, R450). -/
def viewFault (s : State) (ctx : Nat) (c : Site) (i : Nat) (detail handle b : Nat) : State :=
  let runs (p : Site × Nat) : Bool :=
    let sl := s.slot p.1 p.2
    sl.ctx == ctx && sl.gen == (s.ctx ctx).gen && sl.state != .free && sl.state != .exited
  let t := ownTrap 0x0F detail (wordOf handle) (wordOf b) 3
  if runs (c, i) then s.notice c i t
  else match s.allSlots.find? runs with
    | some p => s.notice p.1 p.2 t
    | none => s

/-- The physical words a publication writes, in order; none where a translation fails or a site no longer admits the
context (R113, R450). R108 does not say whether a publication into storage that is itself a viewed
master is a master write: in the model it is none (log entry 35). -/
def publishTargets (s : State) (ctx : Nat) (w0 w1 w2 : Word) (e b : Nat) : Option (List Nat × State) :=
  if vWbuf w0 then
    let c := vSite w2 (b % vNc w2)
    if s.admitted ctx (s.ctx ctx).gen c then
      let a := bufAddr c .w (fieldOf w1 0 17 + b / vNc w2 * vBytes w0 e)
      some ((List.range ((vEsz w0 e + vG w0 e) / 8)).map fun j => a + 8 * j, s)
    else none
  else
    let vas := (List.range (vEsz w0 e / 8)).map (fun j => w1.toNat + b * vEsz w0 e + 8 * j) ++
      (List.range (vG w0 e / 8)).map (fun j => w2.toNat + b * vG w0 e + 8 * j)
    vas.foldr (fun va acc => acc.bind fun (l, s) =>
      match s.translateDirect ctx (wordOf va) .write with
      | .ok (a, _, s) => some (a :: l, s)
      | .error _ => none) (some ([], s))

/-- A refresh that cannot publish: it is reported once (R450). -/
def publishFail (s : State) (ctx n b handle : Nat) (c : Site) (i : Nat) : State :=
  if (s.ctx ctx).unmapped.contains (blockKey n b) then s
  else (s.modCtx ctx fun k => { k with unmapped := nset k.unmapped (blockKey n b) }).viewFault ctx c i 2 handle b

/-- The requests that wait for a block are served again (R119). -/
def wakeReqs (s : State) (die ctx n b : Nat) : State :=
  s.modDie die fun x => { x with viewReqs := x.viewReqs.map fun r =>
    if r.ctx = ctx ∧ r.view = n ∧ r.block = b then { r with waiting := false } else r }

/-- Publish a block (R116, R118, R120). The W write port of a core whose buffer takes it is held for a free time. -/
def publish (s : State) (die ctx n b handle : Nat) (targets : List Nat) (data : List Byte) (bad : Bool) (ver : Nat)
    (c : Site) (i : Nat) : State :=
  let s := (targets.zip (List.range targets.length)).foldl (fun s (a, j) =>
    s.engineWrite a ⟨wordOf (bytesNat ((data.drop (8 * j)).take 8)), bad⟩) s
  let s := match targets.head? with
    | some a => if a < 2 ^ 40 then s else
      let (v, s) := s.drawNat Config.freeNat
      s.modCore (ownerOf a) fun k => { k with portFree := max k.portFree (s.cyc + v) }
    | none => s
  let old := aget (s.ctx ctx).tags 0 (blockKey n b)
  let new := setField (setField (setField old 32 32 ver) 31 1 1) 30 1 bad.toNat
  let s := s.modCtx ctx fun k => { k with
    tags := aset k.tags (blockKey n b) new
    unmapped := ndel k.unmapped (blockKey n b) }
  let s := s.wakeReqs die ctx n b
  if bad && !old.getLsbD 30 then s.viewFault ctx c i 1 handle b else s

/-- Refresh of one block (R115). A block whose tag is its master's version already is not published again (R117). A publication
waits while a reservation holds a word of it (R187). -/
def refresh (s : State) (die : Nat) (it : ChurnItem) : State :=
  let k := s.ctx it.ctx
  match k.handleAt it.view with
  | (g, .view m w0 w1 w2 c i) =>
    let handle := it.view * 4096 + g
    match (k.handleAt m).2 with
    | .master m0 _ =>
      let e := mElems m0
      if (blockFresh k it.view m it.block).2 then s
      else match s.readBlock it.ctx (wordOf (mBase m0 + 4096 * it.block)) 512 with
      | .error _ => s.publishFail it.ctx it.view it.block handle c i
      | .ok (l, s) => match s.publishTargets it.ctx w0 w1 w2 e it.block with
        | none => s.publishFail it.ctx it.view it.block handle c i
        | some (targets, s) =>
          let (es, sc) := viewBlock m0 w0 (l.flatMap fun t => natBytes 8 t.val.toNat)
          if targets.any s.isReserved then s.modDie die fun x => { x with churn := it :: x.churn }
          else s.publish die it.ctx it.view it.block handle targets (es ++ sc) (l.any (·.poison))
            (aget k.versions 0 (blockKey m it.block)).toNat c i
    | _ => s
  | _ => s

/-- CHURN_REFRESH at a die: its first queued block (R115, R117). -/
def churnStep (s : State) (die : Nat) : State :=
  match (s.die die).churn with
  | [] => s
  | it :: rest => (s.modDie die fun x => { x with churn := rest }).refresh die it

/-- The first PEND block of a die's churn, in ascending view and block order (R117); the views of several contexts are taken in
ascending context number, a choice of the model (log entry 35). -/
def pendingBlock (s : State) (die : Nat) : Option (Nat × Nat) :=
  s.ctxs.findSome? fun (n, k) => (k.tags.find? fun (key, t) =>
    t.getLsbD 29 && (match (k.handleAt (key / 2 ^ 32)).2 with
      | .view _ w0 .. => fieldOf w0 10 2 == die
      | _ => false)).map fun (key, _) => (n, key)

/-- PEND_TAKE at a die (R117). -/
def pendStep (s : State) (die : Nat) : State :=
  if (s.die die).churn.length ≥ 4096 then s
  else match s.pendingBlock die with
    | none => s
    | some (n, key) =>
      let s := s.modCtx n fun k => { k with tags := aset k.tags key (setField (aget k.tags 0 key) 29 1 0) }
      s.modDie die fun x => { x with churn := x.churn ++ [⟨n, key / 2 ^ 32, key % 2 ^ 32⟩] }

end State

/-- VIEW.REG.MST (R107, R361). -/
def execViewRegMst (_st : Stall) (d a : Reg) (s : State) : Out := .next (s.regMaster d a)

/-- VIEW.REG.DRV (R112, R361). -/
def execViewRegDrv (_st : Stall) (d a : Reg) (s : State) : Out := .next (s.regView d a)

/-- VIEW.DROP (R121, R361). -/
def execViewDrop (_st : Stall) (d a : Reg) (s : State) : Out := .next (s.dropView d a)

/-- VIEW.LD (R119, R361). -/
def execViewLd (_st : Stall) (d a b c : Reg) (s : State) : Out := .next (s.viewRead d a b (some c))

/-- VIEW.WAIT (R361). -/
def execViewWait (_st : Stall) (d a b : Reg) (s : State) : Out := .next (s.viewRead d a b none)

/-- CHURN_REFRESH (R115). -/
def execChurnRefresh (die : Nat) (s : State) : Out := .next (s.churnStep die)

/-- PEND_TAKE (R117). -/
def execPendTake (die : Nat) (s : State) : Out := .next (s.pendStep die)

/-- CHURN_SERVE: the churn serves request `n` unless it waits for a publication (R119). -/
def execChurnServe (die n : Nat) (s : State) : Out :=
  .next (match (s.die die).viewReqs.find? fun r => r.n = n with
    | some r => if r.waiting then s else s.serveReq die r
    | none => s)

/-- VIEW_WAIT_TIMEOUT: a waiting request past FTMO raises SYNC_TIMEOUT with detail VIEWWAIT (R119). -/
def execViewWaitTimeout (core slot : Nat) (s : State) : Out :=
  .next (match (s.slot core slot).wait with
    | some (.view _ _ h u) =>
      if s.viewExpired core slot u then (s.endViewReq core slot).raiseAt core slot (ownTrap 8 3 h 0 0) else s
    | _ => s)

end Sys2Proof.Machine
end

