-- ==== Sys2Proof/Machine/Dispatch.lean ====
section
/-!
DEFINITION. One arm per constructor of `Instr`: the meaning of each step of the part.
-/

namespace Sys2Proof.Machine

-- One step of the part, by its meaning.
def exec (i : Instr) (s : State) : Host.Outcome State Fault Refusal :=
  match i with
  | .add st d a b t => Sys2Proof.Machine.execAdd st d a b t s
  | .sub st d a b t => Sys2Proof.Machine.execSub st d a b t s
  | .addi st d a i_ => Sys2Proof.Machine.execAddi st d a i_ s
  | .addiLong st d a i_ => Sys2Proof.Machine.execAddiLong st d a i_ s
  | .mul st d a b t => Sys2Proof.Machine.execMul st d a b t s
  | .mulh st d a b t => Sys2Proof.Machine.execMulh st d a b t s
  | .mulhu st d a b t => Sys2Proof.Machine.execMulhu st d a b t s
  | .div st d a b t => Sys2Proof.Machine.execDiv st d a b t s
  | .divu st d a b t => Sys2Proof.Machine.execDivu st d a b t s
  | .rem st d a b t => Sys2Proof.Machine.execRem st d a b t s
  | .remu st d a b t => Sys2Proof.Machine.execRemu st d a b t s
  | .and st d a b => Sys2Proof.Machine.execAnd st d a b s
  | .or st d a b => Sys2Proof.Machine.execOr st d a b s
  | .xor st d a b => Sys2Proof.Machine.execXor st d a b s
  | .andn st d a b => Sys2Proof.Machine.execAndn st d a b s
  | .andi st d a i_ => Sys2Proof.Machine.execAndi st d a i_ s
  | .ori st d a i_ => Sys2Proof.Machine.execOri st d a i_ s
  | .xori st d a i_ => Sys2Proof.Machine.execXori st d a i_ s
  | .shl st d a b t => Sys2Proof.Machine.execShl st d a b t s
  | .shr st d a b t => Sys2Proof.Machine.execShr st d a b t s
  | .sar st d a b t => Sys2Proof.Machine.execSar st d a b t s
  | .shli st d a i_ => Sys2Proof.Machine.execShli st d a i_ s
  | .shri st d a i_ => Sys2Proof.Machine.execShri st d a i_ s
  | .sari st d a i_ => Sys2Proof.Machine.execSari st d a i_ s
  | .rotl st d a b t => Sys2Proof.Machine.execRotl st d a b t s
  | .min st d a b t => Sys2Proof.Machine.execMin st d a b t s
  | .max st d a b t => Sys2Proof.Machine.execMax st d a b t s
  | .minu st d a b t => Sys2Proof.Machine.execMinu st d a b t s
  | .maxu st d a b t => Sys2Proof.Machine.execMaxu st d a b t s
  | .seq st d a b t => Sys2Proof.Machine.execSeq st d a b t s
  | .sne st d a b t => Sys2Proof.Machine.execSne st d a b t s
  | .slt st d a b t => Sys2Proof.Machine.execSlt st d a b t s
  | .sltu st d a b t => Sys2Proof.Machine.execSltu st d a b t s
  | .slti st d a i_ => Sys2Proof.Machine.execSlti st d a i_ s
  | .clz st d a t => Sys2Proof.Machine.execClz st d a t s
  | .ctz st d a t => Sys2Proof.Machine.execCtz st d a t s
  | .popc st d a t => Sys2Proof.Machine.execPopc st d a t s
  | .bext st d a b => Sys2Proof.Machine.execBext st d a b s
  | .bins st d a b => Sys2Proof.Machine.execBins st d a b s
  | .sel st d a b => Sys2Proof.Machine.execSel st d a b s
  | .movi st d i_ => Sys2Proof.Machine.execMovi st d i_ s
  | .lea st d b m x => Sys2Proof.Machine.execLea st d b m x s
  | .leaLong st d b m ty x => Sys2Proof.Machine.execLeaLong st d b m ty x s
  | .leam st d a mf off => Sys2Proof.Machine.execLeam st d a mf off s
  | .clmul st d a b => Sys2Proof.Machine.execClmul st d a b s
  | .clmulh st d a b => Sys2Proof.Machine.execClmulh st d a b s
  | .fadd st d a b => Sys2Proof.Machine.execFadd st d a b s
  | .fsub st d a b => Sys2Proof.Machine.execFsub st d a b s
  | .fmul st d a b => Sys2Proof.Machine.execFmul st d a b s
  | .fma st d a b => Sys2Proof.Machine.execFma st d a b s
  | .fmin st d a b => Sys2Proof.Machine.execFmin st d a b s
  | .fmax st d a b => Sys2Proof.Machine.execFmax st d a b s
  | .feq st d a b => Sys2Proof.Machine.execFeq st d a b s
  | .flt st d a b => Sys2Proof.Machine.execFlt st d a b s
  | .fle st d a b => Sys2Proof.Machine.execFle st d a b s
  | .fcls st d a => Sys2Proof.Machine.execFcls st d a s
  | .fcvt st d a pair sat rm => Sys2Proof.Machine.execFcvt st d a pair sat rm s
  | .beq st a b p => Sys2Proof.Machine.execBeq st a b p s
  | .bne st a b p => Sys2Proof.Machine.execBne st a b p s
  | .blt st a b p => Sys2Proof.Machine.execBlt st a b p s
  | .bge st a b p => Sys2Proof.Machine.execBge st a b p s
  | .blo st a b p => Sys2Proof.Machine.execBlo st a b p s
  | .bhs st a b p => Sys2Proof.Machine.execBhs st a b p s
  | .branchLong st op a b p => Sys2Proof.Machine.execBranchLong st op a b p s
  | .jmp st p => Sys2Proof.Machine.execJmp st p s
  | .jal st d p => Sys2Proof.Machine.execJal st d p s
  | .jalr st d a i_ => Sys2Proof.Machine.execJalr st d a i_ s
  | .loop st n i_ count => Sys2Proof.Machine.execLoop st n i_ count s
  | .loopr st n a i_ => Sys2Proof.Machine.execLoopr st n a i_ s
  | .loopm st n m i_ => Sys2Proof.Machine.execLoopm st n m i_ s
  | .rpt st len n sd sa sb sc => Sys2Proof.Machine.execRpt st len n sd sa sb sc s
  | .exit st a => Sys2Proof.Machine.execExit st a s
  | .nop st => Sys2Proof.Machine.execNop st s
  | .yield st => Sys2Proof.Machine.execYield st s
  | .ld st d b m x => Sys2Proof.Machine.execLd st d b m x s
  | .ldLong st d b m ty x => Sys2Proof.Machine.execLdLong st d b m ty x s
  | .st st d b m x => Sys2Proof.Machine.execSt st d b m x s
  | .stLong st d b m ty x => Sys2Proof.Machine.execStLong st d b m ty x s
  | .ldx st d b f => Sys2Proof.Machine.execLdx st d b f s
  | .stx st d b f => Sys2Proof.Machine.execStx st d b f s
  | .lds st d b m f => Sys2Proof.Machine.execLds st d b m f s
  | .pref st b m f => Sys2Proof.Machine.execPref st b m f s
  | .ldf st d b m f => Sys2Proof.Machine.execLdf st d b m f s
  | .ldfe st d b m f => Sys2Proof.Machine.execLdfe st d b m f s
  | .ste st d b m f => Sys2Proof.Machine.execSte st d b m f s
  | .stf st d b m f => Sys2Proof.Machine.execStf st d b m f s
  | .feset st b m f => Sys2Proof.Machine.execFeset st b m f s
  | .feclr st b m f => Sys2Proof.Machine.execFeclr st b m f s
  | .feqry st d b m f => Sys2Proof.Machine.execFeqry st d b m f s
  | .ldv st d b m f => Sys2Proof.Machine.execLdv st d b m f s
  | .stv st d b m f => Sys2Proof.Machine.execStv st d b m f s
  | .ldvx st d b f => Sys2Proof.Machine.execLdvx st d b f s
  | .stvx st d b f => Sys2Proof.Machine.execStvx st d b f s
  | .ldvb st d b m f => Sys2Proof.Machine.execLdvb st d b m f s
  | .ldAcq st d b m f => Sys2Proof.Machine.execLdAcq st d b m f s
  | .stRel st d b m scope sz x => Sys2Proof.Machine.execStRel st d b m scope sz x s
  | .amo st op d a b acq rel scope => Sys2Proof.Machine.execAmo st op d a b acq rel scope s
  | .cas st d a b c acq rel scope => Sys2Proof.Machine.execCas st d a b c acq rel scope s
  | .rsv st d a => Sys2Proof.Machine.execRsv st d a s
  | .rwb st d a b => Sys2Proof.Machine.execRwb st d a b s
  | .rlsn st d a => Sys2Proof.Machine.execRlsn st d a s
  | .redF32 st a b => Sys2Proof.Machine.execRedF32 st a b s
  | .fence st scope => Sys2Proof.Machine.execFence st scope s
  | .fenceE st scope => Sys2Proof.Machine.execFenceE st scope s
  | .mon st line a => Sys2Proof.Machine.execMon st line a s
  | .moff st line => Sys2Proof.Machine.execMoff st line s
  | .waitm st d a => Sys2Proof.Machine.execWaitm st d a s
  | .barClu st => Sys2Proof.Machine.execBarClu st s
  | .barGang st => Sys2Proof.Machine.execBarGang st s
  | .sigdec st a b => Sys2Proof.Machine.execSigdec st a b s
  | .sigwait st d a b => Sys2Proof.Machine.execSigwait st d a b s
  | .vadd st d a b k t => Sys2Proof.Machine.execVadd st d a b k t s
  | .vsub st d a b k t => Sys2Proof.Machine.execVsub st d a b k t s
  | .vmul st d a b k t => Sys2Proof.Machine.execVmul st d a b k t s
  | .vfma st d a b k t => Sys2Proof.Machine.execVfma st d a b k t s
  | .vmin st d a b k t => Sys2Proof.Machine.execVmin st d a b k t s
  | .vmax st d a b k t => Sys2Proof.Machine.execVmax st d a b k t s
  | .vabs st d a k t => Sys2Proof.Machine.execVabs st d a k t s
  | .vneg st d a k t => Sys2Proof.Machine.execVneg st d a k t s
  | .vand st d a b k t => Sys2Proof.Machine.execVand st d a b k t s
  | .vor st d a b k t => Sys2Proof.Machine.execVor st d a b k t s
  | .vxor st d a b k t => Sys2Proof.Machine.execVxor st d a b k t s
  | .vshl st d a b k t => Sys2Proof.Machine.execVshl st d a b k t s
  | .vshr st d a b k t => Sys2Proof.Machine.execVshr st d a b k t s
  | .vsar st d a b k t => Sys2Proof.Machine.execVsar st d a b k t s
  | .vcmpeq st d a b k t => Sys2Proof.Machine.execVcmpeq st d a b k t s
  | .vcmplt st d a b k t => Sys2Proof.Machine.execVcmplt st d a b k t s
  | .vcmple st d a b k t => Sys2Proof.Machine.execVcmple st d a b k t s
  | .vsel st d a b k t => Sys2Proof.Machine.execVsel st d a b k t s
  | .vmov st d a k t => Sys2Proof.Machine.execVmov st d a k t s
  | .vperm st d a b k t => Sys2Proof.Machine.execVperm st d a b k t s
  | .vslide st d a b k t => Sys2Proof.Machine.execVslide st d a b k t s
  | .vredadd st d a k t => Sys2Proof.Machine.execVredadd st d a k t s
  | .vredmax st d a k t => Sys2Proof.Machine.execVredmax st d a k t s
  | .vredmin st d a k t => Sys2Proof.Machine.execVredmin st d a k t s
  | .vscan st d a b k t => Sys2Proof.Machine.execVscan st d a b k t s
  | .vcnt st d k t => Sys2Proof.Machine.execVcnt st d k t s
  | .vcmpr st d a k t => Sys2Proof.Machine.execVcmpr st d a k t s
  | .vidx st d k t => Sys2Proof.Machine.execVidx st d k t s
  | .vkey st d a k t => Sys2Proof.Machine.execVkey st d a k t s
  | .vhist st d a k t => Sys2Proof.Machine.execVhist st d a k t s
  | .vsumgt st d a k t => Sys2Proof.Machine.execVsumgt st d a k t s
  | .vectorLong st op d a b k t x => Sys2Proof.Machine.execVectorLong st op d a b k t x s
  | .setvl st d a => Sys2Proof.Machine.execSetvl st d a s
  | .vcvtB16F32 st d a p k => Sys2Proof.Machine.execVcvtB16F32 st d a p k s
  | .vcvtF16F32 st d a p k => Sys2Proof.Machine.execVcvtF16F32 st d a p k s
  | .vcvtF32B16 st d a p k => Sys2Proof.Machine.execVcvtF32B16 st d a p k s
  | .vcvtF32F16 st d a p k => Sys2Proof.Machine.execVcvtF32F16 st d a p k s
  | .vcvtE4F32 st d a p k => Sys2Proof.Machine.execVcvtE4F32 st d a p k s
  | .vcvtE5F32 st d a p k => Sys2Proof.Machine.execVcvtE5F32 st d a p k s
  | .vcvtF32E4 st d a p k => Sys2Proof.Machine.execVcvtF32E4 st d a p k s
  | .vcvtF32E5 st d a p k => Sys2Proof.Machine.execVcvtF32E5 st d a p k s
  | .vcvtM8F32 st d a p k => Sys2Proof.Machine.execVcvtM8F32 st d a p k s
  | .vcvtF32M8 st d a p k => Sys2Proof.Machine.execVcvtF32M8 st d a p k s
  | .vcvtF4F32 st d a p k => Sys2Proof.Machine.execVcvtF4F32 st d a p k s
  | .vcvtF32F4 st d a p k => Sys2Proof.Machine.execVcvtF32F4 st d a p k s
  | .vcvtF32S32 st d a p k => Sys2Proof.Machine.execVcvtF32S32 st d a p k s
  | .vcvtS32F32 st d a p k => Sys2Proof.Machine.execVcvtS32F32 st d a p k s
  | .vexp st d a k => Sys2Proof.Machine.execVexp st d a k s
  | .vlog2 st d a k => Sys2Proof.Machine.execVlog2 st d a k s
  | .vrcp st d a k => Sys2Proof.Machine.execVrcp st d a k s
  | .vrsq st d a k => Sys2Proof.Machine.execVrsq st d a k s
  | .vtli st d a f k => Sys2Proof.Machine.execVtli st d a f k s
  | .tblset st a => Sys2Proof.Machine.execTblset st a s
  | .mmaBB st a b q set ia ib sk te => Sys2Proof.Machine.execMmaBB st a b q set ia ib sk te s
  | .mmaEE st a b q set ia ib sk te => Sys2Proof.Machine.execMmaEE st a b q set ia ib sk te s
  | .mmaEF st a b q set ia ib sk te => Sys2Proof.Machine.execMmaEF st a b q set ia ib sk te s
  | .mmaMM st a b q set ia ib sk te => Sys2Proof.Machine.execMmaMM st a b q set ia ib sk te s
  | .mmaBF st a b q set ia ib sk te => Sys2Proof.Machine.execMmaBF st a b q set ia ib sk te s
  | .mmaFF st a b q set ia ib sk te => Sys2Proof.Machine.execMmaFF st a b q set ia ib sk te s
  | .mzero st set => Sys2Proof.Machine.execMzero st set s
  | .mout st d q set ot rm sat incd => Sys2Proof.Machine.execMout st d q set ot rm sat incd s
  | .gang st => Sys2Proof.Machine.execGang st s
  | .skset st base len => Sys2Proof.Machine.execSkset st base len s
  | .push st d dir m => Sys2Proof.Machine.execPush st d dir m s
  | .pushv st d dir m => Sys2Proof.Machine.execPushv st d dir m s
  | .pop st d dir b => Sys2Proof.Machine.execPop st d dir b s
  | .popv st d dir b => Sys2Proof.Machine.execPopv st d dir b s
  | .peek st d dir b => Sys2Proof.Machine.execPeek st d dir b s
  | .pcfg st d a => Sys2Proof.Machine.execPcfg st d a s
  | .snewBead st d a b c => Sys2Proof.Machine.execSnewBead st d a b c s
  | .snewDesc st d a => Sys2Proof.Machine.execSnewDesc st d a s
  | .scat st d a b => Sys2Proof.Machine.execScat st d a b s
  | .ssplit st d a b => Sys2Proof.Machine.execSsplit st d a b s
  | .ssplice st d a b c => Sys2Proof.Machine.execSsplice st d a b c s
  | .ssum st d a b c f => Sys2Proof.Machine.execSsum st d a b c f s
  | .sloc st d a b => Sys2Proof.Machine.execSloc st d a b s
  | .sstep st d a b => Sys2Proof.Machine.execSstep st d a b s
  | .srefHold st d a => Sys2Proof.Machine.execSrefHold st d a s
  | .srefRel st d a => Sys2Proof.Machine.execSrefRel st d a s
  | .scommit st d a b c => Sys2Proof.Machine.execScommit st d a b c s
  | .strandFree ctx => Sys2Proof.Machine.execStrandFree ctx s
  | .kvpgAlloc st d a => Sys2Proof.Machine.execKvpgAlloc st d a s
  | .kvpgFree st d a b => Sys2Proof.Machine.execKvpgFree st d a b s
  | .kvpgSlot st d a b => Sys2Proof.Machine.execKvpgSlot st d a b s
  | .viewRegMst st d a => Sys2Proof.Machine.execViewRegMst st d a s
  | .viewRegDrv st d a => Sys2Proof.Machine.execViewRegDrv st d a s
  | .viewDrop st d a => Sys2Proof.Machine.execViewDrop st d a s
  | .viewLd st d a b c => Sys2Proof.Machine.execViewLd st d a b c s
  | .viewWait st d a b => Sys2Proof.Machine.execViewWait st d a b s
  | .churnRefresh die => Sys2Proof.Machine.execChurnRefresh die s
  | .pendTake die => Sys2Proof.Machine.execPendTake die s
  | .engCpy st d a b c => Sys2Proof.Machine.execEngCpy st d a b c s
  | .engPoolrd st d a b c => Sys2Proof.Machine.execEngPoolrd st d a b c s
  | .engPoolwr st d a b c => Sys2Proof.Machine.execEngPoolwr st d a b c s
  | .engSleepu st a => Sys2Proof.Machine.execEngSleepu st a s
  | .copyStart cluster => Sys2Proof.Machine.execCopyStart cluster s
  | .copyComplete cluster => Sys2Proof.Machine.execCopyComplete cluster s
  | .promiseMiss core slot => Sys2Proof.Machine.execPromiseMiss core slot s
  | .sleepuWake core slot => Sys2Proof.Machine.execSleepuWake core slot s
  | .poolTimeout cluster => Sys2Proof.Machine.execPoolTimeout cluster s
  | .poolLineAccept cluster => Sys2Proof.Machine.execPoolLineAccept cluster s
  | .ownershipMove pool frame owner => Sys2Proof.Machine.execOwnershipMove pool frame owner s
  | .start st d a b c => Sys2Proof.Machine.execStart st d a b c s
  | .join st d a => Sys2Proof.Machine.execJoin st d a s
  | .launch st d a => Sys2Proof.Machine.execLaunch st d a s
  | .ctxNew st d a => Sys2Proof.Machine.execCtxNew st d a s
  | .ctxGive st d a b => Sys2Proof.Machine.execCtxGive st d a b s
  | .ctxRevoke st d a b => Sys2Proof.Machine.execCtxRevoke st d a b s
  | .ctxRun st d a => Sys2Proof.Machine.execCtxRun st d a s
  | .ctxStop st d a => Sys2Proof.Machine.execCtxStop st d a s
  | .ctxSave st d a b => Sys2Proof.Machine.execCtxSave st d a b s
  | .ctxLoad st d a b => Sys2Proof.Machine.execCtxLoad st d a b s
  | .ctxDirty st d a b c => Sys2Proof.Machine.execCtxDirty st d a b c s
  | .ctxS2map st d a b => Sys2Proof.Machine.execCtxS2map st d a b s
  | .ctxS2mapBead st d a b => Sys2Proof.Machine.execCtxS2mapBead st d a b s
  | .csrr st d csr => Sys2Proof.Machine.execCsrr st d csr s
  | .csrw st a csr => Sys2Proof.Machine.execCsrw st a csr s
  | .arenaInit st a => Sys2Proof.Machine.execArenaInit st a s
  | .redrgnWrite st a => Sys2Proof.Machine.execRedrgnWrite st a s
  | .xsplitWrite st a => Sys2Proof.Machine.execXsplitWrite st a s
  | .featWrite st a hi => Sys2Proof.Machine.execFeatWrite st a hi s
  | .trap st n => Sys2Proof.Machine.execTrap st n s
  | .brk st n => Sys2Proof.Machine.execBrk st n s
  | .upret st a b => Sys2Proof.Machine.execUpret st a b s
  | .tlbinv st a scope => Sys2Proof.Machine.execTlbinv st a scope s
  | .inth st a => Sys2Proof.Machine.execInth st a s
  | .icinv st a scope => Sys2Proof.Machine.execIcinv st a scope s
  | .resultLand core slot => Sys2Proof.Machine.execResultLand core slot s
  | .missRepresent core slot => Sys2Proof.Machine.execMissRepresent core slot s
  | .walkComplete cluster => Sys2Proof.Machine.execWalkComplete cluster s
  | .shootdownEcho core slot target => Sys2Proof.Machine.execShootdownEcho core slot target s
  | .sliceRequest n => Sys2Proof.Machine.execSliceRequest n s
  | .bufferRequest n => Sys2Proof.Machine.execBufferRequest n s
  | .syncRequest n => Sys2Proof.Machine.execSyncRequest n s
  | .syncRepresent core slot => Sys2Proof.Machine.execSyncRepresent core slot s
  | .syncTimeout core slot => Sys2Proof.Machine.execSyncTimeout core slot s
  | .probeEcho core slot bank => Sys2Proof.Machine.execProbeEcho core slot bank s
  | .reservationExpiry word => Sys2Proof.Machine.execReservationExpiry word s
  | .waitmDeadline core slot => Sys2Proof.Machine.execWaitmDeadline core slot s
  | .portTimeout core slot => Sys2Proof.Machine.execPortTimeout core slot s
  | .barTimeout core slot => Sys2Proof.Machine.execBarTimeout core slot s
  | .gangTimeout core slot => Sys2Proof.Machine.execGangTimeout core slot s
  | .viewWaitTimeout core slot => Sys2Proof.Machine.execViewWaitTimeout core slot s
  | .sigwaitTimeout core slot => Sys2Proof.Machine.execSigwaitTimeout core slot s
  | .matrixQueueRun core => Sys2Proof.Machine.execMatrixQueueRun core s
  | .mmaStepStart core => Sys2Proof.Machine.execMmaStepStart core s
  | .mmaStepEnd core => Sys2Proof.Machine.execMmaStepEnd core s
  | .freeze core => Sys2Proof.Machine.execFreeze core s
  | .gangStepTimeout core => Sys2Proof.Machine.execGangStepTimeout core s
  | .mzeroDone core => Sys2Proof.Machine.execMzeroDone core s
  | .moutDone core => Sys2Proof.Machine.execMoutDone core s
  | .sequencerChoose die => Sys2Proof.Machine.execSequencerChoose die s
  | .agePromotion die => Sys2Proof.Machine.execAgePromotion die s
  | .iterationEnd n => Sys2Proof.Machine.execIterationEnd n s
  | .haltComplete ctx => Sys2Proof.Machine.execHaltComplete ctx s
  | .replyArrival n => Sys2Proof.Machine.execReplyArrival n s
  | .scrub line => Sys2Proof.Machine.execScrub line s
  | .sliceFailure slice => Sys2Proof.Machine.execSliceFailure slice s
  | .hostWindowRead vf off len => Sys2Proof.Machine.execHostWindowRead vf off len s
  | .hostWindowWrite vf off data relaxed => Sys2Proof.Machine.execHostWindowWrite vf off data relaxed s
  | .wbaseWrite vf v => Sys2Proof.Machine.execWbaseWrite vf v s
  | .hvClear vf => Sys2Proof.Machine.execHvClear vf s
  | .doorbell vf v => Sys2Proof.Machine.execDoorbell vf v s
  | .dblostClear vf => Sys2Proof.Machine.execDblostClear vf s
  | .pfDoorbell v => Sys2Proof.Machine.execPfDoorbell v s
  | .vfBind vf ctx => Sys2Proof.Machine.execVfBind vf ctx s
  | .fwload addr len image => Sys2Proof.Machine.execFwload addr len image s
  | .quote vf nlen nonce => Sys2Proof.Machine.execQuote vf nlen nonce s
  | .ownmove pool frame owner => Sys2Proof.Machine.execOwnmove pool frame owner s
  | .logread n => Sys2Proof.Machine.execLogread n s
  | .mailboxUnknown writes => Sys2Proof.Machine.execMailboxUnknown writes s
  | .doneClear => Sys2Proof.Machine.execDoneClear s
  | .plimWrite w => Sys2Proof.Machine.execPlimWrite w s
  | .plimEffect => Sys2Proof.Machine.execPlimEffect s
  | .korxoFrame f => Sys2Proof.Machine.execKorxoFrame f s
  | .linkRetry l => Sys2Proof.Machine.execLinkRetry l s
  | .linkError l e => Sys2Proof.Machine.execLinkError l e s
  | .linkRetire l => Sys2Proof.Machine.execLinkRetire l s
  | .powerOn => Sys2Proof.Machine.execPowerOn s
  | .imageJudge image => Sys2Proof.Machine.execImageJudge image s
  | .memoryInit retired => Sys2Proof.Machine.execMemoryInit retired s
  | .diePowerUp die => Sys2Proof.Machine.execDiePowerUp die s
  | .rowRelease die row => Sys2Proof.Machine.execRowRelease die row s
  | .bootProgramStart img => Sys2Proof.Machine.execBootProgramStart img s
  | .diesIntoService => Sys2Proof.Machine.execDiesIntoService s
  | .spentTurn core slot => Sys2Proof.Machine.execSpentTurn core slot s
  | .illegalInstruction w => Sys2Proof.Machine.execIllegalInstruction w s
  | .churnServe die n => Sys2Proof.Machine.execChurnServe die n s
  | .mailboxAnswer => Sys2Proof.Machine.execMailboxAnswer s
  | .linkTrained l up => Sys2Proof.Machine.execLinkTrained l up s
  | .numvfsWrite n => Sys2Proof.Machine.execNumvfsWrite n s

end Sys2Proof.Machine
end

