-- ==== Sys2Proof/Machine/Events.lean ====
section
/-!
DEFINITION. The part's own events between issue cycles: requests accepted, requests and replies arriving, walks, waits
that end, timeouts, and what the matrix units, churns, engines, sequencers and Akmon do. Where the spec gives an event
its cycle, it happens in that cycle; where the spec leaves the cycle open, a free value decides (log entry 2). Each cycle
runs the phases in ascending order and then offers its issue cycles.
-/

namespace Sys2Proof.Machine

namespace State

/-- Perform something whose cycle the spec leaves open, if a free value has it happen now. -/
def perhaps (s : State) (f : State → State) : State :=
  let (v, s) := s.drawNat Config.freeNat
  if v % 2 = 1 then f s else s

/-! ### Requests and replies on their way -/

/-- The requests under way are accepted, each at a cycle of its own (R76, R157). -/
def requestsPhase (s : State) : State :=
  s.reqs.foldl (fun s r => s.perhaps fun s => s.acceptN r.n (decide (r.addr < 2 ^ 40))) s

/-- The synchronising requests under way arrive (R62). -/
def syncsPhase (s : State) : State :=
  s.syncs.foldl (fun s q => s.perhaps fun s =>
    if s.syncs.any (·.1 = q.1) then { s with syncs := s.syncs.filter fun x => x.1 ≠ q.1 }.syncArrive q.2.1 q.2.2.1 q.2.2.2
    else s) s

/-- The replies under way arrive (R412). -/
def repliesPhase (s : State) : State := s.replies.foldl (fun s r => s.perhaps fun s => s.replyArrive r) s

/-- Walks complete (R36), and TLBs give up entries (R391). -/
def walksPhase (s : State) : State :=
  let s := s.cores.foldl (fun s (c, _) => s.perhaps fun s => s.dropTlb c) s
  s.clusters.foldl (fun s (n, _) => if (s.cluster n).misses.isEmpty then s else s.perhaps fun s => s.walkDone n) s

/-! ### Slots -/

/-- A slot's synchronising request times out, or is presented again (R64). -/
def syncDue (s : State) (c : Site) (i : Nat) : State :=
  match s.syncExpired c i with
  | some (r, detail) => (s.cancelSync c i r.addr).raiseAt c i (ownTrap 8 detail r.va 0 r.op.kind.acc)
  | none => match (s.slot c i).wait with
    | some (.backoff r t) => if s.cyc ≥ t then s.syncAgain c i r else s
    | _ => s

/-- The probes of a fence echo from banks that hold none of the slot's accesses (R177, R178). -/
def fenceDue (s : State) (c : Site) (i : Nat) : State :=
  match (s.slot c i).wait with
  | some (.fence ps mask eng sc len) =>
    let ps := ps.filter fun b => s.reqs.any fun r => r.core == c && r.slot == i && bankOf r.addr == b
    (s.modSlot c i fun sl => { sl with wait := some (.fence ps mask eng sc len) }).tryFence c i
  | _ => s

/-- Wake a slot when what its instruction waits for has come. -/
def wakeWhen (s : State) (c : Site) (i : Nat) (ready : Bool) : State := if ready then s.wakeRetry c i else s

/-- A parked slot's wait ends, if it is time. -/
def waitDue (s : State) (c : Site) (i : Nat) : State :=
  match (s.slot c i).wait with
  | none => s
  | some (.walk ..) => s
  | some (.missRefused ..) => s.missAgain c i
  | some (.sync _) => s.syncDue c i
  | some (.backoff ..) => s.syncDue c i
  | some (.fence ..) => s.fenceDue c i
  | some (.waitm ..) => s.tryWaitm c i
  | some (.sleepu wake len) => if wake ≤ s.cyc then s.complete c i len [] else s
  | some (.port code push vec u) =>
    match Dir.ofCode code with
    | some d =>
      if s.portReady c i d push vec then s.wakeRetry c i
      else if s.cyc > u then s.raiseAt c i (ownTrap 9 1 (wordOf code) 0 3)
      else s
    | none => s
  | some (.join h) => s.wakeWhen c i ((s.slot c h).state == .free || (s.slot c h).state == .exited)
  | some .exit => s.wakeWhen c i (s.liveHelpers c).isEmpty
  | some (.barrier b ..) => (if b = .gang then s.gangCount c i else s).barExpire b c i
  | some (.matrix why) => s.wakeWhen c i (s.matReady c i why)
  | some .engQueue => s.wakeWhen c i (!s.engFull (Site.cluster c))
  | some (.pool ..) => s
  | some (.echoes sites ..) => sites.foldl (fun s t => s.echo c i t) s
  | some (.signal _ va _ _ u _) => if s.cyc ≥ u then s.raiseAt c i (ownTrap 8 2 va 0 0) else s
  | some (.view _ _ h u) => if s.viewExpired c i u then (s.endViewReq c i).raiseAt c i (ownTrap 8 3 h 0 0) else s
  | some (.stop ..) => s
  | some .save => s.wakeRetry c i
  | some .status => s.statusDue c i
  | some .tree => s.wakeWhen c i (s.treeFree c i)
  | some .drain => s.wakeWhen c i (s.drainReady c i)
  | some .strand => s.wakeWhen c i (s.drainReady c i)
  | some .arena => s.wakeRetry c i

/-- Every slot's wait and promises (R72). -/
def slotsPhase (s : State) : State :=
  s.allSlots.foldl (fun s (c, i) =>
    let s := if (s.slot c i).state = .parked then s.waitDue c i else s
    s.judgePromise c i) s

/-! ### Units -/

/-- Reservations not released in time end (R189), and the strand units free nodes (R146). -/
def strandPhase (s : State) : State :=
  let s := s.reservations.foldl (fun s r => if s.cyc > r.since + 4096 then s.dropRsv r.core r.slot else s) s
  s.ctxs.foldl (fun s (n, _) => if (s.ctx n).frees.isEmpty then s else s.perhaps fun s => s.strandTask n) s

/-- An MZERO or a MOUT at the head of its set starts, unless its slot is halted, or takes effect (R339, R340). -/
def matHeadsRun (s : State) (c : Site) : State :=
  ((matHeads [] (s.core c).matrix).filter fun e => !MatOp.isMma e.op).foldl (fun s e => s.perhaps fun s =>
    if e.started.isSome then s.matPerform c e
    else if (s.slot c e.slot).state = .halted then s
    else s.matBegin c e) s

/-- The matrix queues run (R336 to R339, R344, R345). What one cycle does to the members of a gang, it does to all of them before it goes
on. -/
def matrixPhase (s : State) : State :=
  [matHeadsRun, stepFreeze, stepFetch, stepFreeze, stepCycle, stepEnd, stepStart, markWait, stepTimes].foldl
    (fun s f => s.cores.foldl (fun s (c, _) => f s c) s) s

/-- The churns serve requests, refresh blocks and take pending ones (R115, R117, R119). -/
def churnPhase (s : State) : State :=
  (List.range 4).foldl (fun s d =>
    let s := (s.die d).viewReqs.foldl (fun s r =>
      if r.waiting then s
      else s.perhaps fun s => if (s.die d).viewReqs.any (·.n = r.n) then s.serveReq d r else s) s
    let s := s.perhaps fun s => s.churnStep d
    s.perhaps fun s => s.pendStep d) s

/-- The copy engines run (R67, R70, R85, R86), and pool appliances accept lines of other devices (R182). How many words a copy moves in
a cycle is not architected. -/
def enginesPhase (s : State) : State :=
  let s := s.perhaps foreignLine
  s.clusters.foldl (fun s (n, _) =>
    let s := s.engStart n
    let (k, s) := s.drawNat Config.freeNat
    let s := (s.engAdvance n k).perhaps fun s => s.poolLine n
    let s := if s.poolLate n then s.poolStop n 3 else s
    s.engComplete n) s

/-- The launch sequencers promote and choose, and iterations end (R398, R400, R402). -/
def sequencersPhase (s : State) : State :=
  (List.range 4).foldl (fun s d =>
    let s := (s.promote d).testHeads d
    let s := s.perhaps fun s => s.choose d
    (s.die d).running.foldl (fun s run => s.endIteration d run) s) s

/-- Halts complete (R411), and traps that waited for one climb (R225). -/
def haltsPhase (s : State) : State := (s.ctxs.foldl (fun s (n, _) => s.haltDone n) s).climbsDue

/-- Akmon answers its mailbox (R434), memory and queues err, the scrubbers read lines (R78, R350), the power limit acts
(R439), and start-up goes on by itself where it needs nothing from outside (R436). -/
def packagePhase (s : State) : State :=
  let s := if s.pkg.answer.isSome then s.perhaps State.mailAnswer else s
  let s := ((s.memoryErrors.scrubCycle).queueErrors).powerCycle
  let s := s.perhaps fun s => s.powerDie s.pkg.diesUp
  let s := (List.range 4).foldl (fun s d =>
    let n := aget s.pkg.rowsUp 0 d
    if n = 0 then s.perhaps fun s => s.releaseRow d 0 else s.releaseRow d n) s
  s.serveDies

/-- The phases of a cycle. -/
def phase (s : State) (n : Nat) : State :=
  match n with
  | 0 => s.requestsPhase
  | 1 => hostDrain s.pkg.hostWrites.length s
  | 2 => s.syncsPhase
  | 3 => s.repliesPhase
  | 4 => s.walksPhase
  | 5 => s.slotsPhase
  | 6 => s.strandPhase
  | 7 => s.matrixPhase
  | 8 => s.churnPhase
  | 9 => s.enginesPhase
  | 10 => s.sequencersPhase
  | 11 => s.haltsPhase
  | 12 => s.packagePhase
  | _ => s

/-- What a phase puts on the agenda: after the last, every core with a READY slot offers an issue cycle (R203), unless the power
limit withholds it (R439). -/
def offers (s : State) (n : Nat) : List Act :=
  if n = 13 then (s.cores.filter fun (c, k) => decide (c < 4096) && !s.withheld c && k.slots.any fun (_, sl) => sl.state == .ready).map
    fun (c, _) => Act.offer c
  else []

/-- The next cycle begins. -/
def nextCycle (s : State) : State :=
  { s with
    cyc := s.cyc + 1
    agenda := (List.range 14).map Act.phase }

end State

end Sys2Proof.Machine
end

