-- ==== Sys2Proof/Machine/Step.lean ====
section
/-!
DEFINITION. One step of the machine: the next act of the agenda; with none left, the next cycle begins. Also the placing of one
instruction where `step` fetches next.
-/

namespace Sys2Proof.Machine

/-- One step: the agenda's next act. What an act does never rewrites the acts after it. -/
def step (s : State) : Host.Outcome State Fault Refusal :=
  match s.agenda with
  | .offer c :: rest =>
    if c < 4096 then
      let r := s.issueCycle c
      .next { r.1 with agenda := (r.2.map (Act.issue c)).toList ++ rest }
    else .fault .noSuchAgent
  | .issue c i :: rest =>
    if c < 4096 ∧ i < 11 then
      match s.turn c i with
      | .run x s => match exec x s with
        | .next t => .next { t with agenda := rest }
        | .fault r => .fault r
        | .refused r => .refused r
      | .stopped s => .next { s with agenda := rest }
    else .fault .noSuchAgent
  | .phase n :: rest =>
    let t := s.phase n
    .next { t with agenda := t.offers n ++ rest }
  | [] => .next s.nextCycle

namespace State

/-- The address `withFetchWord` puts an instruction at. -/
def fetchPc : Word := 0x10000

/-- Core 0 and its cluster with one READY slot, slot 0, in the root context, whose code page is in its instruction TLB. -/
def withFetchWord (s : State) (nbits w : Nat) : State :=
  let e : TlbEntry := ⟨0, 0, (s.ctx 0).gen, 4096, 0x10000, .inter 0x10000, true, true, true, true, false⟩
  let s := s.modCore 0 fun k => { k with running := true, itlb := [e], icache := [] }
  let s := s.modCluster 0 fun k => { k with icache := [] }
  let s := s.modSlot 0 0 fun _ => ({ Slot.reset with state := .ready, gen := (s.ctx 0).gen }).setPc fetchPc
  let s := s.modPkg fun p => { p with feat := p.featAdv }
  let a := s.mapInterleaved 0x10000
  { s with mem := mwrite s.mem a (natBytes 8 (w % 2 ^ nbits)), agenda := [.issue 0 0] }

end State

end Sys2Proof.Machine
end

