-- ==== Sys2Proof/Laws/Lists.lean ====
section
/-!
SUPPORT. Key-ordered lists and rising lists of numbers: reading after an update.
-/

namespace Sys2Proof.Machine

@[simp] theorem aget_aset_self {α : Type} (l : List (Nat × α)) (d : α) (k : Nat) (v : α) :
    aget (aset l k v) d k = v := by
  induction l with
  | nil => simp [aset, aget]
  | cons h t ih =>
    obtain ⟨k', v'⟩ := h
    simp only [aset]
    split
    · simp [aget]
    · split
      · simp [aget]
      · simp [aget, *]

theorem aget_aset_ne {α : Type} (l : List (Nat × α)) (d : α) {j k : Nat} (v : α) (h : j ≠ k) :
    aget (aset l k v) d j = aget l d j := by
  induction l with
  | nil => simp [aset, aget, h]
  | cons x t ih =>
    obtain ⟨k', v'⟩ := x
    simp only [aset]
    split
    · subst k'; simp [aget, h]
    · split
      · simp [aget, h]
      · simp only [aget, ih]

theorem aget_aset {α : Type} (l : List (Nat × α)) (d : α) (j k : Nat) (v : α) :
    aget (aset l k v) d j = if j = k then v else aget l d j := by
  split
  · subst j; simp
  · exact aget_aset_ne l d v ‹_›

@[simp] theorem aset_aset {α : Type} (l : List (Nat × α)) (k : Nat) (v w : α) :
    aset (aset l k v) k w = aset l k w := by
  induction l with
  | nil => simp [aset]
  | cons x t ih =>
    obtain ⟨k', v'⟩ := x
    by_cases h : k = k'
    · simp [aset, h]
    · by_cases h2 : k < k'
      · simp [aset, h, h2]
      · simp [aset, h, h2, ih]

@[simp] theorem mem_nset {l : List Nat} {k j : Nat} : j ∈ nset l k ↔ j = k ∨ j ∈ l := by
  induction l with
  | nil => simp [nset]
  | cons x t ih =>
    simp only [nset]
    split
    · subst k; simp
    · split
      · simp
      · simp only [List.mem_cons, ih]; tauto

@[simp] theorem mem_ndel {l : List Nat} {k j : Nat} : j ∈ ndel l k ↔ j ∈ l ∧ j ≠ k := by simp [ndel]

@[simp] theorem contains_nset (l : List Nat) (k j : Nat) : (nset l k).contains j = (j == k || l.contains j) := by
  rw [Bool.eq_iff_iff]; simp [mem_nset]

@[simp] theorem contains_ndel (l : List Nat) (k j : Nat) : (ndel l k).contains j = (l.contains j && j != k) := by
  rw [Bool.eq_iff_iff]; simp [mem_ndel]

end Sys2Proof.Machine
end

