-- ==== Sys2Proof/Laws/Memory.lean ====
section
/-!
SUPPORT. The laws of memory: reading after a write, every other address left alone, and the canonical form kept by every
memory operation.
-/

namespace Sys2Proof.Machine

/-! ### One byte -/

theorem mget_mdrop (m : List Host.Cell) (a x : Nat) :
    mget (mdrop m a) x = if x = a then Memory.unlisted else mget m x := by
  induction m with
  | nil => simp [mdrop, mget]
  | cons h t ih =>
    obtain ⟨a', b⟩ := h
    simp only [mdrop]
    split
    · subst a'; rw [ih]; split <;> simp_all [mget]
    · simp only [mget, ih]; split <;> simp_all; omega

theorem mget_mput (m : List Host.Cell) {a x : Nat} (b : Byte) (hx : x ≠ a) : mget (mput m a b) x = mget m x := by
  induction m with
  | nil => simp [mput, mget, hx]
  | cons h t ih =>
    obtain ⟨a', b'⟩ := h
    simp only [mput]
    split
    · simp [mget, hx]
    · simp [mget, ih]

theorem mget_mput_self (m : List Host.Cell) (a : Nat) (b : Byte) (h : ∀ c ∈ m, c.1 ≠ a) :
    mget (mput m a b) a = b := by
  induction m with
  | nil => simp [mput, mget]
  | cons c t ih =>
    obtain ⟨a', b'⟩ := c
    have h' : a' ≠ a := h (a', b') (by simp)
    simp only [mput]
    split
    · simp [mget]
    · simp only [mget, if_neg (Ne.symm h')]
      exact ih fun c hc => h c (List.mem_cons_of_mem _ hc)

theorem mem_mdrop {m : List Host.Cell} {a : Nat} {c : Host.Cell} (h : c ∈ mdrop m a) : c ∈ m ∧ c.1 ≠ a := by
  induction m with
  | nil => simp [mdrop] at h
  | cons x t ih =>
    obtain ⟨a', b'⟩ := x
    simp only [mdrop] at h
    split at h
    · have := ih h; simp [this]
    · rcases List.mem_cons.1 h with rfl | h
      · refine ⟨by simp, ?_⟩; simp; omega
      · have := ih h; simp [this]

/-- Reading a byte after a write: the written value at its address, what was there before at every other. -/
theorem mget_mset (m : List Host.Cell) (a x : Nat) (b : Byte) : mget (mset m a b) x = if x = a then b else mget m x := by
  simp only [mset]
  split
  · rw [mget_mdrop]; split <;> simp_all
  · split
    · subst x; exact mget_mput_self _ _ _ fun c hc => (mem_mdrop hc).2
    · rename_i hx
      rw [mget_mput _ _ hx, mget_mdrop, if_neg hx]

/-! ### The canonical form -/

theorem wf_cons {a : Nat} {b : Byte} {t : List Host.Cell} :
    Memory.wf ((a, b) :: t) = true ↔ b ≠ Memory.unlisted ∧ (∀ c ∈ t, a < c.1) ∧ Memory.wf t = true := by
  induction t generalizing a b with
  | nil => simp [Memory.wf]
  | cons c t ih =>
    obtain ⟨a', b'⟩ := c
    simp only [Memory.wf, Bool.and_eq_true, decide_eq_true_eq, bne_iff_ne, ne_eq]
    rw [ih]
    constructor
    · rintro ⟨⟨h1, h2⟩, h3, h4, h5⟩
      refine ⟨h1, ?_, h3, h4, h5⟩
      intro c hc
      rcases List.mem_cons.1 hc with rfl | hc
      · exact h2
      · exact lt_trans h2 (h4 c hc)
    · rintro ⟨h1, h2, h3, h4, h5⟩
      exact ⟨⟨h1, h2 (a', b') (List.mem_cons_self ..)⟩, h3, h4, h5⟩

theorem wf_mdrop {m : List Host.Cell} (h : Memory.wf m = true) (a : Nat) : Memory.wf (mdrop m a) = true := by
  induction m with
  | nil => rfl
  | cons c t ih =>
    obtain ⟨a', b'⟩ := c
    rw [wf_cons] at h
    simp only [mdrop]
    split
    · exact ih h.2.2
    · rw [wf_cons]
      exact ⟨h.1, fun c hc => h.2.1 c (mem_mdrop hc).1, ih h.2.2⟩

theorem mem_mput {m : List Host.Cell} {a : Nat} {b : Byte} {c : Host.Cell} (h : c ∈ mput m a b) : c = (a, b) ∨ c ∈ m := by
  induction m with
  | nil => simpa [mput] using h
  | cons x t ih =>
    obtain ⟨a', b'⟩ := x
    simp only [mput] at h
    split at h
    · simpa using h
    · rcases List.mem_cons.1 h with rfl | h
      · simp
      · rcases ih h with h | h <;> simp [h]

theorem wf_mput {m : List Host.Cell} (h : Memory.wf m = true) {a : Nat} {b : Byte} (hb : b ≠ Memory.unlisted)
    (ha : ∀ c ∈ m, c.1 ≠ a) : Memory.wf (mput m a b) = true := by
  induction m with
  | nil => simp [mput, Memory.wf, hb]
  | cons x t ih =>
    obtain ⟨a', b'⟩ := x
    have hx := wf_cons.1 h
    have hne : a' ≠ a := ha (a', b') (by simp)
    simp only [mput]
    split
    · rename_i hlt
      rw [wf_cons]
      refine ⟨hb, ?_, h⟩
      intro c hc
      rcases List.mem_cons.1 hc with rfl | hc
      · exact hlt
      · exact lt_trans hlt (hx.2.1 c hc)
    · rename_i hlt
      rw [wf_cons]
      refine ⟨hx.1, ?_, ih hx.2.2 fun c hc => ha c (List.mem_cons_of_mem _ hc)⟩
      intro c hc
      rcases mem_mput hc with rfl | hc
      · simp; omega
      · exact hx.2.1 c hc

/-- Writing a byte keeps the canonical form. -/
theorem wf_mset {m : List Host.Cell} (h : Memory.wf m = true) (a : Nat) (b : Byte) : Memory.wf (mset m a b) = true := by
  simp only [mset]
  split
  · exact wf_mdrop h a
  · exact wf_mput (wf_mdrop h a) ‹_› fun c hc => (mem_mdrop hc).2

/-- Writing bytes keeps the canonical form. -/
theorem wf_mwrite {m : List Host.Cell} (h : Memory.wf m = true) (a : Nat) (bs : List Byte) :
    Memory.wf (mwrite m a bs) = true := by
  induction bs generalizing m a with
  | nil => exact h
  | cons b bs ih => exact ih (wf_mset h a b) (a + 1)

/-- Dropping the entries of some addresses keeps the canonical form. -/
theorem wf_filter {m : List Host.Cell} (h : Memory.wf m = true) (p : Host.Cell → Bool) :
    Memory.wf (m.filter p) = true := by
  induction m with
  | nil => rfl
  | cons c t ih =>
    obtain ⟨a', b'⟩ := c
    rw [wf_cons] at h
    simp only [List.filter_cons]
    split
    · rw [wf_cons]
      exact ⟨h.1, fun c hc => h.2.1 c (List.mem_filter.1 hc).1, ih h.2.2⟩
    · exact ih h.2.2

/-- Two memories in canonical form that read alike are the same data. -/
theorem wf_ext {m n : List Host.Cell} (hm : Memory.wf m = true) (hn : Memory.wf n = true)
    (h : ∀ a, mget m a = mget n a) : m = n := by
  have low : ∀ {l : List Host.Cell} {x : Nat}, (∀ c ∈ l, x < c.1) → mget l x = Memory.unlisted := by
    intro l x hl
    induction l with
    | nil => rfl
    | cons c t ih =>
      obtain ⟨a', b'⟩ := c
      have := hl (a', b') (by simp)
      simp only [mget]
      rw [if_neg (by simp at this; omega)]
      exact ih fun c hc => hl c (List.mem_cons_of_mem _ hc)
  induction m generalizing n with
  | nil =>
    cases n with
    | nil => rfl
    | cons c t =>
      obtain ⟨a, b⟩ := c
      have := h a
      simp [mget] at this
      exact absurd this.symm (wf_cons.1 hn).1
  | cons c t ih =>
    obtain ⟨a, b⟩ := c
    have h1 := wf_cons.1 hm
    cases n with
    | nil =>
      have := h a
      simp [mget] at this
      exact absurd this h1.1
    | cons d u =>
      obtain ⟨a2, b2⟩ := d
      have h2 := wf_cons.1 hn
      have key : a = a2 := by
        rcases Nat.lt_trichotomy a a2 with hlt | heq | hgt
        · have := h a
          simp only [mget, if_true] at this
          rw [if_neg (by omega), low fun c hc => lt_trans hlt (h2.2.1 c hc)] at this
          exact absurd this h1.1
        · exact heq
        · have := h a2
          simp only [mget, if_true] at this
          rw [if_neg (by omega), low fun c hc => lt_trans hgt (h1.2.1 c hc)] at this
          exact absurd this.symm h2.1
      subst key
      have hb := h a
      simp only [mget, if_true] at hb
      subst hb
      congr 1
      refine ih h1.2.2 h2.2.2 fun x => ?_
      by_cases hx : x = a
      · subst hx
        rw [low h1.2.1, low h2.2.1]
      · have := h x
        simpa [mget, hx] using this

/-! ### Several bytes -/

theorem mread_length (m : List Host.Cell) (a n : Nat) : (mread m a n).length = n := by
  induction n generalizing a with
  | zero => rfl
  | succ n ih => simp [mread, ih]

/-- Reading one byte after a write of several. -/
theorem mget_mwrite (m : List Host.Cell) (a : Nat) (bs : List Byte) (x : Nat) :
    mget (mwrite m a bs) x = if a ≤ x ∧ x < a + bs.length then bs.getD (x - a) 0 else mget m x := by
  induction bs generalizing m a with
  | nil => simp [mwrite]
  | cons b bs ih =>
    simp only [mwrite]
    rw [ih, mget_mset]
    simp only [List.length_cons]
    by_cases hx : x = a
    · subst hx
      rw [if_neg (by omega), if_pos rfl, if_pos (by omega), Nat.sub_self]
      rfl
    · by_cases h2 : a + 1 ≤ x ∧ x < a + 1 + bs.length
      · rw [if_pos h2, if_pos (by omega)]
        obtain ⟨j, rfl⟩ : ∃ j, x = a + 1 + j := ⟨x - a - 1, by omega⟩
        rw [show a + 1 + j - (a + 1) = j by omega, show a + 1 + j - a = j + 1 by omega]
        simp
      · rw [if_neg h2, if_neg hx, if_neg (by omega)]

theorem mread_congr {m n : List Host.Cell} {a k : Nat} (h : ∀ x, a ≤ x → x < a + k → mget m x = mget n x) :
    mread m a k = mread n a k := by
  induction k generalizing a with
  | zero => rfl
  | succ k ih =>
    simp only [mread]
    rw [h a (by omega) (by omega), ih fun x h1 h2 => h x (by omega) (by omega)]

/-- Reading back the bytes of a write. -/
theorem mread_mwrite_self (m : List Host.Cell) (a : Nat) (bs : List Byte) :
    mread (mwrite m a bs) a bs.length = bs := by
  induction bs generalizing m a with
  | nil => rfl
  | cons b bs ih =>
    simp only [List.length_cons, mread]
    have : mread (mwrite m a (b :: bs)) (a + 1) bs.length = bs := by
      simp only [mwrite]; exact ih _ _
    rw [this, mget_mwrite, if_pos (by simp)]
    simp

/-- A read outside a write is unchanged. -/
theorem mread_mwrite_disjoint (m : List Host.Cell) (a : Nat) (bs : List Byte) (x k : Nat)
    (h : x + k ≤ a ∨ a + bs.length ≤ x) : mread (mwrite m a bs) x k = mread m x k :=
  mread_congr fun y h1 h2 => by rw [mget_mwrite, if_neg (by omega)]

/-! ### Byte order -/

@[simp] theorem natBytes_length (n v : Nat) : (natBytes n v).length = n := by
  induction n generalizing v with
  | zero => rfl
  | succ n ih => simp [natBytes, ih]

@[simp] theorem bytesNat_natBytes (n v : Nat) : bytesNat (natBytes n v) = v % 256 ^ n := by
  induction n generalizing v with
  | zero => simp [natBytes, bytesNat, Nat.mod_one]
  | succ n ih =>
    rw [pow_succ, mul_comm (256 ^ n) 256, Nat.mod_mul, natBytes, bytesNat, ih, BitVec.toNat_ofNat]

theorem bytesNat_lt (bs : List Byte) : bytesNat bs < 256 ^ bs.length := by
  induction bs with
  | nil => simp [bytesNat]
  | cons b bs ih =>
    simp only [bytesNat, List.length_cons, pow_succ]
    have := b.isLt
    omega

/-- A word reads back as it was written. -/
@[simp] theorem mword_msetWord (m : List Host.Cell) (a : Nat) (w : Word) : mword (msetWord m a w) a = w := by
  have h := mread_mwrite_self m a (natBytes 8 w.toNat)
  simp only [natBytes_length] at h
  rw [mword, msetWord, h, bytesNat_natBytes]
  have := w.isLt
  apply BitVec.eq_of_toNat_eq
  simp only [BitVec.toNat_ofNat]
  omega

/-- A word apart from a written one is unchanged. -/
theorem mword_msetWord_ne (m : List Host.Cell) (a x : Nat) (w : Word) (h : x + 8 ≤ a ∨ a + 8 ≤ x) :
    mword (msetWord m a w) x = mword m x := by
  rw [mword, msetWord, mread_mwrite_disjoint _ _ _ _ _ (by simpa using h), mword]

theorem wf_msetWord {m : List Host.Cell} (h : Memory.wf m = true) (a : Nat) (w : Word) :
    Memory.wf (msetWord m a w) = true := wf_mwrite h a _

namespace State

/-- A word and its tag read back as they were written. -/
@[simp] theorem word_setWord (s : State) (a : Nat) (t : Tagged) : (s.setWord a t).word a = t := by
  obtain ⟨v, p⟩ := t
  cases p <;> simp [setWord, word, tag]

/-- Every other word is unchanged. -/
theorem word_setWord_ne (s : State) (a x : Nat) (t : Tagged) (h : x / 8 ≠ a / 8) (ha : a % 8 = 0) (hx : x % 8 = 0) :
    (s.setWord a t).word x = s.word x := by
  have hm : mword (msetWord s.mem a t.val) x = mword s.mem x := mword_msetWord_ne _ _ _ _ (by omega)
  cases hp : t.poison <;> simp [setWord, word, tag, hp, hm, h]

theorem wf_setWord (s : State) (h : Memory.wf s.mem = true) (a : Nat) (t : Tagged) :
    Memory.wf (s.setWord a t).mem = true := wf_msetWord h a t.val

theorem wf_setBytes (s : State) (h : Memory.wf s.mem = true) (a : Nat) (bs : List Byte) (p : List Bool) :
    Memory.wf (s.setBytes a bs p).mem = true := wf_mwrite h a bs

/-- Reset memory has the canonical form. -/
theorem wf_reset : Memory.wf State.reset.mem = true := rfl

end State

end Sys2Proof.Machine
end

