-- ==== Sys2Proof/Laws/State.lean ====
section
/-!
SUPPORT. What each named update of the state leaves in each field: one lemma per field per update, and the same for the
control block of a slot.
-/

namespace Sys2Proof.Machine

namespace State

/-! ### modCore -/

@[simp] theorem modCore_mem (s : State) (c : Site) (f : Core → Core) : (s.modCore c f).mem = s.mem := rfl
@[simp] theorem modCore_poison (s : State) (c : Site) (f : Core → Core) : (s.modCore c f).poison = s.poison := rfl
@[simp] theorem modCore_uncorr (s : State) (c : Site) (f : Core → Core) : (s.modCore c f).uncorr = s.uncorr := rfl
@[simp] theorem modCore_empty (s : State) (c : Site) (f : Core → Core) : (s.modCore c f).empty = s.empty := rfl
@[simp] theorem modCore_held (s : State) (c : Site) (f : Core → Core) : (s.modCore c f).held = s.held := rfl
@[simp] theorem modCore_cores (s : State) (c : Site) (f : Core → Core) : (s.modCore c f).cores = aset s.cores c (f (s.core c)) := rfl
@[simp] theorem modCore_clusters (s : State) (c : Site) (f : Core → Core) : (s.modCore c f).clusters = s.clusters := rfl
@[simp] theorem modCore_dies (s : State) (c : Site) (f : Core → Core) : (s.modCore c f).dies = s.dies := rfl
@[simp] theorem modCore_ctxs (s : State) (c : Site) (f : Core → Core) : (s.modCore c f).ctxs = s.ctxs := rfl
@[simp] theorem modCore_reqs (s : State) (c : Site) (f : Core → Core) : (s.modCore c f).reqs = s.reqs := rfl
@[simp] theorem modCore_reservations (s : State) (c : Site) (f : Core → Core) : (s.modCore c f).reservations = s.reservations := rfl
@[simp] theorem modCore_resQueue (s : State) (c : Site) (f : Core → Core) : (s.modCore c f).resQueue = s.resQueue := rfl
@[simp] theorem modCore_syncs (s : State) (c : Site) (f : Core → Core) : (s.modCore c f).syncs = s.syncs := rfl
@[simp] theorem modCore_redSlots (s : State) (c : Site) (f : Core → Core) : (s.modCore c f).redSlots = s.redSlots := rfl
@[simp] theorem modCore_replies (s : State) (c : Site) (f : Core → Core) : (s.modCore c f).replies = s.replies := rfl
@[simp] theorem modCore_climbs (s : State) (c : Site) (f : Core → Core) : (s.modCore c f).climbs = s.climbs := rfl
@[simp] theorem modCore_treeOps (s : State) (c : Site) (f : Core → Core) : (s.modCore c f).treeOps = s.treeOps := rfl
@[simp] theorem modCore_enrol (s : State) (c : Site) (f : Core → Core) : (s.modCore c f).enrol = s.enrol := rfl
@[simp] theorem modCore_pkg (s : State) (c : Site) (f : Core → Core) : (s.modCore c f).pkg = s.pkg := rfl
@[simp] theorem modCore_cyc (s : State) (c : Site) (f : Core → Core) : (s.modCore c f).cyc = s.cyc := rfl
@[simp] theorem modCore_cur (s : State) (c : Site) (f : Core → Core) : (s.modCore c f).cur = s.cur := rfl
@[simp] theorem modCore_agenda (s : State) (c : Site) (f : Core → Core) : (s.modCore c f).agenda = s.agenda := rfl
@[simp] theorem modCore_draws (s : State) (c : Site) (f : Core → Core) : (s.modCore c f).draws = s.draws := rfl
@[simp] theorem modCore_serial (s : State) (c : Site) (f : Core → Core) : (s.modCore c f).serial = s.serial := rfl
@[simp] theorem modCore_images (s : State) (c : Site) (f : Core → Core) : (s.modCore c f).images = s.images := rfl

/-! ### modSlot -/

@[simp] theorem modSlot_mem (s : State) (c : Site) (i : Nat) (f : Slot → Slot) : (s.modSlot c i f).mem = s.mem := rfl
@[simp] theorem modSlot_poison (s : State) (c : Site) (i : Nat) (f : Slot → Slot) : (s.modSlot c i f).poison = s.poison := rfl
@[simp] theorem modSlot_uncorr (s : State) (c : Site) (i : Nat) (f : Slot → Slot) : (s.modSlot c i f).uncorr = s.uncorr := rfl
@[simp] theorem modSlot_empty (s : State) (c : Site) (i : Nat) (f : Slot → Slot) : (s.modSlot c i f).empty = s.empty := rfl
@[simp] theorem modSlot_held (s : State) (c : Site) (i : Nat) (f : Slot → Slot) : (s.modSlot c i f).held = s.held := rfl
@[simp] theorem modSlot_clusters (s : State) (c : Site) (i : Nat) (f : Slot → Slot) : (s.modSlot c i f).clusters = s.clusters := rfl
@[simp] theorem modSlot_dies (s : State) (c : Site) (i : Nat) (f : Slot → Slot) : (s.modSlot c i f).dies = s.dies := rfl
@[simp] theorem modSlot_ctxs (s : State) (c : Site) (i : Nat) (f : Slot → Slot) : (s.modSlot c i f).ctxs = s.ctxs := rfl
@[simp] theorem modSlot_reqs (s : State) (c : Site) (i : Nat) (f : Slot → Slot) : (s.modSlot c i f).reqs = s.reqs := rfl
@[simp] theorem modSlot_reservations (s : State) (c : Site) (i : Nat) (f : Slot → Slot) : (s.modSlot c i f).reservations = s.reservations := rfl
@[simp] theorem modSlot_resQueue (s : State) (c : Site) (i : Nat) (f : Slot → Slot) : (s.modSlot c i f).resQueue = s.resQueue := rfl
@[simp] theorem modSlot_syncs (s : State) (c : Site) (i : Nat) (f : Slot → Slot) : (s.modSlot c i f).syncs = s.syncs := rfl
@[simp] theorem modSlot_redSlots (s : State) (c : Site) (i : Nat) (f : Slot → Slot) : (s.modSlot c i f).redSlots = s.redSlots := rfl
@[simp] theorem modSlot_replies (s : State) (c : Site) (i : Nat) (f : Slot → Slot) : (s.modSlot c i f).replies = s.replies := rfl
@[simp] theorem modSlot_climbs (s : State) (c : Site) (i : Nat) (f : Slot → Slot) : (s.modSlot c i f).climbs = s.climbs := rfl
@[simp] theorem modSlot_treeOps (s : State) (c : Site) (i : Nat) (f : Slot → Slot) : (s.modSlot c i f).treeOps = s.treeOps := rfl
@[simp] theorem modSlot_enrol (s : State) (c : Site) (i : Nat) (f : Slot → Slot) : (s.modSlot c i f).enrol = s.enrol := rfl
@[simp] theorem modSlot_pkg (s : State) (c : Site) (i : Nat) (f : Slot → Slot) : (s.modSlot c i f).pkg = s.pkg := rfl
@[simp] theorem modSlot_cyc (s : State) (c : Site) (i : Nat) (f : Slot → Slot) : (s.modSlot c i f).cyc = s.cyc := rfl
@[simp] theorem modSlot_cur (s : State) (c : Site) (i : Nat) (f : Slot → Slot) : (s.modSlot c i f).cur = s.cur := rfl
@[simp] theorem modSlot_agenda (s : State) (c : Site) (i : Nat) (f : Slot → Slot) : (s.modSlot c i f).agenda = s.agenda := rfl
@[simp] theorem modSlot_draws (s : State) (c : Site) (i : Nat) (f : Slot → Slot) : (s.modSlot c i f).draws = s.draws := rfl
@[simp] theorem modSlot_serial (s : State) (c : Site) (i : Nat) (f : Slot → Slot) : (s.modSlot c i f).serial = s.serial := rfl
@[simp] theorem modSlot_images (s : State) (c : Site) (i : Nat) (f : Slot → Slot) : (s.modSlot c i f).images = s.images := rfl

/-! ### modMe -/

@[simp] theorem modMe_mem (s : State) (f : Slot → Slot) : (s.modMe f).mem = s.mem := rfl
@[simp] theorem modMe_poison (s : State) (f : Slot → Slot) : (s.modMe f).poison = s.poison := rfl
@[simp] theorem modMe_uncorr (s : State) (f : Slot → Slot) : (s.modMe f).uncorr = s.uncorr := rfl
@[simp] theorem modMe_empty (s : State) (f : Slot → Slot) : (s.modMe f).empty = s.empty := rfl
@[simp] theorem modMe_held (s : State) (f : Slot → Slot) : (s.modMe f).held = s.held := rfl
@[simp] theorem modMe_clusters (s : State) (f : Slot → Slot) : (s.modMe f).clusters = s.clusters := rfl
@[simp] theorem modMe_dies (s : State) (f : Slot → Slot) : (s.modMe f).dies = s.dies := rfl
@[simp] theorem modMe_ctxs (s : State) (f : Slot → Slot) : (s.modMe f).ctxs = s.ctxs := rfl
@[simp] theorem modMe_reqs (s : State) (f : Slot → Slot) : (s.modMe f).reqs = s.reqs := rfl
@[simp] theorem modMe_reservations (s : State) (f : Slot → Slot) : (s.modMe f).reservations = s.reservations := rfl
@[simp] theorem modMe_resQueue (s : State) (f : Slot → Slot) : (s.modMe f).resQueue = s.resQueue := rfl
@[simp] theorem modMe_syncs (s : State) (f : Slot → Slot) : (s.modMe f).syncs = s.syncs := rfl
@[simp] theorem modMe_redSlots (s : State) (f : Slot → Slot) : (s.modMe f).redSlots = s.redSlots := rfl
@[simp] theorem modMe_replies (s : State) (f : Slot → Slot) : (s.modMe f).replies = s.replies := rfl
@[simp] theorem modMe_climbs (s : State) (f : Slot → Slot) : (s.modMe f).climbs = s.climbs := rfl
@[simp] theorem modMe_treeOps (s : State) (f : Slot → Slot) : (s.modMe f).treeOps = s.treeOps := rfl
@[simp] theorem modMe_enrol (s : State) (f : Slot → Slot) : (s.modMe f).enrol = s.enrol := rfl
@[simp] theorem modMe_pkg (s : State) (f : Slot → Slot) : (s.modMe f).pkg = s.pkg := rfl
@[simp] theorem modMe_cyc (s : State) (f : Slot → Slot) : (s.modMe f).cyc = s.cyc := rfl
@[simp] theorem modMe_cur (s : State) (f : Slot → Slot) : (s.modMe f).cur = s.cur := rfl
@[simp] theorem modMe_agenda (s : State) (f : Slot → Slot) : (s.modMe f).agenda = s.agenda := rfl
@[simp] theorem modMe_draws (s : State) (f : Slot → Slot) : (s.modMe f).draws = s.draws := rfl
@[simp] theorem modMe_serial (s : State) (f : Slot → Slot) : (s.modMe f).serial = s.serial := rfl
@[simp] theorem modMe_images (s : State) (f : Slot → Slot) : (s.modMe f).images = s.images := rfl

/-! ### modCluster -/

@[simp] theorem modCluster_mem (s : State) (n : Nat) (f : Cluster → Cluster) : (s.modCluster n f).mem = s.mem := rfl
@[simp] theorem modCluster_poison (s : State) (n : Nat) (f : Cluster → Cluster) : (s.modCluster n f).poison = s.poison := rfl
@[simp] theorem modCluster_uncorr (s : State) (n : Nat) (f : Cluster → Cluster) : (s.modCluster n f).uncorr = s.uncorr := rfl
@[simp] theorem modCluster_empty (s : State) (n : Nat) (f : Cluster → Cluster) : (s.modCluster n f).empty = s.empty := rfl
@[simp] theorem modCluster_held (s : State) (n : Nat) (f : Cluster → Cluster) : (s.modCluster n f).held = s.held := rfl
@[simp] theorem modCluster_cores (s : State) (n : Nat) (f : Cluster → Cluster) : (s.modCluster n f).cores = s.cores := rfl
@[simp] theorem modCluster_clusters (s : State) (n : Nat) (f : Cluster → Cluster) : (s.modCluster n f).clusters = aset s.clusters n (f (s.cluster n)) := rfl
@[simp] theorem modCluster_dies (s : State) (n : Nat) (f : Cluster → Cluster) : (s.modCluster n f).dies = s.dies := rfl
@[simp] theorem modCluster_ctxs (s : State) (n : Nat) (f : Cluster → Cluster) : (s.modCluster n f).ctxs = s.ctxs := rfl
@[simp] theorem modCluster_reqs (s : State) (n : Nat) (f : Cluster → Cluster) : (s.modCluster n f).reqs = s.reqs := rfl
@[simp] theorem modCluster_reservations (s : State) (n : Nat) (f : Cluster → Cluster) : (s.modCluster n f).reservations = s.reservations := rfl
@[simp] theorem modCluster_resQueue (s : State) (n : Nat) (f : Cluster → Cluster) : (s.modCluster n f).resQueue = s.resQueue := rfl
@[simp] theorem modCluster_syncs (s : State) (n : Nat) (f : Cluster → Cluster) : (s.modCluster n f).syncs = s.syncs := rfl
@[simp] theorem modCluster_redSlots (s : State) (n : Nat) (f : Cluster → Cluster) : (s.modCluster n f).redSlots = s.redSlots := rfl
@[simp] theorem modCluster_replies (s : State) (n : Nat) (f : Cluster → Cluster) : (s.modCluster n f).replies = s.replies := rfl
@[simp] theorem modCluster_climbs (s : State) (n : Nat) (f : Cluster → Cluster) : (s.modCluster n f).climbs = s.climbs := rfl
@[simp] theorem modCluster_treeOps (s : State) (n : Nat) (f : Cluster → Cluster) : (s.modCluster n f).treeOps = s.treeOps := rfl
@[simp] theorem modCluster_enrol (s : State) (n : Nat) (f : Cluster → Cluster) : (s.modCluster n f).enrol = s.enrol := rfl
@[simp] theorem modCluster_pkg (s : State) (n : Nat) (f : Cluster → Cluster) : (s.modCluster n f).pkg = s.pkg := rfl
@[simp] theorem modCluster_cyc (s : State) (n : Nat) (f : Cluster → Cluster) : (s.modCluster n f).cyc = s.cyc := rfl
@[simp] theorem modCluster_cur (s : State) (n : Nat) (f : Cluster → Cluster) : (s.modCluster n f).cur = s.cur := rfl
@[simp] theorem modCluster_agenda (s : State) (n : Nat) (f : Cluster → Cluster) : (s.modCluster n f).agenda = s.agenda := rfl
@[simp] theorem modCluster_draws (s : State) (n : Nat) (f : Cluster → Cluster) : (s.modCluster n f).draws = s.draws := rfl
@[simp] theorem modCluster_serial (s : State) (n : Nat) (f : Cluster → Cluster) : (s.modCluster n f).serial = s.serial := rfl
@[simp] theorem modCluster_images (s : State) (n : Nat) (f : Cluster → Cluster) : (s.modCluster n f).images = s.images := rfl

/-! ### modDie -/

@[simp] theorem modDie_mem (s : State) (n : Nat) (f : Die → Die) : (s.modDie n f).mem = s.mem := rfl
@[simp] theorem modDie_poison (s : State) (n : Nat) (f : Die → Die) : (s.modDie n f).poison = s.poison := rfl
@[simp] theorem modDie_uncorr (s : State) (n : Nat) (f : Die → Die) : (s.modDie n f).uncorr = s.uncorr := rfl
@[simp] theorem modDie_empty (s : State) (n : Nat) (f : Die → Die) : (s.modDie n f).empty = s.empty := rfl
@[simp] theorem modDie_held (s : State) (n : Nat) (f : Die → Die) : (s.modDie n f).held = s.held := rfl
@[simp] theorem modDie_cores (s : State) (n : Nat) (f : Die → Die) : (s.modDie n f).cores = s.cores := rfl
@[simp] theorem modDie_clusters (s : State) (n : Nat) (f : Die → Die) : (s.modDie n f).clusters = s.clusters := rfl
@[simp] theorem modDie_dies (s : State) (n : Nat) (f : Die → Die) : (s.modDie n f).dies = aset s.dies n (f (s.die n)) := rfl
@[simp] theorem modDie_ctxs (s : State) (n : Nat) (f : Die → Die) : (s.modDie n f).ctxs = s.ctxs := rfl
@[simp] theorem modDie_reqs (s : State) (n : Nat) (f : Die → Die) : (s.modDie n f).reqs = s.reqs := rfl
@[simp] theorem modDie_reservations (s : State) (n : Nat) (f : Die → Die) : (s.modDie n f).reservations = s.reservations := rfl
@[simp] theorem modDie_resQueue (s : State) (n : Nat) (f : Die → Die) : (s.modDie n f).resQueue = s.resQueue := rfl
@[simp] theorem modDie_syncs (s : State) (n : Nat) (f : Die → Die) : (s.modDie n f).syncs = s.syncs := rfl
@[simp] theorem modDie_redSlots (s : State) (n : Nat) (f : Die → Die) : (s.modDie n f).redSlots = s.redSlots := rfl
@[simp] theorem modDie_replies (s : State) (n : Nat) (f : Die → Die) : (s.modDie n f).replies = s.replies := rfl
@[simp] theorem modDie_climbs (s : State) (n : Nat) (f : Die → Die) : (s.modDie n f).climbs = s.climbs := rfl
@[simp] theorem modDie_treeOps (s : State) (n : Nat) (f : Die → Die) : (s.modDie n f).treeOps = s.treeOps := rfl
@[simp] theorem modDie_enrol (s : State) (n : Nat) (f : Die → Die) : (s.modDie n f).enrol = s.enrol := rfl
@[simp] theorem modDie_pkg (s : State) (n : Nat) (f : Die → Die) : (s.modDie n f).pkg = s.pkg := rfl
@[simp] theorem modDie_cyc (s : State) (n : Nat) (f : Die → Die) : (s.modDie n f).cyc = s.cyc := rfl
@[simp] theorem modDie_cur (s : State) (n : Nat) (f : Die → Die) : (s.modDie n f).cur = s.cur := rfl
@[simp] theorem modDie_agenda (s : State) (n : Nat) (f : Die → Die) : (s.modDie n f).agenda = s.agenda := rfl
@[simp] theorem modDie_draws (s : State) (n : Nat) (f : Die → Die) : (s.modDie n f).draws = s.draws := rfl
@[simp] theorem modDie_serial (s : State) (n : Nat) (f : Die → Die) : (s.modDie n f).serial = s.serial := rfl
@[simp] theorem modDie_images (s : State) (n : Nat) (f : Die → Die) : (s.modDie n f).images = s.images := rfl

/-! ### modCtx -/

@[simp] theorem modCtx_mem (s : State) (n : Nat) (f : Ctx → Ctx) : (s.modCtx n f).mem = s.mem := rfl
@[simp] theorem modCtx_poison (s : State) (n : Nat) (f : Ctx → Ctx) : (s.modCtx n f).poison = s.poison := rfl
@[simp] theorem modCtx_uncorr (s : State) (n : Nat) (f : Ctx → Ctx) : (s.modCtx n f).uncorr = s.uncorr := rfl
@[simp] theorem modCtx_empty (s : State) (n : Nat) (f : Ctx → Ctx) : (s.modCtx n f).empty = s.empty := rfl
@[simp] theorem modCtx_held (s : State) (n : Nat) (f : Ctx → Ctx) : (s.modCtx n f).held = s.held := rfl
@[simp] theorem modCtx_cores (s : State) (n : Nat) (f : Ctx → Ctx) : (s.modCtx n f).cores = s.cores := rfl
@[simp] theorem modCtx_clusters (s : State) (n : Nat) (f : Ctx → Ctx) : (s.modCtx n f).clusters = s.clusters := rfl
@[simp] theorem modCtx_dies (s : State) (n : Nat) (f : Ctx → Ctx) : (s.modCtx n f).dies = s.dies := rfl
@[simp] theorem modCtx_ctxs (s : State) (n : Nat) (f : Ctx → Ctx) : (s.modCtx n f).ctxs = aset s.ctxs n (f (s.ctx n)) := rfl
@[simp] theorem modCtx_reqs (s : State) (n : Nat) (f : Ctx → Ctx) : (s.modCtx n f).reqs = s.reqs := rfl
@[simp] theorem modCtx_reservations (s : State) (n : Nat) (f : Ctx → Ctx) : (s.modCtx n f).reservations = s.reservations := rfl
@[simp] theorem modCtx_resQueue (s : State) (n : Nat) (f : Ctx → Ctx) : (s.modCtx n f).resQueue = s.resQueue := rfl
@[simp] theorem modCtx_syncs (s : State) (n : Nat) (f : Ctx → Ctx) : (s.modCtx n f).syncs = s.syncs := rfl
@[simp] theorem modCtx_redSlots (s : State) (n : Nat) (f : Ctx → Ctx) : (s.modCtx n f).redSlots = s.redSlots := rfl
@[simp] theorem modCtx_replies (s : State) (n : Nat) (f : Ctx → Ctx) : (s.modCtx n f).replies = s.replies := rfl
@[simp] theorem modCtx_climbs (s : State) (n : Nat) (f : Ctx → Ctx) : (s.modCtx n f).climbs = s.climbs := rfl
@[simp] theorem modCtx_treeOps (s : State) (n : Nat) (f : Ctx → Ctx) : (s.modCtx n f).treeOps = s.treeOps := rfl
@[simp] theorem modCtx_enrol (s : State) (n : Nat) (f : Ctx → Ctx) : (s.modCtx n f).enrol = s.enrol := rfl
@[simp] theorem modCtx_pkg (s : State) (n : Nat) (f : Ctx → Ctx) : (s.modCtx n f).pkg = s.pkg := rfl
@[simp] theorem modCtx_cyc (s : State) (n : Nat) (f : Ctx → Ctx) : (s.modCtx n f).cyc = s.cyc := rfl
@[simp] theorem modCtx_cur (s : State) (n : Nat) (f : Ctx → Ctx) : (s.modCtx n f).cur = s.cur := rfl
@[simp] theorem modCtx_agenda (s : State) (n : Nat) (f : Ctx → Ctx) : (s.modCtx n f).agenda = s.agenda := rfl
@[simp] theorem modCtx_draws (s : State) (n : Nat) (f : Ctx → Ctx) : (s.modCtx n f).draws = s.draws := rfl
@[simp] theorem modCtx_serial (s : State) (n : Nat) (f : Ctx → Ctx) : (s.modCtx n f).serial = s.serial := rfl
@[simp] theorem modCtx_images (s : State) (n : Nat) (f : Ctx → Ctx) : (s.modCtx n f).images = s.images := rfl

/-! ### modPkg -/

@[simp] theorem modPkg_mem (s : State) (f : Package → Package) : (s.modPkg f).mem = s.mem := rfl
@[simp] theorem modPkg_poison (s : State) (f : Package → Package) : (s.modPkg f).poison = s.poison := rfl
@[simp] theorem modPkg_uncorr (s : State) (f : Package → Package) : (s.modPkg f).uncorr = s.uncorr := rfl
@[simp] theorem modPkg_empty (s : State) (f : Package → Package) : (s.modPkg f).empty = s.empty := rfl
@[simp] theorem modPkg_held (s : State) (f : Package → Package) : (s.modPkg f).held = s.held := rfl
@[simp] theorem modPkg_cores (s : State) (f : Package → Package) : (s.modPkg f).cores = s.cores := rfl
@[simp] theorem modPkg_clusters (s : State) (f : Package → Package) : (s.modPkg f).clusters = s.clusters := rfl
@[simp] theorem modPkg_dies (s : State) (f : Package → Package) : (s.modPkg f).dies = s.dies := rfl
@[simp] theorem modPkg_ctxs (s : State) (f : Package → Package) : (s.modPkg f).ctxs = s.ctxs := rfl
@[simp] theorem modPkg_reqs (s : State) (f : Package → Package) : (s.modPkg f).reqs = s.reqs := rfl
@[simp] theorem modPkg_reservations (s : State) (f : Package → Package) : (s.modPkg f).reservations = s.reservations := rfl
@[simp] theorem modPkg_resQueue (s : State) (f : Package → Package) : (s.modPkg f).resQueue = s.resQueue := rfl
@[simp] theorem modPkg_syncs (s : State) (f : Package → Package) : (s.modPkg f).syncs = s.syncs := rfl
@[simp] theorem modPkg_redSlots (s : State) (f : Package → Package) : (s.modPkg f).redSlots = s.redSlots := rfl
@[simp] theorem modPkg_replies (s : State) (f : Package → Package) : (s.modPkg f).replies = s.replies := rfl
@[simp] theorem modPkg_climbs (s : State) (f : Package → Package) : (s.modPkg f).climbs = s.climbs := rfl
@[simp] theorem modPkg_treeOps (s : State) (f : Package → Package) : (s.modPkg f).treeOps = s.treeOps := rfl
@[simp] theorem modPkg_enrol (s : State) (f : Package → Package) : (s.modPkg f).enrol = s.enrol := rfl
@[simp] theorem modPkg_pkg (s : State) (f : Package → Package) : (s.modPkg f).pkg = f s.pkg := rfl
@[simp] theorem modPkg_cyc (s : State) (f : Package → Package) : (s.modPkg f).cyc = s.cyc := rfl
@[simp] theorem modPkg_cur (s : State) (f : Package → Package) : (s.modPkg f).cur = s.cur := rfl
@[simp] theorem modPkg_agenda (s : State) (f : Package → Package) : (s.modPkg f).agenda = s.agenda := rfl
@[simp] theorem modPkg_draws (s : State) (f : Package → Package) : (s.modPkg f).draws = s.draws := rfl
@[simp] theorem modPkg_serial (s : State) (f : Package → Package) : (s.modPkg f).serial = s.serial := rfl
@[simp] theorem modPkg_images (s : State) (f : Package → Package) : (s.modPkg f).images = s.images := rfl

/-! ### tag -/

@[simp] theorem tag_mem (s : State) (a : Nat) (p : Bool) : (s.tag a p).mem = s.mem := rfl
@[simp] theorem tag_poison (s : State) (a : Nat) (p : Bool) : (s.tag a p).poison = if p then nset s.poison (a / 8) else ndel s.poison (a / 8) := rfl
@[simp] theorem tag_uncorr (s : State) (a : Nat) (p : Bool) : (s.tag a p).uncorr = s.uncorr := rfl
@[simp] theorem tag_empty (s : State) (a : Nat) (p : Bool) : (s.tag a p).empty = s.empty := rfl
@[simp] theorem tag_held (s : State) (a : Nat) (p : Bool) : (s.tag a p).held = s.held := rfl
@[simp] theorem tag_cores (s : State) (a : Nat) (p : Bool) : (s.tag a p).cores = s.cores := rfl
@[simp] theorem tag_clusters (s : State) (a : Nat) (p : Bool) : (s.tag a p).clusters = s.clusters := rfl
@[simp] theorem tag_dies (s : State) (a : Nat) (p : Bool) : (s.tag a p).dies = s.dies := rfl
@[simp] theorem tag_ctxs (s : State) (a : Nat) (p : Bool) : (s.tag a p).ctxs = s.ctxs := rfl
@[simp] theorem tag_reqs (s : State) (a : Nat) (p : Bool) : (s.tag a p).reqs = s.reqs := rfl
@[simp] theorem tag_reservations (s : State) (a : Nat) (p : Bool) : (s.tag a p).reservations = s.reservations := rfl
@[simp] theorem tag_resQueue (s : State) (a : Nat) (p : Bool) : (s.tag a p).resQueue = s.resQueue := rfl
@[simp] theorem tag_syncs (s : State) (a : Nat) (p : Bool) : (s.tag a p).syncs = s.syncs := rfl
@[simp] theorem tag_redSlots (s : State) (a : Nat) (p : Bool) : (s.tag a p).redSlots = s.redSlots := rfl
@[simp] theorem tag_replies (s : State) (a : Nat) (p : Bool) : (s.tag a p).replies = s.replies := rfl
@[simp] theorem tag_climbs (s : State) (a : Nat) (p : Bool) : (s.tag a p).climbs = s.climbs := rfl
@[simp] theorem tag_treeOps (s : State) (a : Nat) (p : Bool) : (s.tag a p).treeOps = s.treeOps := rfl
@[simp] theorem tag_enrol (s : State) (a : Nat) (p : Bool) : (s.tag a p).enrol = s.enrol := rfl
@[simp] theorem tag_pkg (s : State) (a : Nat) (p : Bool) : (s.tag a p).pkg = s.pkg := rfl
@[simp] theorem tag_cyc (s : State) (a : Nat) (p : Bool) : (s.tag a p).cyc = s.cyc := rfl
@[simp] theorem tag_cur (s : State) (a : Nat) (p : Bool) : (s.tag a p).cur = s.cur := rfl
@[simp] theorem tag_agenda (s : State) (a : Nat) (p : Bool) : (s.tag a p).agenda = s.agenda := rfl
@[simp] theorem tag_draws (s : State) (a : Nat) (p : Bool) : (s.tag a p).draws = s.draws := rfl
@[simp] theorem tag_serial (s : State) (a : Nat) (p : Bool) : (s.tag a p).serial = s.serial := rfl
@[simp] theorem tag_images (s : State) (a : Nat) (p : Bool) : (s.tag a p).images = s.images := rfl

/-! ### setWord -/

@[simp] theorem setWord_mem (s : State) (a : Nat) (t : Tagged) : (s.setWord a t).mem = msetWord s.mem a t.val := rfl
@[simp] theorem setWord_poison (s : State) (a : Nat) (t : Tagged) : (s.setWord a t).poison = if t.poison then nset s.poison (a / 8) else ndel s.poison (a / 8) := rfl
@[simp] theorem setWord_uncorr (s : State) (a : Nat) (t : Tagged) : (s.setWord a t).uncorr = s.uncorr := rfl
@[simp] theorem setWord_empty (s : State) (a : Nat) (t : Tagged) : (s.setWord a t).empty = s.empty := rfl
@[simp] theorem setWord_held (s : State) (a : Nat) (t : Tagged) : (s.setWord a t).held = s.held := rfl
@[simp] theorem setWord_cores (s : State) (a : Nat) (t : Tagged) : (s.setWord a t).cores = s.cores := rfl
@[simp] theorem setWord_clusters (s : State) (a : Nat) (t : Tagged) : (s.setWord a t).clusters = s.clusters := rfl
@[simp] theorem setWord_dies (s : State) (a : Nat) (t : Tagged) : (s.setWord a t).dies = s.dies := rfl
@[simp] theorem setWord_ctxs (s : State) (a : Nat) (t : Tagged) : (s.setWord a t).ctxs = s.ctxs := rfl
@[simp] theorem setWord_reqs (s : State) (a : Nat) (t : Tagged) : (s.setWord a t).reqs = s.reqs := rfl
@[simp] theorem setWord_reservations (s : State) (a : Nat) (t : Tagged) : (s.setWord a t).reservations = s.reservations := rfl
@[simp] theorem setWord_resQueue (s : State) (a : Nat) (t : Tagged) : (s.setWord a t).resQueue = s.resQueue := rfl
@[simp] theorem setWord_syncs (s : State) (a : Nat) (t : Tagged) : (s.setWord a t).syncs = s.syncs := rfl
@[simp] theorem setWord_redSlots (s : State) (a : Nat) (t : Tagged) : (s.setWord a t).redSlots = s.redSlots := rfl
@[simp] theorem setWord_replies (s : State) (a : Nat) (t : Tagged) : (s.setWord a t).replies = s.replies := rfl
@[simp] theorem setWord_climbs (s : State) (a : Nat) (t : Tagged) : (s.setWord a t).climbs = s.climbs := rfl
@[simp] theorem setWord_treeOps (s : State) (a : Nat) (t : Tagged) : (s.setWord a t).treeOps = s.treeOps := rfl
@[simp] theorem setWord_enrol (s : State) (a : Nat) (t : Tagged) : (s.setWord a t).enrol = s.enrol := rfl
@[simp] theorem setWord_pkg (s : State) (a : Nat) (t : Tagged) : (s.setWord a t).pkg = s.pkg := rfl
@[simp] theorem setWord_cyc (s : State) (a : Nat) (t : Tagged) : (s.setWord a t).cyc = s.cyc := rfl
@[simp] theorem setWord_cur (s : State) (a : Nat) (t : Tagged) : (s.setWord a t).cur = s.cur := rfl
@[simp] theorem setWord_agenda (s : State) (a : Nat) (t : Tagged) : (s.setWord a t).agenda = s.agenda := rfl
@[simp] theorem setWord_draws (s : State) (a : Nat) (t : Tagged) : (s.setWord a t).draws = s.draws := rfl
@[simp] theorem setWord_serial (s : State) (a : Nat) (t : Tagged) : (s.setWord a t).serial = s.serial := rfl
@[simp] theorem setWord_images (s : State) (a : Nat) (t : Tagged) : (s.setWord a t).images = s.images := rfl

/-! ### setFull -/

@[simp] theorem setFull_mem (s : State) (a : Nat) (p : Bool) : (s.setFull a p).mem = s.mem := rfl
@[simp] theorem setFull_poison (s : State) (a : Nat) (p : Bool) : (s.setFull a p).poison = s.poison := rfl
@[simp] theorem setFull_uncorr (s : State) (a : Nat) (p : Bool) : (s.setFull a p).uncorr = s.uncorr := rfl
@[simp] theorem setFull_empty (s : State) (a : Nat) (p : Bool) : (s.setFull a p).empty = if p then ndel s.empty (a / 8) else nset s.empty (a / 8) := rfl
@[simp] theorem setFull_held (s : State) (a : Nat) (p : Bool) : (s.setFull a p).held = s.held := rfl
@[simp] theorem setFull_cores (s : State) (a : Nat) (p : Bool) : (s.setFull a p).cores = s.cores := rfl
@[simp] theorem setFull_clusters (s : State) (a : Nat) (p : Bool) : (s.setFull a p).clusters = s.clusters := rfl
@[simp] theorem setFull_dies (s : State) (a : Nat) (p : Bool) : (s.setFull a p).dies = s.dies := rfl
@[simp] theorem setFull_ctxs (s : State) (a : Nat) (p : Bool) : (s.setFull a p).ctxs = s.ctxs := rfl
@[simp] theorem setFull_reqs (s : State) (a : Nat) (p : Bool) : (s.setFull a p).reqs = s.reqs := rfl
@[simp] theorem setFull_reservations (s : State) (a : Nat) (p : Bool) : (s.setFull a p).reservations = s.reservations := rfl
@[simp] theorem setFull_resQueue (s : State) (a : Nat) (p : Bool) : (s.setFull a p).resQueue = s.resQueue := rfl
@[simp] theorem setFull_syncs (s : State) (a : Nat) (p : Bool) : (s.setFull a p).syncs = s.syncs := rfl
@[simp] theorem setFull_redSlots (s : State) (a : Nat) (p : Bool) : (s.setFull a p).redSlots = s.redSlots := rfl
@[simp] theorem setFull_replies (s : State) (a : Nat) (p : Bool) : (s.setFull a p).replies = s.replies := rfl
@[simp] theorem setFull_climbs (s : State) (a : Nat) (p : Bool) : (s.setFull a p).climbs = s.climbs := rfl
@[simp] theorem setFull_treeOps (s : State) (a : Nat) (p : Bool) : (s.setFull a p).treeOps = s.treeOps := rfl
@[simp] theorem setFull_enrol (s : State) (a : Nat) (p : Bool) : (s.setFull a p).enrol = s.enrol := rfl
@[simp] theorem setFull_pkg (s : State) (a : Nat) (p : Bool) : (s.setFull a p).pkg = s.pkg := rfl
@[simp] theorem setFull_cyc (s : State) (a : Nat) (p : Bool) : (s.setFull a p).cyc = s.cyc := rfl
@[simp] theorem setFull_cur (s : State) (a : Nat) (p : Bool) : (s.setFull a p).cur = s.cur := rfl
@[simp] theorem setFull_agenda (s : State) (a : Nat) (p : Bool) : (s.setFull a p).agenda = s.agenda := rfl
@[simp] theorem setFull_draws (s : State) (a : Nat) (p : Bool) : (s.setFull a p).draws = s.draws := rfl
@[simp] theorem setFull_serial (s : State) (a : Nat) (p : Bool) : (s.setFull a p).serial = s.serial := rfl
@[simp] theorem setFull_images (s : State) (a : Nat) (p : Bool) : (s.setFull a p).images = s.images := rfl

/-! ### setBytes -/

@[simp] theorem setBytes_mem (s : State) (a : Nat) (bs : List Byte) (p : List Bool) : (s.setBytes a bs p).mem = mwrite s.mem a bs := rfl
@[simp] theorem setBytes_uncorr (s : State) (a : Nat) (bs : List Byte) (p : List Bool) : (s.setBytes a bs p).uncorr = s.uncorr := rfl
@[simp] theorem setBytes_empty (s : State) (a : Nat) (bs : List Byte) (p : List Bool) : (s.setBytes a bs p).empty = s.empty := rfl
@[simp] theorem setBytes_held (s : State) (a : Nat) (bs : List Byte) (p : List Bool) : (s.setBytes a bs p).held = s.held := rfl
@[simp] theorem setBytes_cores (s : State) (a : Nat) (bs : List Byte) (p : List Bool) : (s.setBytes a bs p).cores = s.cores := rfl
@[simp] theorem setBytes_clusters (s : State) (a : Nat) (bs : List Byte) (p : List Bool) : (s.setBytes a bs p).clusters = s.clusters := rfl
@[simp] theorem setBytes_dies (s : State) (a : Nat) (bs : List Byte) (p : List Bool) : (s.setBytes a bs p).dies = s.dies := rfl
@[simp] theorem setBytes_ctxs (s : State) (a : Nat) (bs : List Byte) (p : List Bool) : (s.setBytes a bs p).ctxs = s.ctxs := rfl
@[simp] theorem setBytes_reqs (s : State) (a : Nat) (bs : List Byte) (p : List Bool) : (s.setBytes a bs p).reqs = s.reqs := rfl
@[simp] theorem setBytes_reservations (s : State) (a : Nat) (bs : List Byte) (p : List Bool) : (s.setBytes a bs p).reservations = s.reservations := rfl
@[simp] theorem setBytes_resQueue (s : State) (a : Nat) (bs : List Byte) (p : List Bool) : (s.setBytes a bs p).resQueue = s.resQueue := rfl
@[simp] theorem setBytes_syncs (s : State) (a : Nat) (bs : List Byte) (p : List Bool) : (s.setBytes a bs p).syncs = s.syncs := rfl
@[simp] theorem setBytes_redSlots (s : State) (a : Nat) (bs : List Byte) (p : List Bool) : (s.setBytes a bs p).redSlots = s.redSlots := rfl
@[simp] theorem setBytes_replies (s : State) (a : Nat) (bs : List Byte) (p : List Bool) : (s.setBytes a bs p).replies = s.replies := rfl
@[simp] theorem setBytes_climbs (s : State) (a : Nat) (bs : List Byte) (p : List Bool) : (s.setBytes a bs p).climbs = s.climbs := rfl
@[simp] theorem setBytes_treeOps (s : State) (a : Nat) (bs : List Byte) (p : List Bool) : (s.setBytes a bs p).treeOps = s.treeOps := rfl
@[simp] theorem setBytes_enrol (s : State) (a : Nat) (bs : List Byte) (p : List Bool) : (s.setBytes a bs p).enrol = s.enrol := rfl
@[simp] theorem setBytes_pkg (s : State) (a : Nat) (bs : List Byte) (p : List Bool) : (s.setBytes a bs p).pkg = s.pkg := rfl
@[simp] theorem setBytes_cyc (s : State) (a : Nat) (bs : List Byte) (p : List Bool) : (s.setBytes a bs p).cyc = s.cyc := rfl
@[simp] theorem setBytes_cur (s : State) (a : Nat) (bs : List Byte) (p : List Bool) : (s.setBytes a bs p).cur = s.cur := rfl
@[simp] theorem setBytes_agenda (s : State) (a : Nat) (bs : List Byte) (p : List Bool) : (s.setBytes a bs p).agenda = s.agenda := rfl
@[simp] theorem setBytes_draws (s : State) (a : Nat) (bs : List Byte) (p : List Bool) : (s.setBytes a bs p).draws = s.draws := rfl
@[simp] theorem setBytes_serial (s : State) (a : Nat) (bs : List Byte) (p : List Bool) : (s.setBytes a bs p).serial = s.serial := rfl
@[simp] theorem setBytes_images (s : State) (a : Nat) (bs : List Byte) (p : List Bool) : (s.setBytes a bs p).images = s.images := rfl

end State

namespace Slot

@[simp] theorem setCb_state (sl : Slot) (i : Nat) (w : Word) : (sl.setCb i w).state = sl.state := rfl
@[simp] theorem setCb_ctx (sl : Slot) (i : Nat) (w : Word) : (sl.setCb i w).ctx = sl.ctx := rfl
@[simp] theorem setCb_gen (sl : Slot) (i : Nat) (w : Word) : (sl.setCb i w).gen = sl.gen := rfl
@[simp] theorem setCb_wp (sl : Slot) (i : Nat) (w : Word) : (sl.setCb i w).wp = sl.wp := rfl
@[simp] theorem setCb_pend (sl : Slot) (i : Nat) (w : Word) : (sl.setCb i w).pend = sl.pend := rfl
@[simp] theorem setCb_asIssued (sl : Slot) (i : Nat) (w : Word) : (sl.setCb i w).asIssued = sl.asIssued := rfl
@[simp] theorem setCb_wait (sl : Slot) (i : Nat) (w : Word) : (sl.setCb i w).wait = sl.wait := rfl
@[simp] theorem setCb_waitSince (sl : Slot) (i : Nat) (w : Word) : (sl.setCb i w).waitSince = sl.waitSince := rfl
@[simp] theorem setCb_walkFault (sl : Slot) (i : Nat) (w : Word) : (sl.setCb i w).walkFault = sl.walkFault := rfl
@[simp] theorem setCb_lanes (sl : Slot) (i : Nat) (w : Word) : (sl.setCb i w).lanes = sl.lanes := rfl
@[simp] theorem setCb_touched (sl : Slot) (i : Nat) (w : Word) : (sl.setCb i w).touched = sl.touched := rfl
@[simp] theorem setCb_rsv (sl : Slot) (i : Nat) (w : Word) : (sl.setCb i w).rsv = sl.rsv := rfl
@[simp] theorem setCb_monitors (sl : Slot) (i : Nat) (w : Word) : (sl.setCb i w).monitors = sl.monitors := rfl
@[simp] theorem setCb_intr (sl : Slot) (i : Nat) (w : Word) : (sl.setCb i w).intr = sl.intr := rfl
@[simp] theorem setCb_exitVal (sl : Slot) (i : Nat) (w : Word) : (sl.setCb i w).exitVal = sl.exitVal := rfl
@[simp] theorem setCb_table (sl : Slot) (i : Nat) (w : Word) : (sl.setCb i w).table = sl.table := rfl
@[simp] theorem setCb_tablePoison (sl : Slot) (i : Nat) (w : Word) : (sl.setCb i w).tablePoison = sl.tablePoison := rfl
@[simp] theorem setCb_frame (sl : Slot) (i : Nat) (w : Word) : (sl.setCb i w).frame = sl.frame := rfl
@[simp] theorem setCb_lastOffer (sl : Slot) (i : Nat) (w : Word) : (sl.setCb i w).lastOffer = sl.lastOffer := rfl
@[simp] theorem setCb_yielding (sl : Slot) (i : Nat) (w : Word) : (sl.setCb i w).yielding = sl.yielding := rfl
@[simp] theorem setCb_queued (sl : Slot) (i : Nat) (w : Word) : (sl.setCb i w).queued = sl.queued := rfl
@[simp] theorem setCb_kept (sl : Slot) (i : Nat) (w : Word) : (sl.setCb i w).kept = sl.kept := rfl
@[simp] theorem setCb_promises (sl : Slot) (i : Nat) (w : Word) : (sl.setCb i w).promises = sl.promises := rfl
@[simp] theorem setCb_gangTrap (sl : Slot) (i : Nat) (w : Word) : (sl.setCb i w).gangTrap = sl.gangTrap := rfl
@[simp] theorem setCb_cbPoison (sl : Slot) (i : Nat) (w : Word) : (sl.setCb i w).cbPoison = sl.cbPoison := rfl
@[simp] theorem setPc_state (sl : Slot) (w : Word) : (sl.setPc w).state = sl.state := rfl
@[simp] theorem setPc_ctx (sl : Slot) (w : Word) : (sl.setPc w).ctx = sl.ctx := rfl
@[simp] theorem setPc_gen (sl : Slot) (w : Word) : (sl.setPc w).gen = sl.gen := rfl
@[simp] theorem setPc_wp (sl : Slot) (w : Word) : (sl.setPc w).wp = sl.wp := rfl
@[simp] theorem setPc_pend (sl : Slot) (w : Word) : (sl.setPc w).pend = sl.pend := rfl
@[simp] theorem setPc_asIssued (sl : Slot) (w : Word) : (sl.setPc w).asIssued = sl.asIssued := rfl
@[simp] theorem setPc_wait (sl : Slot) (w : Word) : (sl.setPc w).wait = sl.wait := rfl
@[simp] theorem setPc_waitSince (sl : Slot) (w : Word) : (sl.setPc w).waitSince = sl.waitSince := rfl
@[simp] theorem setPc_walkFault (sl : Slot) (w : Word) : (sl.setPc w).walkFault = sl.walkFault := rfl
@[simp] theorem setPc_lanes (sl : Slot) (w : Word) : (sl.setPc w).lanes = sl.lanes := rfl
@[simp] theorem setPc_touched (sl : Slot) (w : Word) : (sl.setPc w).touched = sl.touched := rfl
@[simp] theorem setPc_rsv (sl : Slot) (w : Word) : (sl.setPc w).rsv = sl.rsv := rfl
@[simp] theorem setPc_monitors (sl : Slot) (w : Word) : (sl.setPc w).monitors = sl.monitors := rfl
@[simp] theorem setPc_intr (sl : Slot) (w : Word) : (sl.setPc w).intr = sl.intr := rfl
@[simp] theorem setPc_exitVal (sl : Slot) (w : Word) : (sl.setPc w).exitVal = sl.exitVal := rfl
@[simp] theorem setPc_table (sl : Slot) (w : Word) : (sl.setPc w).table = sl.table := rfl
@[simp] theorem setPc_tablePoison (sl : Slot) (w : Word) : (sl.setPc w).tablePoison = sl.tablePoison := rfl
@[simp] theorem setPc_frame (sl : Slot) (w : Word) : (sl.setPc w).frame = sl.frame := rfl
@[simp] theorem setPc_lastOffer (sl : Slot) (w : Word) : (sl.setPc w).lastOffer = sl.lastOffer := rfl
@[simp] theorem setPc_yielding (sl : Slot) (w : Word) : (sl.setPc w).yielding = sl.yielding := rfl
@[simp] theorem setPc_queued (sl : Slot) (w : Word) : (sl.setPc w).queued = sl.queued := rfl
@[simp] theorem setPc_kept (sl : Slot) (w : Word) : (sl.setPc w).kept = sl.kept := rfl
@[simp] theorem setPc_promises (sl : Slot) (w : Word) : (sl.setPc w).promises = sl.promises := rfl
@[simp] theorem setPc_gangTrap (sl : Slot) (w : Word) : (sl.setPc w).gangTrap = sl.gangTrap := rfl
@[simp] theorem setPc_cbPoison (sl : Slot) (w : Word) : (sl.setPc w).cbPoison = sl.cbPoison := rfl
@[simp] theorem setStat_state (sl : Slot) (lo len v : Nat) : (sl.setStat lo len v).state = sl.state := rfl
@[simp] theorem setStat_ctx (sl : Slot) (lo len v : Nat) : (sl.setStat lo len v).ctx = sl.ctx := rfl
@[simp] theorem setStat_gen (sl : Slot) (lo len v : Nat) : (sl.setStat lo len v).gen = sl.gen := rfl
@[simp] theorem setStat_wp (sl : Slot) (lo len v : Nat) : (sl.setStat lo len v).wp = sl.wp := rfl
@[simp] theorem setStat_pend (sl : Slot) (lo len v : Nat) : (sl.setStat lo len v).pend = sl.pend := rfl
@[simp] theorem setStat_asIssued (sl : Slot) (lo len v : Nat) : (sl.setStat lo len v).asIssued = sl.asIssued := rfl
@[simp] theorem setStat_wait (sl : Slot) (lo len v : Nat) : (sl.setStat lo len v).wait = sl.wait := rfl
@[simp] theorem setStat_waitSince (sl : Slot) (lo len v : Nat) : (sl.setStat lo len v).waitSince = sl.waitSince := rfl
@[simp] theorem setStat_walkFault (sl : Slot) (lo len v : Nat) : (sl.setStat lo len v).walkFault = sl.walkFault := rfl
@[simp] theorem setStat_lanes (sl : Slot) (lo len v : Nat) : (sl.setStat lo len v).lanes = sl.lanes := rfl
@[simp] theorem setStat_touched (sl : Slot) (lo len v : Nat) : (sl.setStat lo len v).touched = sl.touched := rfl
@[simp] theorem setStat_rsv (sl : Slot) (lo len v : Nat) : (sl.setStat lo len v).rsv = sl.rsv := rfl
@[simp] theorem setStat_monitors (sl : Slot) (lo len v : Nat) : (sl.setStat lo len v).monitors = sl.monitors := rfl
@[simp] theorem setStat_intr (sl : Slot) (lo len v : Nat) : (sl.setStat lo len v).intr = sl.intr := rfl
@[simp] theorem setStat_exitVal (sl : Slot) (lo len v : Nat) : (sl.setStat lo len v).exitVal = sl.exitVal := rfl
@[simp] theorem setStat_table (sl : Slot) (lo len v : Nat) : (sl.setStat lo len v).table = sl.table := rfl
@[simp] theorem setStat_tablePoison (sl : Slot) (lo len v : Nat) : (sl.setStat lo len v).tablePoison = sl.tablePoison := rfl
@[simp] theorem setStat_frame (sl : Slot) (lo len v : Nat) : (sl.setStat lo len v).frame = sl.frame := rfl
@[simp] theorem setStat_lastOffer (sl : Slot) (lo len v : Nat) : (sl.setStat lo len v).lastOffer = sl.lastOffer := rfl
@[simp] theorem setStat_yielding (sl : Slot) (lo len v : Nat) : (sl.setStat lo len v).yielding = sl.yielding := rfl
@[simp] theorem setStat_queued (sl : Slot) (lo len v : Nat) : (sl.setStat lo len v).queued = sl.queued := rfl
@[simp] theorem setStat_kept (sl : Slot) (lo len v : Nat) : (sl.setStat lo len v).kept = sl.kept := rfl
@[simp] theorem setStat_promises (sl : Slot) (lo len v : Nat) : (sl.setStat lo len v).promises = sl.promises := rfl
@[simp] theorem setStat_gangTrap (sl : Slot) (lo len v : Nat) : (sl.setStat lo len v).gangTrap = sl.gangTrap := rfl
@[simp] theorem setStat_cbPoison (sl : Slot) (lo len v : Nat) : (sl.setStat lo len v).cbPoison = sl.cbPoison := rfl

end Slot

end Sys2Proof.Machine
end

