-- ==== Sys2Proof/Laws/Slots.lean ====
section
/-!
SUPPORT. Cores, slots and registers after an update: what was changed reads as set, and everything else as before.
-/

namespace Sys2Proof.Machine

namespace Slot

@[simp] theorem cbWord_setCb_self (sl : Slot) (i : Nat) (w : Word) : (sl.setCb i w).cbWord i = w := by
  simp [cbWord, setCb]

theorem cbWord_setCb_ne (sl : Slot) {i j : Nat} (w : Word) (h : j ≠ i) : (sl.setCb i w).cbWord j = sl.cbWord j := by
  simp [cbWord, setCb, aget_aset_ne _ _ _ h]

theorem cbWord_setCb (sl : Slot) (i j : Nat) (w : Word) :
    (sl.setCb i w).cbWord j = if j = i then w else sl.cbWord j := by
  split
  · subst j; simp
  · exact cbWord_setCb_ne sl w ‹_›

@[simp] theorem pc_setPc (sl : Slot) (w : Word) : (sl.setPc w).pc = w := cbWord_setCb_self sl cbPc w

@[simp] theorem pc_setStat (sl : Slot) (lo len v : Nat) : (sl.setStat lo len v).pc = sl.pc :=
  cbWord_setCb_ne _ _ (by decide)

@[simp] theorem stat_setPc (sl : Slot) (w : Word) : (sl.setPc w).stat = sl.stat := cbWord_setCb_ne _ _ (by decide)

theorem lc_setStat (sl : Slot) (lo len v n : Nat) : (sl.setStat lo len v).lc n = sl.lc n := by
  have h : cbLc + n / 2 ≠ cbStat := by simp only [cbLc, cbStat]; omega
  simp [lc, setStat, cbWord_setCb_ne _ _ h]

@[simp] theorem act_setStat (sl : Slot) (lo len v : Nat) : (sl.setStat lo len v).act = sl.act := by
  simp [act, setStat, cbWord_setCb_ne _ _ (show cbRptst ≠ cbStat by decide)]

@[simp] theorem act_setPc (sl : Slot) (w : Word) : (sl.setPc w).act = sl.act := by
  simp [act, setPc, cbWord_setCb_ne _ _ (show cbRptst ≠ cbPc by decide)]

/-- No hardware loop of the slot has a count. -/
def NoLoop (sl : Slot) : Prop := ∀ n < 4, sl.lc n = 0

theorem endCheckFrom_noLoop (sl : Slot) (e : Word) (n : Nat) (h : ∀ k < n, sl.lc k = 0) :
    endCheckFrom n e sl = (sl, false) := by
  induction n with
  | zero => rfl
  | succ n ih =>
    simp [endCheckFrom, endLoop, h n (by omega), ih fun k hk => h k (by omega)]

/-- Without a loop count, EndCheck goes on at the next instruction (R289). -/
theorem endCheck_noLoop (sl : Slot) (e : Word) (z : Nat) (h : sl.NoLoop) : sl.endCheck e z = sl.setPc (e + wordOf z) := by
  simp [endCheck, endCheckFrom_noLoop sl e 4 h]

/-- Outside a repeat frame and without a loop count, the slot moves to the next instruction. -/
theorem advance_plain (sl : Slot) (len : Nat) (ha : sl.act = false) (h : sl.NoLoop) :
    sl.advance len = sl.setPc (sl.pc + wordOf len) := by
  simp [advance, ha, endCheck_noLoop sl sl.pc len h]

end Slot

namespace State

/-! ### Cores and slots -/

@[simp] theorem core_modCore_self (s : State) (c : Site) (f : Core → Core) : (s.modCore c f).core c = f (s.core c) := by
  simp [core, modCore]

theorem core_modCore_ne (s : State) {c d : Site} (f : Core → Core) (h : d ≠ c) : (s.modCore c f).core d = s.core d := by
  simp [core, modCore, aget_aset_ne _ _ _ h]

@[simp] theorem slot_modSlot_self (s : State) (c : Site) (i : Nat) (f : Slot → Slot) :
    (s.modSlot c i f).slot c i = f (s.slot c i) := by
  simp [slot, modSlot]

theorem slot_modSlot_ne (s : State) {c d : Site} {i j : Nat} (f : Slot → Slot) (h : d ≠ c ∨ j ≠ i) :
    (s.modSlot c i f).slot d j = s.slot d j := by
  by_cases hc : d = c
  · subst d
    have hj : j ≠ i := by simpa using h
    simp [slot, modSlot, aget_aset_ne _ _ _ hj]
  · simp [slot, modSlot, core_modCore_ne _ _ hc]

@[simp] theorem modCore_modCore (s : State) (c : Site) (f g : Core → Core) :
    (s.modCore c f).modCore c g = s.modCore c fun k => g (f k) := by
  simp [modCore, core]

@[simp] theorem modSlot_modSlot (s : State) (c : Site) (i : Nat) (f g : Slot → Slot) :
    (s.modSlot c i f).modSlot c i g = s.modSlot c i fun sl => g (f sl) := by
  simp [modSlot]

@[simp] theorem modMe_modMe (s : State) (f g : Slot → Slot) :
    (s.modMe f).modMe g = s.modMe fun sl => g (f sl) := by
  simp [modMe]

@[simp] theorem me_modMe (s : State) (f : Slot → Slot) : (s.modMe f).me = f s.me := by
  simp [me, modMe]

/-- A change of a slot is known by what it makes of the slot. -/
theorem modSlot_congr (s : State) (c : Site) (i : Nat) {f g : Slot → Slot} (h : f (s.slot c i) = g (s.slot c i)) :
    s.modSlot c i f = s.modSlot c i g := by
  simp only [slot] at h
  simp only [modSlot, modCore, h]

theorem modMe_congr (s : State) {f g : Slot → Slot} (h : f s.me = g s.me) : s.modMe f = s.modMe g :=
  modSlot_congr s _ _ h

@[simp] theorem core_setWord (s : State) (c : Site) (a : Nat) (t : Tagged) : (s.setWord a t).core c = s.core c := rfl

@[simp] theorem slot_setWord (s : State) (c : Site) (i : Nat) (a : Nat) (t : Tagged) :
    (s.setWord a t).slot c i = s.slot c i := rfl

/-! ### Registers -/

@[simp] theorem word_modSlot (s : State) (c : Site) (i : Nat) (f : Slot → Slot) (a : Nat) :
    (s.modSlot c i f).word a = s.word a := rfl

@[simp] theorem word_modMe (s : State) (f : Slot → Slot) (a : Nat) : (s.modMe f).word a = s.word a := rfl

/-- A slot with nothing kept from the issue of its instruction reads memory. -/
theorem wordAt_eq (s : State) (c : Site) (i a : Nat) (h : (s.slot c i).asIssued = []) : s.wordAt c i a = s.word a := by
  simp [wordAt, Slot.issued, h]

/-- A change of a slot that keeps its workspace, and what it keeps from the issue of its instruction, leaves every register as it was. -/
theorem regAt_modSlot (s : State) (c : Site) (i : Nat) (f : Slot → Slot) (r : Reg)
    (h : (f (s.slot c i)).wp = (s.slot c i).wp) (h' : (f (s.slot c i)).asIssued = (s.slot c i).asIssued) :
    (s.modSlot c i f).regAt c i r = s.regAt c i r := by
  simp [regAt, wordAt, Slot.issued, regAddr, h, h']

/-- w0 reads as zero, without poison (R164). -/
@[simp] theorem regAt_zero (s : State) (c : Site) (i : Nat) : s.regAt c i 0 = ⟨0, false⟩ := rfl

/-- Nothing is written for w0 (R164). -/
@[simp] theorem regWrite_zero (s : State) (c : Site) (i : Nat) (t : Tagged) : s.regWrite c i 0 t = [] := rfl

/-- The one write of any other register. -/
theorem regWrite_ne (s : State) (c : Site) (i : Nat) {r : Reg} (t : Tagged) (h : r ≠ 0) :
    s.regWrite c i r t = [⟨.word (s.regAddr c i r), t, BitVec.allOnes 64⟩] := if_neg h

theorem bufAddr_mod8 (c : Site) (b : Buf) (off : Nat) : bufAddr c b off % 8 = off % 8 := by
  simp only [bufAddr]; omega

theorem wsBase_mod8 (c : Site) (wp : BitVec 5) : wsBase c wp % 8 = 0 := by
  simp only [wsBase, bufAddr_mod8]; omega

theorem regAddr_mod8 (s : State) (c : Site) (i : Nat) (r : Reg) : s.regAddr c i r % 8 = 0 := by
  have := wsBase_mod8 c (s.slot c i).wp
  simp only [regAddr]; omega

theorem regAddr_inj (s : State) (c : Site) (i : Nat) {r q : Reg} (h : s.regAddr c i r = s.regAddr c i q) : r = q := by
  simp only [regAddr] at h
  exact BitVec.eq_of_toNat_eq (by omega)

end State

end Sys2Proof.Machine
end

