-- ==== Sys2Proof/Safety.lean ====
section
/-!
DEFINITION. What counts as a safe step and a safe state, and the words that claims are written in: when an instruction
meets no trap of the scoreboard or of poison, what it puts in flight, and which schedules are legal.
-/

namespace Sys2Proof.Machine

/-! ### Running on -/

/-- A step is safe when the machine does not stop: it answers a next state. -/
def Proceeds (o : Host.Outcome State Fault Refusal) : Prop := ∃ s', o = .next s'

/-- The machine can go on from a state. -/
def State.CanStep (s : State) : Prop := Proceeds (step s)

/-- An act names a core site and a slot that exist (R1, R202). -/
def Act.Legal : Act → Prop
  | .offer c => c < 4096
  | .issue c i => c < 4096 ∧ i < 11
  | .phase _ => True

namespace State

/-- Every act still to come names a site and a slot that exist. -/
def Legal (s : State) : Prop := ∀ a ∈ s.agenda, a.Legal

/-! ### Issuing without a trap -/

/-- The checking scoreboard has nothing to report for the issuing slot: it is off, or nothing is in flight (R206). -/
def Quiet (s : State) : Prop := s.me.chk = false ∨ s.me.pend = []

/-- The registers hold no poison. -/
def Clean (s : State) (rs : List Reg) : Prop := ∀ r ∈ rs, (s.reg r).poison = false

/-- The issuing slot has results in flight at their distances, after those it had; a result of no word is none (R164). -/
def inFlight (s : State) (rs : List (Nat × List WordWrite)) : State :=
  s.modMe fun sl => { sl with pend := sl.pend ++ (rs.filter fun r => !r.2.isEmpty).map fun r => ⟨r.1, r.2⟩ }

/-- The issuing slot has issued an instruction of `len` bytes with stall count `st`: its results are in flight, its flags
are in STAT, and the slot has moved on. -/
def issued (s : State) (st : Stall) (len : Nat) (fl : Flags) (rs : List (Nat × List WordWrite)) : State :=
  ((s.inFlight rs).addFlags fl).retire st len

/-- As `issued`, for an instruction without flags. -/
def results (s : State) (st : Stall) (len : Nat) (rs : List (Nat × List WordWrite)) : State :=
  (s.inFlight rs).retire st len

/-- The poison of a result: that of any of its sources (R226). -/
def tainted (s : State) (rs : List Reg) : Bool := rs.any fun r => (s.reg r).poison

end State

end Sys2Proof.Machine
end

