-- ==== Sys2Proof/Laws/Ops.lean ====
section
/-!
SUPPORT. What each shared operation of issuing can do: the scoreboard's checks, poison, results in flight, and moving on.
-/

namespace Sys2Proof.Machine

namespace State

theorem readCheck_quiet {s : State} (h : s.Quiet) (ds : List Dest) (k : State) : s.readCheck ds k = k := by
  rcases h with h | h
  · simp [readCheck, h]
  · have : shortDest s.me ds = none := by simp [shortDest, h]
    simp [readCheck, this]

theorem poisonReg_clean {s : State} {rs : List Reg} (h : s.Clean rs) : s.poisonReg rs = none :=
  List.find?_eq_none.2 fun r hr => by simp [h r hr]

/-- Operands without poison, and nothing for the scoreboard to report: the instruction goes on. -/
theorem useRegs_clean {s : State} (hq : s.Quiet) {rs : List Reg} (hc : s.Clean rs) (k : State) : s.useRegs rs k = k := by
  simp [useRegs, readCheck_quiet hq, poisonReg_clean hc]

theorem lateDest_quiet {s : State} (h : s.Quiet) (rs : List (Nat × List WordWrite)) :
    (if s.me.chk then rs.findSome? (fun (d, ws) => lateDest s.me d ws) else none) = none := by
  rcases h with h | h
  · simp [h]
  · simp [lateDest, h]

/-- Posting results one after another puts them in flight together. -/
theorem post_fold (s : State) (rs : List (Nat × List WordWrite)) :
    rs.foldl (fun s (d, ws) => s.post d ws) s = if rs.all (fun r => r.2.isEmpty) then s else s.inFlight rs := by
  induction rs generalizing s with
  | nil => simp
  | cons r rs ih =>
    obtain ⟨d, ws⟩ := r
    simp only [List.foldl_cons, ih]
    cases ws with
    | nil =>
      have : (((d, []) :: rs).all fun r : Nat × List WordWrite => r.2.isEmpty) = rs.all fun r => r.2.isEmpty := by simp
      rw [this]
      simp [post, inFlight]
    | cons w ws =>
      by_cases h : rs.all (fun r => r.2.isEmpty) = true
      · have hf : rs.filter (fun r => !r.2.isEmpty) = [] := by
          rw [List.filter_eq_nil_iff]; intro a ha
          have := List.all_eq_true.1 h a ha
          simp [this]
        simp [h, post, inFlight, hf]
      · simp [h, post, inFlight]

/-- Results of no word are not in flight. -/
theorem inFlight_none (s : State) (rs : List (Nat × List WordWrite)) (h : rs.all (fun r => r.2.isEmpty) = true)
    (f : Slot → Slot) : (s.inFlight rs).modMe f = s.modMe f := by
  have hf : rs.filter (fun r => !r.2.isEmpty) = [] := by
    rw [List.filter_eq_nil_iff]; intro a ha
    have := List.all_eq_true.1 h a ha
    simp [this]
  unfold inFlight
  rw [modMe_modMe]
  apply modMe_congr
  simp only [hf, List.map_nil, List.append_nil]

/-- Finishing an instruction: its results are in flight and the slot has moved on. -/
theorem finish_quiet {s : State} (h : s.Quiet) (st : Stall) (len : Nat) (rs : List (Nat × List WordWrite)) :
    s.finish st len rs = s.results st len rs := by
  simp only [finish, lateDest_quiet h, post_fold]
  split
  · exact (inFlight_none s rs ‹_› _).symm
  · rfl

/-- Finishing an instruction with flags. -/
theorem finishF_quiet {s : State} (h : s.Quiet) (st : Stall) (len : Nat) (fl : Flags) (rs : List (Nat × List WordWrite)) :
    s.finishF st len fl rs = s.issued st len fl rs := by
  simp only [finishF, finishW, lateDest_quiet h, post_fold]
  split
  · unfold issued addFlags
    rw [inFlight_none s rs ‹_›]
  · rfl

/-- Finishing an instruction with an effect of its own beside its results. -/
theorem finishW_quiet {s : State} (h : s.Quiet) (st : Stall) (len : Nat) (pre : State → State)
    (rs : List (Nat × List WordWrite)) (hr : ∃ r ∈ rs, r.2.isEmpty = false) :
    s.finishW st len pre rs = (pre (s.inFlight rs)).retire st len := by
  have : rs.all (fun r => r.2.isEmpty) = false := by
    rw [Bool.eq_false_iff]; intro hall
    obtain ⟨r, hr, he⟩ := hr
    have := List.all_eq_true.1 hall r hr
    simp [he] at this
  simp [finishW, lateDest_quiet h, post_fold, this]

/-! ### Frames -/

@[simp] theorem inFlight_mem (s : State) (rs : List (Nat × List WordWrite)) : (s.inFlight rs).mem = s.mem := rfl
@[simp] theorem inFlight_poison (s : State) (rs : List (Nat × List WordWrite)) : (s.inFlight rs).poison = s.poison := rfl
@[simp] theorem inFlight_cur (s : State) (rs : List (Nat × List WordWrite)) : (s.inFlight rs).cur = s.cur := rfl
@[simp] theorem retire_mem (s : State) (st : Stall) (len : Nat) : (s.retire st len).mem = s.mem := rfl
@[simp] theorem retire_poison (s : State) (st : Stall) (len : Nat) : (s.retire st len).poison = s.poison := rfl
@[simp] theorem retire_cur (s : State) (st : Stall) (len : Nat) : (s.retire st len).cur = s.cur := rfl
@[simp] theorem transfer_mem (s : State) (st : Stall) (t : Word) : (s.transfer st t).mem = s.mem := rfl

/-- Equal slots stay equal when they leave behind what a waiting instruction kept. -/
theorem slot_moved (x y : Slot) (h : x = y) : ({ x with
      waitSince := none
      walkFault := none
      lanes := []
      asIssued := [] } : Slot) = { y with
      waitSince := none
      walkFault := none
      lanes := []
      asIssued := [] } := by
  subst h; rfl

/-- Advancing with a stall count, outside a repeat frame and without a loop count. -/
theorem advance_stall (sl : Slot) (len n : Nat) (ha : sl.act = false) (hl : sl.NoLoop) :
    (sl.setStat 24 3 n).advance len = (sl.setStat 24 3 n).setPc (sl.pc + wordOf len) := by
  have h := Slot.advance_plain (sl.setStat 24 3 n) len (by rw [Slot.act_setStat]; exact ha)
    fun m hm => by rw [Slot.lc_setStat]; exact hl m hm
  rwa [Slot.pc_setStat] at h

/-- Outside a repeat frame and without a loop count, the slot moves to the next instruction, and owes the turns of its stall count. -/
theorem retire_plain (s : State) (st : Stall) (len : Nat) (ha : s.me.act = false) (hl : s.me.NoLoop) :
    s.retire st len = s.modMe fun _ => { (s.me.setStat 24 3 (s.me.stallOf st)).setPc (s.me.pc + wordOf len) with
      waitSince := none
      walkFault := none
      lanes := []
      asIssued := [] } := by
  rw [← advance_stall s.me len _ ha hl]
  exact modMe_congr s (slot_moved _ _ rfl)

/-- The program counter of a slot that has moved to a place. -/
theorem pc_moved (sl : Slot) (w : Word) (n : Nat) : ({ (sl.setStat 24 3 n).setPc w with
      waitSince := none
      walkFault := none
      lanes := []
      asIssued := [] } : Slot).pc = w := by
  have h := Slot.pc_setPc (sl.setStat 24 3 n) w
  unfold Slot.pc Slot.cbWord at h ⊢
  simp only at h ⊢
  exact h

/-- An instruction that has not waited owes the turns it names. -/
theorem stallOf_fresh (sl : Slot) (st : Stall) (h : sl.waitSince = none) : sl.stallOf st = st.toNat := by
  simp [Slot.stallOf, Slot.parkedSince, h]

/-- The program counter after a plain instruction. -/
theorem pc_retire_plain (s : State) (st : Stall) (len : Nat) (ha : s.me.act = false) (hl : s.me.NoLoop) :
    (s.retire st len).me.pc = s.me.pc + wordOf len := by
  rw [retire_plain s st len ha hl, me_modMe]
  exact pc_moved _ _ _

/-- The program counter after a taken transfer of control. -/
theorem pc_transfer (s : State) (st : Stall) (t : Word) : (s.transfer st t).me.pc = t := by
  unfold transfer
  rw [me_modMe]
  exact pc_moved _ _ _

end State

end Sys2Proof.Machine
end

