-- ==== Sys2Proof/Laws/Encoding.lean ====
section
/-!
SUPPORT. Encoding and decoding agree: the fields of an encoded word read back, format by format.
-/

set_option linter.unusedSimpArgs false
set_option linter.unreachableTactic false
set_option linter.unusedTactic false
set_option linter.unnecessarySeqFocus false
set_option linter.unusedVariables false

namespace Sys2Proof

/-- What decoding the encoding of an instruction gives back (R240 to R273): its words are 32 bits, X tells whether there is
an extension word, and the words decode to the instruction, whatever follows a short one. -/
def Encodes (i : Instr) : Prop :=
  i.wf = true → ∀ w e, i.encode = some (w, e) →
    w < 2 ^ 32 ∧ xBit w = e.isSome ∧ (∀ x ∈ e, x < 2 ^ 32) ∧ ∀ y, decodeWords w (e.getD y) = .ok i

/-! ### The fixed part of a first word -/

theorem encHead_eq (x : Bool) (s : Stall) (op : Nat) : encHead x s op = 2 ^ 20 * (x.toNat * 2 ^ 11 + s.toNat * 2 ^ 8 + op) := by
  simp only [encHead]; omega

theorem head_lt (x : Bool) (s : Stall) {op B : Nat} (ho : op < 256) (hB : B < 2 ^ 20) : encHead x s op + B < 2 ^ 32 := by
  have := s.isLt
  cases x <;> simp only [encHead, Bool.toNat_true, Bool.toNat_false] <;> omega

theorem xBit_head (x : Bool) (s : Stall) {op B : Nat} (ho : op < 256) (hB : B < 2 ^ 20) : xBit (encHead x s op + B) = x := by
  have := s.isLt
  cases x <;> simp only [xBit, bitAt, encHead, Bool.toNat_true, Bool.toNat_false] <;>
    simp only [beq_eq_false_iff_ne, beq_iff_eq] <;> omega

theorem opField_head (x : Bool) (s : Stall) {op B : Nat} (ho : op < 256) (hB : B < 2 ^ 20) :
    opField (encHead x s op + B) = op := by
  cases x <;> simp only [opField, encHead, Bool.toNat_true, Bool.toNat_false] <;> omega

theorem fS_head (x : Bool) (s : Stall) {op B : Nat} (ho : op < 256) (hB : B < 2 ^ 20) : fS (encHead x s op + B) = s := by
  apply BitVec.eq_of_toNat_eq
  have := s.isLt
  cases x <;> simp only [fS, fld, encHead, Bool.toNat_true, Bool.toNat_false, BitVec.toNat_ofNat] <;> omega

theorem part_head (x : Bool) (s : Stall) (op B lo len : Nat) (h : lo + len ≤ 20) :
    (encHead x s op + B) / 2 ^ lo % 2 ^ len = B / 2 ^ lo % 2 ^ len := by
  rw [encHead_eq]
  apply Nat.eq_of_testBit_eq
  intro j
  simp only [Nat.testBit_mod_two_pow, Nat.testBit_div_two_pow]
  by_cases hj : j < len
  · simp only [hj, decide_true, Bool.true_and]
    have e : 2 ^ 20 * (x.toNat * 2 ^ 11 + s.toNat * 2 ^ 8 + op) + B
        = 2 ^ 20 * (x.toNat * 2 ^ 11 + s.toNat * 2 ^ 8 + op + B / 2 ^ 20) + B % 2 ^ 20 := by omega
    rw [e, Nat.testBit_two_pow_mul_add _ (Nat.mod_lt _ (by decide)), if_pos (by omega), Nat.testBit_mod_two_pow]
    have : j + lo < 20 := by omega
    simp [this]
  · simp [hj]

theorem fld_head (x : Bool) (s : Stall) (op B lo len : Nat) (h : lo + len ≤ 20) :
    fld (encHead x s op + B) lo len = fld B lo len := by
  apply BitVec.eq_of_toNat_eq
  simp only [fld, BitVec.toNat_ofNat]
  exact part_head x s op B lo len h

theorem bitAt_head (x : Bool) (s : Stall) (op B lo : Nat) (h : lo < 20) : bitAt (encHead x s op + B) lo = bitAt B lo := by
  have := part_head x s op B lo 1 h
  simp only [pow_one] at this
  simp only [bitAt, this]

theorem zeroAt_head (x : Bool) (s : Stall) (op B lo len : Nat) (h : lo + len ≤ 20) :
    zeroAt (encHead x s op + B) lo len = zeroAt B lo len := by
  simp only [zeroAt, part_head x s op B lo len h]

theorem encBC0 (b : Reg) : encBC b 0 = b.toNat * 2 ^ 26 := by
  simp [encBC]

theorem Scope.code_lt (s : Scope) : s.code < 6 := by cases s <;> decide

theorem AmoOp.code_lt (o : AmoOp) : o.code < 9 := by cases o <;> decide

theorem withScope_code (s : Scope) (k : Scope → Decoded) : withScope s.code k = k s := by cases s <;> rfl

theorem AmoOp.ofCode_code (o : AmoOp) : AmoOp.ofCode o.code = some o := by cases o <;> rfl

theorem zeroAt_fD {w : Nat} (h : (fD w).toNat = 0) : zeroAt w 14 6 = true := by
  simpa only [fD, fld, BitVec.toNat_ofNat, zeroAt, beq_iff_eq] using h

/-! ### From an encoding to the round trip -/

theorem encodes_short {i : Instr} {s : Stall} {op B : Nat} (he : i.encode = some (encHead false s op + B, none))
    (ho : op < 256) (hB : B < 2 ^ 20) (hd : i.wf = true → ∀ y, decodeOp (encHead false s op + B) y = .ok i) : Encodes i := by
  intro hw w e h
  rw [he] at h
  simp only [Option.some.injEq, Prod.mk.injEq] at h
  obtain ⟨rfl, rfl⟩ := h
  have h1 := head_lt false s ho hB
  have h2 := xBit_head false s ho hB
  refine ⟨h1, ?_, ?_, fun y => ?_⟩
  · rw [h2, Option.isSome_none]
  · intro x hx; cases hx
  · rw [Option.getD_none, decodeWords, hd hw y]; simp only [hw, if_true]

theorem encodes_long {i : Instr} {s : Stall} {op B E : Nat} (he : i.encode = some (encHead true s op + B, some E))
    (ho : op < 256) (hB : B < 2 ^ 20) (hE : E < 2 ^ 32)
    (hd : i.wf = true → decodeOp (encHead true s op + B) E = .ok i) : Encodes i := by
  intro hw w e h
  rw [he] at h
  simp only [Option.some.injEq, Prod.mk.injEq] at h
  obtain ⟨rfl, rfl⟩ := h
  have h1 := head_lt true s ho hB
  have h2 := xBit_head true s ho hB
  refine ⟨h1, ?_, ?_, fun y => ?_⟩
  · rw [h2, Option.isSome_some]
  · intro x hx
    rw [Option.mem_some] at hx
    rw [← hx]; exact hE
  · rw [Option.getD_some, decodeWords, hd hw]; simp only [hw, if_true]

theorem encodes_event {i : Instr} (he : i.encode = none) : Encodes i := by
  intro _ w e h
  rw [he] at h
  cases h

/-! ### The formats -/

theorem fmtA {op : Nat} (ho : op < 256) {k : Stall → Reg → Reg → Reg → BitVec 2 → Instr}
    (hd : ∀ w y, opField w = op → decodeOp w y = decA w k) (s : Stall) (d : Reg) (a : Reg) (b : Reg) (t : BitVec 2)
    (he : (k s d a b t).encode = encA s op d.toNat a.toNat b.toNat t.toNat) : Encodes (k s d a b t) := by
  have := d.isLt
  have := a.isLt
  have := b.isLt
  have := t.isLt
  have hB : (encBody d.toNat a.toNat b.toNat t.toNat) < 2 ^ 20 := by
    first
    | decide
    | (try simp only [encBody, encVBody, SizeType.code]
       omega)
  have b0 : fld (encHead false s op + (encBody d.toNat a.toNat b.toNat t.toNat)) 14 6 = d := by
    clear hB
    rw [fld_head _ _ _ _ _ _ (by decide)]
    apply BitVec.eq_of_toNat_eq
    simp only [fld, encBody, encVBody, SizeType.code, BitVec.toNat_ofNat]
    omega
  have b1 : fld (encHead false s op + (encBody d.toNat a.toNat b.toNat t.toNat)) 8 6 = a := by
    clear hB b0
    rw [fld_head _ _ _ _ _ _ (by decide)]
    apply BitVec.eq_of_toNat_eq
    simp only [fld, encBody, encVBody, SizeType.code, BitVec.toNat_ofNat]
    omega
  have b2 : fld (encHead false s op + (encBody d.toNat a.toNat b.toNat t.toNat)) 2 6 = b := by
    clear hB b0 b1
    rw [fld_head _ _ _ _ _ _ (by decide)]
    apply BitVec.eq_of_toNat_eq
    simp only [fld, encBody, encVBody, SizeType.code, BitVec.toNat_ofNat]
    omega
  have b3 : fld (encHead false s op + (encBody d.toNat a.toNat b.toNat t.toNat)) 0 2 = t := by
    clear hB b0 b1 b2
    rw [fld_head _ _ _ _ _ _ (by decide)]
    apply BitVec.eq_of_toNat_eq
    simp only [fld, encBody, encVBody, SizeType.code, BitVec.toNat_ofNat]
    omega
  refine encodes_short he ho hB fun _ y => ?_
  rw [hd _ _ (opField_head _ _ ho hB)]
  simp only [decA, show ((3#2 : BitVec 2) == 3) = true from rfl, show ((0#6 : BitVec 6) == 0) = true from rfl, withScope_code, AmoOp.ofCode_code, shortOnly, longOnly, need, xBit_head _ _ ho hB, fS_head _ _ ho hB, fD, fA, fB, fT, fMode, fM, fImm, fDisp, fSizeType, Bool.not_false, Bool.not_true, Bool.true_or, Bool.false_or, Bool.or_true, Bool.and_true, Bool.true_and, if_true, if_false, Bool.false_eq_true, beq_self_eq_true, b0, b1, b2, b3]

theorem fmtDAB {op : Nat} (ho : op < 256) {k : Stall → Reg → Reg → Reg → Instr}
    (hd : ∀ w y, opField w = op → decodeOp w y = decDAB w k) (s : Stall) (d : Reg) (a : Reg) (b : Reg)
    (he : (k s d a b).encode = encA s op d.toNat a.toNat b.toNat 0) : Encodes (k s d a b) := by
  have := d.isLt
  have := a.isLt
  have := b.isLt
  have hB : (encBody d.toNat a.toNat b.toNat 0) < 2 ^ 20 := by
    first
    | decide
    | (try simp only [encBody, encVBody, SizeType.code]
       omega)
  have b0 : fld (encHead false s op + (encBody d.toNat a.toNat b.toNat 0)) 14 6 = d := by
    clear hB
    rw [fld_head _ _ _ _ _ _ (by decide)]
    apply BitVec.eq_of_toNat_eq
    simp only [fld, encBody, encVBody, SizeType.code, BitVec.toNat_ofNat]
    omega
  have b1 : fld (encHead false s op + (encBody d.toNat a.toNat b.toNat 0)) 8 6 = a := by
    clear hB b0
    rw [fld_head _ _ _ _ _ _ (by decide)]
    apply BitVec.eq_of_toNat_eq
    simp only [fld, encBody, encVBody, SizeType.code, BitVec.toNat_ofNat]
    omega
  have b2 : fld (encHead false s op + (encBody d.toNat a.toNat b.toNat 0)) 2 6 = b := by
    clear hB b0 b1
    rw [fld_head _ _ _ _ _ _ (by decide)]
    apply BitVec.eq_of_toNat_eq
    simp only [fld, encBody, encVBody, SizeType.code, BitVec.toNat_ofNat]
    omega
  have b3 : zeroAt (encHead false s op + (encBody d.toNat a.toNat b.toNat 0)) 0 2 = true := by
    clear hB b0 b1 b2
    rw [zeroAt_head _ _ _ _ _ _ (by decide)]
    simp only [zeroAt, encBody, encVBody, SizeType.code, beq_iff_eq]
    omega
  refine encodes_short he ho hB fun _ y => ?_
  rw [hd _ _ (opField_head _ _ ho hB)]
  simp only [decDAB, show ((3#2 : BitVec 2) == 3) = true from rfl, show ((0#6 : BitVec 6) == 0) = true from rfl, withScope_code, AmoOp.ofCode_code, shortOnly, longOnly, need, xBit_head _ _ ho hB, fS_head _ _ ho hB, fD, fA, fB, fT, fMode, fM, fImm, fDisp, fSizeType, Bool.not_false, Bool.not_true, Bool.true_or, Bool.false_or, Bool.or_true, Bool.and_true, Bool.true_and, if_true, if_false, Bool.false_eq_true, beq_self_eq_true, b0, b1, b2, b3]

theorem fmtDAT {op : Nat} (ho : op < 256) {k : Stall → Reg → Reg → BitVec 2 → Instr}
    (hd : ∀ w y, opField w = op → decodeOp w y = decDAT w k) (s : Stall) (d : Reg) (a : Reg) (t : BitVec 2)
    (he : (k s d a t).encode = encA s op d.toNat a.toNat 0 t.toNat) : Encodes (k s d a t) := by
  have := d.isLt
  have := a.isLt
  have := t.isLt
  have hB : (encBody d.toNat a.toNat 0 t.toNat) < 2 ^ 20 := by
    first
    | decide
    | (try simp only [encBody, encVBody, SizeType.code]
       omega)
  have b0 : fld (encHead false s op + (encBody d.toNat a.toNat 0 t.toNat)) 14 6 = d := by
    clear hB
    rw [fld_head _ _ _ _ _ _ (by decide)]
    apply BitVec.eq_of_toNat_eq
    simp only [fld, encBody, encVBody, SizeType.code, BitVec.toNat_ofNat]
    omega
  have b1 : fld (encHead false s op + (encBody d.toNat a.toNat 0 t.toNat)) 8 6 = a := by
    clear hB b0
    rw [fld_head _ _ _ _ _ _ (by decide)]
    apply BitVec.eq_of_toNat_eq
    simp only [fld, encBody, encVBody, SizeType.code, BitVec.toNat_ofNat]
    omega
  have b2 : fld (encHead false s op + (encBody d.toNat a.toNat 0 t.toNat)) 0 2 = t := by
    clear hB b0 b1
    rw [fld_head _ _ _ _ _ _ (by decide)]
    apply BitVec.eq_of_toNat_eq
    simp only [fld, encBody, encVBody, SizeType.code, BitVec.toNat_ofNat]
    omega
  have b3 : zeroAt (encHead false s op + (encBody d.toNat a.toNat 0 t.toNat)) 2 6 = true := by
    clear hB b0 b1 b2
    rw [zeroAt_head _ _ _ _ _ _ (by decide)]
    simp only [zeroAt, encBody, encVBody, SizeType.code, beq_iff_eq]
    omega
  refine encodes_short he ho hB fun _ y => ?_
  rw [hd _ _ (opField_head _ _ ho hB)]
  simp only [decDAT, show ((3#2 : BitVec 2) == 3) = true from rfl, show ((0#6 : BitVec 6) == 0) = true from rfl, withScope_code, AmoOp.ofCode_code, shortOnly, longOnly, need, xBit_head _ _ ho hB, fS_head _ _ ho hB, fD, fA, fB, fT, fMode, fM, fImm, fDisp, fSizeType, Bool.not_false, Bool.not_true, Bool.true_or, Bool.false_or, Bool.or_true, Bool.and_true, Bool.true_and, if_true, if_false, Bool.false_eq_true, beq_self_eq_true, b0, b1, b2, b3]

theorem fmtDA {op : Nat} (ho : op < 256) {k : Stall → Reg → Reg → Instr}
    (hd : ∀ w y, opField w = op → decodeOp w y = decDA w k) (s : Stall) (d : Reg) (a : Reg)
    (he : (k s d a).encode = encA s op d.toNat a.toNat 0 0) : Encodes (k s d a) := by
  have := d.isLt
  have := a.isLt
  have hB : (encBody d.toNat a.toNat 0 0) < 2 ^ 20 := by
    first
    | decide
    | (try simp only [encBody, encVBody, SizeType.code]
       omega)
  have b0 : fld (encHead false s op + (encBody d.toNat a.toNat 0 0)) 14 6 = d := by
    clear hB
    rw [fld_head _ _ _ _ _ _ (by decide)]
    apply BitVec.eq_of_toNat_eq
    simp only [fld, encBody, encVBody, SizeType.code, BitVec.toNat_ofNat]
    omega
  have b1 : fld (encHead false s op + (encBody d.toNat a.toNat 0 0)) 8 6 = a := by
    clear hB b0
    rw [fld_head _ _ _ _ _ _ (by decide)]
    apply BitVec.eq_of_toNat_eq
    simp only [fld, encBody, encVBody, SizeType.code, BitVec.toNat_ofNat]
    omega
  have b2 : zeroAt (encHead false s op + (encBody d.toNat a.toNat 0 0)) 0 8 = true := by
    clear hB b0 b1
    rw [zeroAt_head _ _ _ _ _ _ (by decide)]
    simp only [zeroAt, encBody, encVBody, SizeType.code, beq_iff_eq]
    omega
  refine encodes_short he ho hB fun _ y => ?_
  rw [hd _ _ (opField_head _ _ ho hB)]
  simp only [decDA, show ((3#2 : BitVec 2) == 3) = true from rfl, show ((0#6 : BitVec 6) == 0) = true from rfl, withScope_code, AmoOp.ofCode_code, shortOnly, longOnly, need, xBit_head _ _ ho hB, fS_head _ _ ho hB, fD, fA, fB, fT, fMode, fM, fImm, fDisp, fSizeType, Bool.not_false, Bool.not_true, Bool.true_or, Bool.false_or, Bool.or_true, Bool.and_true, Bool.true_and, if_true, if_false, Bool.false_eq_true, beq_self_eq_true, b0, b1, b2]

theorem fmtAB {op : Nat} (ho : op < 256) {k : Stall → Reg → Reg → Instr}
    (hd : ∀ w y, opField w = op → decodeOp w y = decAB w k) (s : Stall) (a : Reg) (b : Reg)
    (he : (k s a b).encode = encA s op 0 a.toNat b.toNat 0) : Encodes (k s a b) := by
  have := a.isLt
  have := b.isLt
  have hB : (encBody 0 a.toNat b.toNat 0) < 2 ^ 20 := by
    first
    | decide
    | (try simp only [encBody, encVBody, SizeType.code]
       omega)
  have b0 : fld (encHead false s op + (encBody 0 a.toNat b.toNat 0)) 8 6 = a := by
    clear hB
    rw [fld_head _ _ _ _ _ _ (by decide)]
    apply BitVec.eq_of_toNat_eq
    simp only [fld, encBody, encVBody, SizeType.code, BitVec.toNat_ofNat]
    omega
  have b1 : fld (encHead false s op + (encBody 0 a.toNat b.toNat 0)) 2 6 = b := by
    clear hB b0
    rw [fld_head _ _ _ _ _ _ (by decide)]
    apply BitVec.eq_of_toNat_eq
    simp only [fld, encBody, encVBody, SizeType.code, BitVec.toNat_ofNat]
    omega
  have b2 : zeroAt (encHead false s op + (encBody 0 a.toNat b.toNat 0)) 14 6 = true := by
    clear hB b0 b1
    rw [zeroAt_head _ _ _ _ _ _ (by decide)]
    simp only [zeroAt, encBody, encVBody, SizeType.code, beq_iff_eq]
    omega
  have b3 : zeroAt (encHead false s op + (encBody 0 a.toNat b.toNat 0)) 0 2 = true := by
    clear hB b0 b1 b2
    rw [zeroAt_head _ _ _ _ _ _ (by decide)]
    simp only [zeroAt, encBody, encVBody, SizeType.code, beq_iff_eq]
    omega
  refine encodes_short he ho hB fun _ y => ?_
  rw [hd _ _ (opField_head _ _ ho hB)]
  simp only [decAB, show ((3#2 : BitVec 2) == 3) = true from rfl, show ((0#6 : BitVec 6) == 0) = true from rfl, withScope_code, AmoOp.ofCode_code, shortOnly, longOnly, need, xBit_head _ _ ho hB, fS_head _ _ ho hB, fD, fA, fB, fT, fMode, fM, fImm, fDisp, fSizeType, Bool.not_false, Bool.not_true, Bool.true_or, Bool.false_or, Bool.or_true, Bool.and_true, Bool.true_and, if_true, if_false, Bool.false_eq_true, beq_self_eq_true, b0, b1, b2, b3]

theorem fmtA1 {op : Nat} (ho : op < 256) {k : Stall → Reg → Instr}
    (hd : ∀ w y, opField w = op → decodeOp w y = decA1 w k) (s : Stall) (a : Reg)
    (he : (k s a).encode = encA s op 0 a.toNat 0 0) : Encodes (k s a) := by
  have := a.isLt
  have hB : (encBody 0 a.toNat 0 0) < 2 ^ 20 := by
    first
    | decide
    | (try simp only [encBody, encVBody, SizeType.code]
       omega)
  have b0 : fld (encHead false s op + (encBody 0 a.toNat 0 0)) 8 6 = a := by
    clear hB
    rw [fld_head _ _ _ _ _ _ (by decide)]
    apply BitVec.eq_of_toNat_eq
    simp only [fld, encBody, encVBody, SizeType.code, BitVec.toNat_ofNat]
    omega
  have b1 : zeroAt (encHead false s op + (encBody 0 a.toNat 0 0)) 14 6 = true := by
    clear hB b0
    rw [zeroAt_head _ _ _ _ _ _ (by decide)]
    simp only [zeroAt, encBody, encVBody, SizeType.code, beq_iff_eq]
    omega
  have b2 : zeroAt (encHead false s op + (encBody 0 a.toNat 0 0)) 0 8 = true := by
    clear hB b0 b1
    rw [zeroAt_head _ _ _ _ _ _ (by decide)]
    simp only [zeroAt, encBody, encVBody, SizeType.code, beq_iff_eq]
    omega
  refine encodes_short he ho hB fun _ y => ?_
  rw [hd _ _ (opField_head _ _ ho hB)]
  simp only [decA1, show ((3#2 : BitVec 2) == 3) = true from rfl, show ((0#6 : BitVec 6) == 0) = true from rfl, withScope_code, AmoOp.ofCode_code, shortOnly, longOnly, need, xBit_head _ _ ho hB, fS_head _ _ ho hB, fD, fA, fB, fT, fMode, fM, fImm, fDisp, fSizeType, Bool.not_false, Bool.not_true, Bool.true_or, Bool.false_or, Bool.or_true, Bool.and_true, Bool.true_and, if_true, if_false, Bool.false_eq_true, beq_self_eq_true, b0, b1, b2]

theorem fmtNone {op : Nat} (ho : op < 256) {k : Stall → Instr}
    (hd : ∀ w y, opField w = op → decodeOp w y = decNone w k) (s : Stall)
    (he : (k s).encode = encA s op 0 0 0 0) : Encodes (k s) := by
  have hB : (encBody 0 0 0 0) < 2 ^ 20 := by
    decide
  have b0 : zeroAt (encHead false s op + (encBody 0 0 0 0)) 0 20 = true := by
    clear hB
    rw [zeroAt_head _ _ _ _ _ _ (by decide)]
    simp only [zeroAt, encBody, encVBody, SizeType.code, beq_iff_eq]
    rfl
  refine encodes_short he ho hB fun _ y => ?_
  rw [hd _ _ (opField_head _ _ ho hB)]
  simp only [decNone, show ((3#2 : BitVec 2) == 3) = true from rfl, show ((0#6 : BitVec 6) == 0) = true from rfl, withScope_code, AmoOp.ofCode_code, shortOnly, longOnly, need, xBit_head _ _ ho hB, fS_head _ _ ho hB, fD, fA, fB, fT, fMode, fM, fImm, fDisp, fSizeType, Bool.not_false, Bool.not_true, Bool.true_or, Bool.false_or, Bool.or_true, Bool.and_true, Bool.true_and, if_true, if_false, Bool.false_eq_true, beq_self_eq_true, b0]

theorem fmtIs {op : Nat} (ho : op < 256) {k : Stall → Reg → Reg → Imm → Instr}
    (hd : ∀ w y, opField w = op → decodeOp w y = decI w y k) (s : Stall) (d : Reg) (a : Reg) (v : BitVec 8)
    (he : (k s d a (.short v)).encode = encI s op d.toNat a.toNat (.short v)) : Encodes (k s d a (.short v)) := by
  have := d.isLt
  have := a.isLt
  have := v.isLt
  have hB : (d.toNat * 2 ^ 14 + a.toNat * 2 ^ 8 + v.toNat) < 2 ^ 20 := by
    first
    | decide
    | (try simp only [encBody, encVBody, SizeType.code]
       omega)
  have b0 : fld (encHead false s op + (d.toNat * 2 ^ 14 + a.toNat * 2 ^ 8 + v.toNat)) 14 6 = d := by
    clear hB
    rw [fld_head _ _ _ _ _ _ (by decide)]
    apply BitVec.eq_of_toNat_eq
    simp only [fld, encBody, encVBody, SizeType.code, BitVec.toNat_ofNat]
    omega
  have b1 : fld (encHead false s op + (d.toNat * 2 ^ 14 + a.toNat * 2 ^ 8 + v.toNat)) 8 6 = a := by
    clear hB b0
    rw [fld_head _ _ _ _ _ _ (by decide)]
    apply BitVec.eq_of_toNat_eq
    simp only [fld, encBody, encVBody, SizeType.code, BitVec.toNat_ofNat]
    omega
  have b2 : fld (encHead false s op + (d.toNat * 2 ^ 14 + a.toNat * 2 ^ 8 + v.toNat)) 0 8 = v := by
    clear hB b0 b1
    rw [fld_head _ _ _ _ _ _ (by decide)]
    apply BitVec.eq_of_toNat_eq
    simp only [fld, encBody, encVBody, SizeType.code, BitVec.toNat_ofNat]
    omega
  have he2 : (k s d a (.short v)).encode = some (encHead false s op + (d.toNat * 2 ^ 14 + a.toNat * 2 ^ 8 + v.toNat), none) := by
    rw [he]
    try simp only [encI, SizeType.code, Nat.add_assoc]
  refine encodes_short he2 ho hB fun _ y => ?_
  rw [hd _ _ (opField_head _ _ ho hB)]
  simp only [decI, show ((3#2 : BitVec 2) == 3) = true from rfl, show ((0#6 : BitVec 6) == 0) = true from rfl, withScope_code, AmoOp.ofCode_code, shortOnly, longOnly, need, xBit_head _ _ ho hB, fS_head _ _ ho hB, fD, fA, fB, fT, fMode, fM, fImm, fDisp, fSizeType, Bool.not_false, Bool.not_true, Bool.true_or, Bool.false_or, Bool.or_true, Bool.and_true, Bool.true_and, if_true, if_false, Bool.false_eq_true, beq_self_eq_true, b0, b1, b2]

theorem fmtIl {op : Nat} (ho : op < 256) {k : Stall → Reg → Reg → Imm → Instr}
    (hd : ∀ w y, opField w = op → decodeOp w y = decI w y k) (s : Stall) (d : Reg) (a : Reg) (v : BitVec 32)
    (he : (k s d a (.long v)).encode = encI s op d.toNat a.toNat (.long v)) : Encodes (k s d a (.long v)) := by
  have := d.isLt
  have := a.isLt
  have := v.isLt
  have hE : (v.toNat) < 2 ^ 32 := by
    try simp only [encBC, VExt.word, Nat.reducePow]
    omega
  have e0 : fld (v.toNat) 0 32 = v := by
    clear hE
    apply BitVec.eq_of_toNat_eq
    simp only [fld, encBC, VExt.word, Nat.reducePow, BitVec.toNat_ofNat]
    omega
  have hB : (d.toNat * 2 ^ 14 + a.toNat * 2 ^ 8) < 2 ^ 20 := by
    clear hE e0
    first
    | decide
    | (try simp only [encBody, encVBody, SizeType.code]
       omega)
  have b0 : fld (encHead true s op + (d.toNat * 2 ^ 14 + a.toNat * 2 ^ 8)) 14 6 = d := by
    clear hE e0 hB
    rw [fld_head _ _ _ _ _ _ (by decide)]
    apply BitVec.eq_of_toNat_eq
    simp only [fld, encBody, encVBody, SizeType.code, BitVec.toNat_ofNat]
    omega
  have b1 : fld (encHead true s op + (d.toNat * 2 ^ 14 + a.toNat * 2 ^ 8)) 8 6 = a := by
    clear hE e0 hB b0
    rw [fld_head _ _ _ _ _ _ (by decide)]
    apply BitVec.eq_of_toNat_eq
    simp only [fld, encBody, encVBody, SizeType.code, BitVec.toNat_ofNat]
    omega
  have b2 : zeroAt (encHead true s op + (d.toNat * 2 ^ 14 + a.toNat * 2 ^ 8)) 0 8 = true := by
    clear hE e0 hB b0 b1
    rw [zeroAt_head _ _ _ _ _ _ (by decide)]
    simp only [zeroAt, encBody, encVBody, SizeType.code, beq_iff_eq]
    omega
  have he2 : (k s d a (.long v)).encode = some (encHead true s op + (d.toNat * 2 ^ 14 + a.toNat * 2 ^ 8), some (v.toNat)) := by
    rw [he]
    try simp only [encI, SizeType.code, Nat.add_assoc]
  refine encodes_long he2 ho hB hE fun _ => ?_
  rw [hd _ _ (opField_head _ _ ho hB)]
  simp only [decI, show ((3#2 : BitVec 2) == 3) = true from rfl, show ((0#6 : BitVec 6) == 0) = true from rfl, withScope_code, AmoOp.ofCode_code, shortOnly, longOnly, need, xBit_head _ _ ho hB, fS_head _ _ ho hB, fD, fA, fB, fT, fMode, fM, fImm, fDisp, fSizeType, Bool.not_false, Bool.not_true, Bool.true_or, Bool.false_or, Bool.or_true, Bool.and_true, Bool.true_and, if_true, if_false, Bool.false_eq_true, beq_self_eq_true, e0, b0, b1, b2]

theorem fmtBs {op : Nat} (ho : op < 256) {bop : BranchOp} {k : Stall → Reg → Reg → BitVec 8 → Instr}
    (hd : ∀ w y, opField w = op → decodeOp w y = decB w y bop k) (s : Stall) (a : Reg) (b : Reg) (v : BitVec 8)
    (he : (k s a b v).encode = encB s op a.toNat b.toNat (.short v)) : Encodes (k s a b v) := by
  have := a.isLt
  have := b.isLt
  have := v.isLt
  have hB : (a.toNat * 2 ^ 14 + b.toNat * 2 ^ 8 + v.toNat) < 2 ^ 20 := by
    first
    | decide
    | (try simp only [encBody, encVBody, SizeType.code]
       omega)
  have b0 : fld (encHead false s op + (a.toNat * 2 ^ 14 + b.toNat * 2 ^ 8 + v.toNat)) 14 6 = a := by
    clear hB
    rw [fld_head _ _ _ _ _ _ (by decide)]
    apply BitVec.eq_of_toNat_eq
    simp only [fld, encBody, encVBody, SizeType.code, BitVec.toNat_ofNat]
    omega
  have b1 : fld (encHead false s op + (a.toNat * 2 ^ 14 + b.toNat * 2 ^ 8 + v.toNat)) 8 6 = b := by
    clear hB b0
    rw [fld_head _ _ _ _ _ _ (by decide)]
    apply BitVec.eq_of_toNat_eq
    simp only [fld, encBody, encVBody, SizeType.code, BitVec.toNat_ofNat]
    omega
  have b2 : fld (encHead false s op + (a.toNat * 2 ^ 14 + b.toNat * 2 ^ 8 + v.toNat)) 0 8 = v := by
    clear hB b0 b1
    rw [fld_head _ _ _ _ _ _ (by decide)]
    apply BitVec.eq_of_toNat_eq
    simp only [fld, encBody, encVBody, SizeType.code, BitVec.toNat_ofNat]
    omega
  have he2 : (k s a b v).encode = some (encHead false s op + (a.toNat * 2 ^ 14 + b.toNat * 2 ^ 8 + v.toNat), none) := by
    rw [he]
    try simp only [encB, SizeType.code, Nat.add_assoc]
  refine encodes_short he2 ho hB fun _ y => ?_
  rw [hd _ _ (opField_head _ _ ho hB)]
  simp only [decB, show ((3#2 : BitVec 2) == 3) = true from rfl, show ((0#6 : BitVec 6) == 0) = true from rfl, withScope_code, AmoOp.ofCode_code, shortOnly, longOnly, need, xBit_head _ _ ho hB, fS_head _ _ ho hB, fD, fA, fB, fT, fMode, fM, fImm, fDisp, fSizeType, Bool.not_false, Bool.not_true, Bool.true_or, Bool.false_or, Bool.or_true, Bool.and_true, Bool.true_and, if_true, if_false, Bool.false_eq_true, beq_self_eq_true, b0, b1, b2]

theorem fmtMs {op : Nat} (ho : op < 256) {k : Stall → Reg → Reg → BitVec 2 → MForm → Instr}
    (hd : ∀ w y, opField w = op → decodeOp w y = decM w y k) (s : Stall) (d : Reg) (b : Reg) (m : BitVec 2) (x : BitVec 6)
    (he : (k s d b m (.short x)).encode = encM s op d.toNat b.toNat m.toNat (.short x)) : Encodes (k s d b m (.short x)) := by
  have := d.isLt
  have := b.isLt
  have := m.isLt
  have := x.isLt
  have hB : (d.toNat * 2 ^ 14 + b.toNat * 2 ^ 8 + m.toNat * 2 ^ 6 + x.toNat) < 2 ^ 20 := by
    first
    | decide
    | (try simp only [encBody, encVBody, SizeType.code]
       omega)
  have b0 : fld (encHead false s op + (d.toNat * 2 ^ 14 + b.toNat * 2 ^ 8 + m.toNat * 2 ^ 6 + x.toNat)) 14 6 = d := by
    clear hB
    rw [fld_head _ _ _ _ _ _ (by decide)]
    apply BitVec.eq_of_toNat_eq
    simp only [fld, encBody, encVBody, SizeType.code, BitVec.toNat_ofNat]
    omega
  have b1 : fld (encHead false s op + (d.toNat * 2 ^ 14 + b.toNat * 2 ^ 8 + m.toNat * 2 ^ 6 + x.toNat)) 8 6 = b := by
    clear hB b0
    rw [fld_head _ _ _ _ _ _ (by decide)]
    apply BitVec.eq_of_toNat_eq
    simp only [fld, encBody, encVBody, SizeType.code, BitVec.toNat_ofNat]
    omega
  have b2 : fld (encHead false s op + (d.toNat * 2 ^ 14 + b.toNat * 2 ^ 8 + m.toNat * 2 ^ 6 + x.toNat)) 6 2 = m := by
    clear hB b0 b1
    rw [fld_head _ _ _ _ _ _ (by decide)]
    apply BitVec.eq_of_toNat_eq
    simp only [fld, encBody, encVBody, SizeType.code, BitVec.toNat_ofNat]
    omega
  have b3 : fld (encHead false s op + (d.toNat * 2 ^ 14 + b.toNat * 2 ^ 8 + m.toNat * 2 ^ 6 + x.toNat)) 0 6 = x := by
    clear hB b0 b1 b2
    rw [fld_head _ _ _ _ _ _ (by decide)]
    apply BitVec.eq_of_toNat_eq
    simp only [fld, encBody, encVBody, SizeType.code, BitVec.toNat_ofNat]
    omega
  have he2 : (k s d b m (.short x)).encode = some (encHead false s op + (d.toNat * 2 ^ 14 + b.toNat * 2 ^ 8 + m.toNat * 2 ^ 6 + x.toNat), none) := by
    rw [he]
    try simp only [encM, SizeType.code, Nat.add_assoc]
  refine encodes_short he2 ho hB fun _ y => ?_
  rw [hd _ _ (opField_head _ _ ho hB)]
  simp only [decM, show ((3#2 : BitVec 2) == 3) = true from rfl, show ((0#6 : BitVec 6) == 0) = true from rfl, withScope_code, AmoOp.ofCode_code, shortOnly, longOnly, need, xBit_head _ _ ho hB, fS_head _ _ ho hB, fD, fA, fB, fT, fMode, fM, fImm, fDisp, fSizeType, Bool.not_false, Bool.not_true, Bool.true_or, Bool.false_or, Bool.or_true, Bool.and_true, Bool.true_and, if_true, if_false, Bool.false_eq_true, beq_self_eq_true, b0, b1, b2, b3]

theorem fmtMl {op : Nat} (ho : op < 256) {k : Stall → Reg → Reg → BitVec 2 → MForm → Instr}
    (hd : ∀ w y, opField w = op → decodeOp w y = decM w y k) (s : Stall) (d : Reg) (b : Reg) (m : BitVec 2) (ty : SizeType) (x : BitVec 32)
    (he : (k s d b m (.long ty x)).encode = encM s op d.toNat b.toNat m.toNat (.long ty x)) : Encodes (k s d b m (.long ty x)) := by
  have := d.isLt
  have := b.isLt
  have := m.isLt
  have := ty.ox.isLt
  have := ty.sz.isLt
  have := Bool.toNat_lt ty.sx
  have := x.isLt
  have hE : (x.toNat) < 2 ^ 32 := by
    try simp only [encBC, VExt.word, Nat.reducePow]
    omega
  have e0 : fld (x.toNat) 0 32 = x := by
    clear hE
    apply BitVec.eq_of_toNat_eq
    simp only [fld, encBC, VExt.word, Nat.reducePow, BitVec.toNat_ofNat]
    omega
  have hB : (d.toNat * 2 ^ 14 + b.toNat * 2 ^ 8 + m.toNat * 2 ^ 6 + (ty.ox.toNat * 8 + ty.sx.toNat * 4 + ty.sz.toNat)) < 2 ^ 20 := by
    clear hE e0
    first
    | decide
    | (try simp only [encBody, encVBody, SizeType.code]
       omega)
  have b0 : fld (encHead true s op + (d.toNat * 2 ^ 14 + b.toNat * 2 ^ 8 + m.toNat * 2 ^ 6 + (ty.ox.toNat * 8 + ty.sx.toNat * 4 + ty.sz.toNat))) 14 6 = d := by
    clear hE e0 hB
    rw [fld_head _ _ _ _ _ _ (by decide)]
    apply BitVec.eq_of_toNat_eq
    simp only [fld, encBody, encVBody, SizeType.code, BitVec.toNat_ofNat]
    omega
  have b1 : fld (encHead true s op + (d.toNat * 2 ^ 14 + b.toNat * 2 ^ 8 + m.toNat * 2 ^ 6 + (ty.ox.toNat * 8 + ty.sx.toNat * 4 + ty.sz.toNat))) 8 6 = b := by
    clear hE e0 hB b0
    rw [fld_head _ _ _ _ _ _ (by decide)]
    apply BitVec.eq_of_toNat_eq
    simp only [fld, encBody, encVBody, SizeType.code, BitVec.toNat_ofNat]
    omega
  have b2 : fld (encHead true s op + (d.toNat * 2 ^ 14 + b.toNat * 2 ^ 8 + m.toNat * 2 ^ 6 + (ty.ox.toNat * 8 + ty.sx.toNat * 4 + ty.sz.toNat))) 6 2 = m := by
    clear hE e0 hB b0 b1
    rw [fld_head _ _ _ _ _ _ (by decide)]
    apply BitVec.eq_of_toNat_eq
    simp only [fld, encBody, encVBody, SizeType.code, BitVec.toNat_ofNat]
    omega
  have b3 : fld (encHead true s op + (d.toNat * 2 ^ 14 + b.toNat * 2 ^ 8 + m.toNat * 2 ^ 6 + (ty.ox.toNat * 8 + ty.sx.toNat * 4 + ty.sz.toNat))) 3 3 = ty.ox := by
    clear hE e0 hB b0 b1 b2
    rw [fld_head _ _ _ _ _ _ (by decide)]
    apply BitVec.eq_of_toNat_eq
    simp only [fld, encBody, encVBody, SizeType.code, BitVec.toNat_ofNat]
    omega
  have b4 : bitAt (encHead true s op + (d.toNat * 2 ^ 14 + b.toNat * 2 ^ 8 + m.toNat * 2 ^ 6 + (ty.ox.toNat * 8 + ty.sx.toNat * 4 + ty.sz.toNat))) 2 = ty.sx := by
    clear hE e0 hB b0 b1 b2 b3
    rw [bitAt_head _ _ _ _ _ (by decide)]
    have h : (d.toNat * 2 ^ 14 + b.toNat * 2 ^ 8 + m.toNat * 2 ^ 6 + (ty.ox.toNat * 8 + ty.sx.toNat * 4 + ty.sz.toNat)) / 2 ^ 2 % 2 = Bool.toNat ty.sx := by
      simp only [encBody, encVBody, SizeType.code, Nat.reducePow]
      omega
    rw [bitAt, h]
    cases ty.sx <;> rfl
  have b5 : fld (encHead true s op + (d.toNat * 2 ^ 14 + b.toNat * 2 ^ 8 + m.toNat * 2 ^ 6 + (ty.ox.toNat * 8 + ty.sx.toNat * 4 + ty.sz.toNat))) 0 2 = ty.sz := by
    clear hE e0 hB b0 b1 b2 b3 b4
    rw [fld_head _ _ _ _ _ _ (by decide)]
    apply BitVec.eq_of_toNat_eq
    simp only [fld, encBody, encVBody, SizeType.code, BitVec.toNat_ofNat]
    omega
  have he2 : (k s d b m (.long ty x)).encode = some (encHead true s op + (d.toNat * 2 ^ 14 + b.toNat * 2 ^ 8 + m.toNat * 2 ^ 6 + (ty.ox.toNat * 8 + ty.sx.toNat * 4 + ty.sz.toNat)), some (x.toNat)) := by
    rw [he]
    try simp only [encM, SizeType.code, Nat.add_assoc]
  refine encodes_long he2 ho hB hE fun _ => ?_
  rw [hd _ _ (opField_head _ _ ho hB)]
  simp only [decM, show ((3#2 : BitVec 2) == 3) = true from rfl, show ((0#6 : BitVec 6) == 0) = true from rfl, withScope_code, AmoOp.ofCode_code, shortOnly, longOnly, need, xBit_head _ _ ho hB, fS_head _ _ ho hB, fD, fA, fB, fT, fMode, fM, fImm, fDisp, fSizeType, Bool.not_false, Bool.not_true, Bool.true_or, Bool.false_or, Bool.or_true, Bool.and_true, Bool.true_and, if_true, if_false, Bool.false_eq_true, beq_self_eq_true, e0, b0, b1, b2, b3, b4, b5]

theorem fmtM0s {op : Nat} (ho : op < 256) {k : Stall → Reg → BitVec 2 → MForm → Instr}
    (hd : ∀ w y, opField w = op → decodeOp w y = decM0 w y k) (s : Stall) (b : Reg) (m : BitVec 2) (x : BitVec 6)
    (he : (k s b m (.short x)).encode = encM s op 0 b.toNat m.toNat (.short x)) : Encodes (k s b m (.short x)) := by
  have := b.isLt
  have := m.isLt
  have := x.isLt
  have hB : (0 * 2 ^ 14 + b.toNat * 2 ^ 8 + m.toNat * 2 ^ 6 + x.toNat) < 2 ^ 20 := by
    first
    | decide
    | (try simp only [encBody, encVBody, SizeType.code]
       omega)
  have b0 : zeroAt (encHead false s op + (0 * 2 ^ 14 + b.toNat * 2 ^ 8 + m.toNat * 2 ^ 6 + x.toNat)) 14 6 = true := by
    clear hB
    rw [zeroAt_head _ _ _ _ _ _ (by decide)]
    simp only [zeroAt, encBody, encVBody, SizeType.code, beq_iff_eq]
    omega
  have b1 : fld (encHead false s op + (0 * 2 ^ 14 + b.toNat * 2 ^ 8 + m.toNat * 2 ^ 6 + x.toNat)) 8 6 = b := by
    clear hB b0
    rw [fld_head _ _ _ _ _ _ (by decide)]
    apply BitVec.eq_of_toNat_eq
    simp only [fld, encBody, encVBody, SizeType.code, BitVec.toNat_ofNat]
    omega
  have b2 : fld (encHead false s op + (0 * 2 ^ 14 + b.toNat * 2 ^ 8 + m.toNat * 2 ^ 6 + x.toNat)) 6 2 = m := by
    clear hB b0 b1
    rw [fld_head _ _ _ _ _ _ (by decide)]
    apply BitVec.eq_of_toNat_eq
    simp only [fld, encBody, encVBody, SizeType.code, BitVec.toNat_ofNat]
    omega
  have b3 : fld (encHead false s op + (0 * 2 ^ 14 + b.toNat * 2 ^ 8 + m.toNat * 2 ^ 6 + x.toNat)) 0 6 = x := by
    clear hB b0 b1 b2
    rw [fld_head _ _ _ _ _ _ (by decide)]
    apply BitVec.eq_of_toNat_eq
    simp only [fld, encBody, encVBody, SizeType.code, BitVec.toNat_ofNat]
    omega
  have he2 : (k s b m (.short x)).encode = some (encHead false s op + (0 * 2 ^ 14 + b.toNat * 2 ^ 8 + m.toNat * 2 ^ 6 + x.toNat), none) := by
    rw [he]
    try simp only [encM, SizeType.code, Nat.add_assoc]
  refine encodes_short he2 ho hB fun _ y => ?_
  rw [hd _ _ (opField_head _ _ ho hB)]
  simp only [decM0, show ((3#2 : BitVec 2) == 3) = true from rfl, show ((0#6 : BitVec 6) == 0) = true from rfl, withScope_code, AmoOp.ofCode_code, shortOnly, longOnly, need, xBit_head _ _ ho hB, fS_head _ _ ho hB, fD, fA, fB, fT, fMode, fM, fImm, fDisp, fSizeType, Bool.not_false, Bool.not_true, Bool.true_or, Bool.false_or, Bool.or_true, Bool.and_true, Bool.true_and, if_true, if_false, Bool.false_eq_true, beq_self_eq_true, b0, b1, b2, b3]

theorem fmtM0l {op : Nat} (ho : op < 256) {k : Stall → Reg → BitVec 2 → MForm → Instr}
    (hd : ∀ w y, opField w = op → decodeOp w y = decM0 w y k) (s : Stall) (b : Reg) (m : BitVec 2) (ty : SizeType) (x : BitVec 32)
    (he : (k s b m (.long ty x)).encode = encM s op 0 b.toNat m.toNat (.long ty x)) : Encodes (k s b m (.long ty x)) := by
  have := b.isLt
  have := m.isLt
  have := ty.ox.isLt
  have := ty.sz.isLt
  have := Bool.toNat_lt ty.sx
  have := x.isLt
  have hE : (x.toNat) < 2 ^ 32 := by
    try simp only [encBC, VExt.word, Nat.reducePow]
    omega
  have e0 : fld (x.toNat) 0 32 = x := by
    clear hE
    apply BitVec.eq_of_toNat_eq
    simp only [fld, encBC, VExt.word, Nat.reducePow, BitVec.toNat_ofNat]
    omega
  have hB : (0 * 2 ^ 14 + b.toNat * 2 ^ 8 + m.toNat * 2 ^ 6 + (ty.ox.toNat * 8 + ty.sx.toNat * 4 + ty.sz.toNat)) < 2 ^ 20 := by
    clear hE e0
    first
    | decide
    | (try simp only [encBody, encVBody, SizeType.code]
       omega)
  have b0 : zeroAt (encHead true s op + (0 * 2 ^ 14 + b.toNat * 2 ^ 8 + m.toNat * 2 ^ 6 + (ty.ox.toNat * 8 + ty.sx.toNat * 4 + ty.sz.toNat))) 14 6 = true := by
    clear hE e0 hB
    rw [zeroAt_head _ _ _ _ _ _ (by decide)]
    simp only [zeroAt, encBody, encVBody, SizeType.code, beq_iff_eq]
    omega
  have b1 : fld (encHead true s op + (0 * 2 ^ 14 + b.toNat * 2 ^ 8 + m.toNat * 2 ^ 6 + (ty.ox.toNat * 8 + ty.sx.toNat * 4 + ty.sz.toNat))) 8 6 = b := by
    clear hE e0 hB b0
    rw [fld_head _ _ _ _ _ _ (by decide)]
    apply BitVec.eq_of_toNat_eq
    simp only [fld, encBody, encVBody, SizeType.code, BitVec.toNat_ofNat]
    omega
  have b2 : fld (encHead true s op + (0 * 2 ^ 14 + b.toNat * 2 ^ 8 + m.toNat * 2 ^ 6 + (ty.ox.toNat * 8 + ty.sx.toNat * 4 + ty.sz.toNat))) 6 2 = m := by
    clear hE e0 hB b0 b1
    rw [fld_head _ _ _ _ _ _ (by decide)]
    apply BitVec.eq_of_toNat_eq
    simp only [fld, encBody, encVBody, SizeType.code, BitVec.toNat_ofNat]
    omega
  have b3 : fld (encHead true s op + (0 * 2 ^ 14 + b.toNat * 2 ^ 8 + m.toNat * 2 ^ 6 + (ty.ox.toNat * 8 + ty.sx.toNat * 4 + ty.sz.toNat))) 3 3 = ty.ox := by
    clear hE e0 hB b0 b1 b2
    rw [fld_head _ _ _ _ _ _ (by decide)]
    apply BitVec.eq_of_toNat_eq
    simp only [fld, encBody, encVBody, SizeType.code, BitVec.toNat_ofNat]
    omega
  have b4 : bitAt (encHead true s op + (0 * 2 ^ 14 + b.toNat * 2 ^ 8 + m.toNat * 2 ^ 6 + (ty.ox.toNat * 8 + ty.sx.toNat * 4 + ty.sz.toNat))) 2 = ty.sx := by
    clear hE e0 hB b0 b1 b2 b3
    rw [bitAt_head _ _ _ _ _ (by decide)]
    have h : (0 * 2 ^ 14 + b.toNat * 2 ^ 8 + m.toNat * 2 ^ 6 + (ty.ox.toNat * 8 + ty.sx.toNat * 4 + ty.sz.toNat)) / 2 ^ 2 % 2 = Bool.toNat ty.sx := by
      simp only [encBody, encVBody, SizeType.code, Nat.reducePow]
      omega
    rw [bitAt, h]
    cases ty.sx <;> rfl
  have b5 : fld (encHead true s op + (0 * 2 ^ 14 + b.toNat * 2 ^ 8 + m.toNat * 2 ^ 6 + (ty.ox.toNat * 8 + ty.sx.toNat * 4 + ty.sz.toNat))) 0 2 = ty.sz := by
    clear hE e0 hB b0 b1 b2 b3 b4
    rw [fld_head _ _ _ _ _ _ (by decide)]
    apply BitVec.eq_of_toNat_eq
    simp only [fld, encBody, encVBody, SizeType.code, BitVec.toNat_ofNat]
    omega
  have he2 : (k s b m (.long ty x)).encode = some (encHead true s op + (0 * 2 ^ 14 + b.toNat * 2 ^ 8 + m.toNat * 2 ^ 6 + (ty.ox.toNat * 8 + ty.sx.toNat * 4 + ty.sz.toNat)), some (x.toNat)) := by
    rw [he]
    try simp only [encM, SizeType.code, Nat.add_assoc]
  refine encodes_long he2 ho hB hE fun _ => ?_
  rw [hd _ _ (opField_head _ _ ho hB)]
  simp only [decM0, show ((3#2 : BitVec 2) == 3) = true from rfl, show ((0#6 : BitVec 6) == 0) = true from rfl, withScope_code, AmoOp.ofCode_code, shortOnly, longOnly, need, xBit_head _ _ ho hB, fS_head _ _ ho hB, fD, fA, fB, fT, fMode, fM, fImm, fDisp, fSizeType, Bool.not_false, Bool.not_true, Bool.true_or, Bool.false_or, Bool.or_true, Bool.and_true, Bool.true_and, if_true, if_false, Bool.false_eq_true, beq_self_eq_true, e0, b0, b1, b2, b3, b4, b5]

theorem fmtMXs {op : Nat} (ho : op < 256) {k : Stall → Reg → Reg → MForm → Instr}
    (hd : ∀ w y, opField w = op → decodeOp w y = decMX w y k) (s : Stall) (d : Reg) (b : Reg) (x : BitVec 6)
    (he : (k s d b (.short x)).encode = encM s op d.toNat b.toNat 3 (.short x)) : Encodes (k s d b (.short x)) := by
  have := d.isLt
  have := b.isLt
  have := x.isLt
  have hB : (d.toNat * 2 ^ 14 + b.toNat * 2 ^ 8 + 3 * 2 ^ 6 + x.toNat) < 2 ^ 20 := by
    first
    | decide
    | (try simp only [encBody, encVBody, SizeType.code]
       omega)
  have b0 : fld (encHead false s op + (d.toNat * 2 ^ 14 + b.toNat * 2 ^ 8 + 3 * 2 ^ 6 + x.toNat)) 14 6 = d := by
    clear hB
    rw [fld_head _ _ _ _ _ _ (by decide)]
    apply BitVec.eq_of_toNat_eq
    simp only [fld, encBody, encVBody, SizeType.code, BitVec.toNat_ofNat]
    omega
  have b1 : fld (encHead false s op + (d.toNat * 2 ^ 14 + b.toNat * 2 ^ 8 + 3 * 2 ^ 6 + x.toNat)) 8 6 = b := by
    clear hB b0
    rw [fld_head _ _ _ _ _ _ (by decide)]
    apply BitVec.eq_of_toNat_eq
    simp only [fld, encBody, encVBody, SizeType.code, BitVec.toNat_ofNat]
    omega
  have b2 : fld (encHead false s op + (d.toNat * 2 ^ 14 + b.toNat * 2 ^ 8 + 3 * 2 ^ 6 + x.toNat)) 6 2 = 3#2 := by
    clear hB b0 b1
    rw [fld_head _ _ _ _ _ _ (by decide)]
    apply BitVec.eq_of_toNat_eq
    simp only [fld, encBody, encVBody, SizeType.code, BitVec.toNat_ofNat]
    omega
  have b3 : fld (encHead false s op + (d.toNat * 2 ^ 14 + b.toNat * 2 ^ 8 + 3 * 2 ^ 6 + x.toNat)) 0 6 = x := by
    clear hB b0 b1 b2
    rw [fld_head _ _ _ _ _ _ (by decide)]
    apply BitVec.eq_of_toNat_eq
    simp only [fld, encBody, encVBody, SizeType.code, BitVec.toNat_ofNat]
    omega
  have he2 : (k s d b (.short x)).encode = some (encHead false s op + (d.toNat * 2 ^ 14 + b.toNat * 2 ^ 8 + 3 * 2 ^ 6 + x.toNat), none) := by
    rw [he]
    try simp only [encM, SizeType.code, Nat.add_assoc]
  refine encodes_short he2 ho hB fun _ y => ?_
  rw [hd _ _ (opField_head _ _ ho hB)]
  simp only [decMX, show ((3#2 : BitVec 2) == 3) = true from rfl, show ((0#6 : BitVec 6) == 0) = true from rfl, withScope_code, AmoOp.ofCode_code, shortOnly, longOnly, need, xBit_head _ _ ho hB, fS_head _ _ ho hB, fD, fA, fB, fT, fMode, fM, fImm, fDisp, fSizeType, Bool.not_false, Bool.not_true, Bool.true_or, Bool.false_or, Bool.or_true, Bool.and_true, Bool.true_and, if_true, if_false, Bool.false_eq_true, beq_self_eq_true, b0, b1, b2, b3]

theorem fmtMXl {op : Nat} (ho : op < 256) {k : Stall → Reg → Reg → MForm → Instr}
    (hd : ∀ w y, opField w = op → decodeOp w y = decMX w y k) (s : Stall) (d : Reg) (b : Reg) (ty : SizeType) (x : BitVec 32)
    (he : (k s d b (.long ty x)).encode = encM s op d.toNat b.toNat 3 (.long ty x)) : Encodes (k s d b (.long ty x)) := by
  have := d.isLt
  have := b.isLt
  have := ty.ox.isLt
  have := ty.sz.isLt
  have := Bool.toNat_lt ty.sx
  have := x.isLt
  have hE : (x.toNat) < 2 ^ 32 := by
    try simp only [encBC, VExt.word, Nat.reducePow]
    omega
  have e0 : fld (x.toNat) 0 32 = x := by
    clear hE
    apply BitVec.eq_of_toNat_eq
    simp only [fld, encBC, VExt.word, Nat.reducePow, BitVec.toNat_ofNat]
    omega
  have hB : (d.toNat * 2 ^ 14 + b.toNat * 2 ^ 8 + 3 * 2 ^ 6 + (ty.ox.toNat * 8 + ty.sx.toNat * 4 + ty.sz.toNat)) < 2 ^ 20 := by
    clear hE e0
    first
    | decide
    | (try simp only [encBody, encVBody, SizeType.code]
       omega)
  have b0 : fld (encHead true s op + (d.toNat * 2 ^ 14 + b.toNat * 2 ^ 8 + 3 * 2 ^ 6 + (ty.ox.toNat * 8 + ty.sx.toNat * 4 + ty.sz.toNat))) 14 6 = d := by
    clear hE e0 hB
    rw [fld_head _ _ _ _ _ _ (by decide)]
    apply BitVec.eq_of_toNat_eq
    simp only [fld, encBody, encVBody, SizeType.code, BitVec.toNat_ofNat]
    omega
  have b1 : fld (encHead true s op + (d.toNat * 2 ^ 14 + b.toNat * 2 ^ 8 + 3 * 2 ^ 6 + (ty.ox.toNat * 8 + ty.sx.toNat * 4 + ty.sz.toNat))) 8 6 = b := by
    clear hE e0 hB b0
    rw [fld_head _ _ _ _ _ _ (by decide)]
    apply BitVec.eq_of_toNat_eq
    simp only [fld, encBody, encVBody, SizeType.code, BitVec.toNat_ofNat]
    omega
  have b2 : fld (encHead true s op + (d.toNat * 2 ^ 14 + b.toNat * 2 ^ 8 + 3 * 2 ^ 6 + (ty.ox.toNat * 8 + ty.sx.toNat * 4 + ty.sz.toNat))) 6 2 = 3#2 := by
    clear hE e0 hB b0 b1
    rw [fld_head _ _ _ _ _ _ (by decide)]
    apply BitVec.eq_of_toNat_eq
    simp only [fld, encBody, encVBody, SizeType.code, BitVec.toNat_ofNat]
    omega
  have b3 : fld (encHead true s op + (d.toNat * 2 ^ 14 + b.toNat * 2 ^ 8 + 3 * 2 ^ 6 + (ty.ox.toNat * 8 + ty.sx.toNat * 4 + ty.sz.toNat))) 3 3 = ty.ox := by
    clear hE e0 hB b0 b1 b2
    rw [fld_head _ _ _ _ _ _ (by decide)]
    apply BitVec.eq_of_toNat_eq
    simp only [fld, encBody, encVBody, SizeType.code, BitVec.toNat_ofNat]
    omega
  have b4 : bitAt (encHead true s op + (d.toNat * 2 ^ 14 + b.toNat * 2 ^ 8 + 3 * 2 ^ 6 + (ty.ox.toNat * 8 + ty.sx.toNat * 4 + ty.sz.toNat))) 2 = ty.sx := by
    clear hE e0 hB b0 b1 b2 b3
    rw [bitAt_head _ _ _ _ _ (by decide)]
    have h : (d.toNat * 2 ^ 14 + b.toNat * 2 ^ 8 + 3 * 2 ^ 6 + (ty.ox.toNat * 8 + ty.sx.toNat * 4 + ty.sz.toNat)) / 2 ^ 2 % 2 = Bool.toNat ty.sx := by
      simp only [encBody, encVBody, SizeType.code, Nat.reducePow]
      omega
    rw [bitAt, h]
    cases ty.sx <;> rfl
  have b5 : fld (encHead true s op + (d.toNat * 2 ^ 14 + b.toNat * 2 ^ 8 + 3 * 2 ^ 6 + (ty.ox.toNat * 8 + ty.sx.toNat * 4 + ty.sz.toNat))) 0 2 = ty.sz := by
    clear hE e0 hB b0 b1 b2 b3 b4
    rw [fld_head _ _ _ _ _ _ (by decide)]
    apply BitVec.eq_of_toNat_eq
    simp only [fld, encBody, encVBody, SizeType.code, BitVec.toNat_ofNat]
    omega
  have he2 : (k s d b (.long ty x)).encode = some (encHead true s op + (d.toNat * 2 ^ 14 + b.toNat * 2 ^ 8 + 3 * 2 ^ 6 + (ty.ox.toNat * 8 + ty.sx.toNat * 4 + ty.sz.toNat)), some (x.toNat)) := by
    rw [he]
    try simp only [encM, SizeType.code, Nat.add_assoc]
  refine encodes_long he2 ho hB hE fun _ => ?_
  rw [hd _ _ (opField_head _ _ ho hB)]
  simp only [decMX, show ((3#2 : BitVec 2) == 3) = true from rfl, show ((0#6 : BitVec 6) == 0) = true from rfl, withScope_code, AmoOp.ofCode_code, shortOnly, longOnly, need, xBit_head _ _ ho hB, fS_head _ _ ho hB, fD, fA, fB, fT, fMode, fM, fImm, fDisp, fSizeType, Bool.not_false, Bool.not_true, Bool.true_or, Bool.false_or, Bool.or_true, Bool.and_true, Bool.true_and, if_true, if_false, Bool.false_eq_true, beq_self_eq_true, e0, b0, b1, b2, b3, b4, b5]

theorem fmtMVs {op : Nat} (ho : op < 256) {k : Stall → VReg → Reg → BitVec 2 → MForm → Instr}
    (hd : ∀ w y, opField w = op → decodeOp w y = decMV w y k) (s : Stall) (d : VReg) (b : Reg) (m : BitVec 2) (x : BitVec 6)
    (he : (k s d b m (.short x)).encode = encM s op d.toNat b.toNat m.toNat (.short x)) : Encodes (k s d b m (.short x)) := by
  have := d.isLt
  have := b.isLt
  have := m.isLt
  have := x.isLt
  have hB : (d.toNat * 2 ^ 14 + b.toNat * 2 ^ 8 + m.toNat * 2 ^ 6 + x.toNat) < 2 ^ 20 := by
    first
    | decide
    | (try simp only [encBody, encVBody, SizeType.code]
       omega)
  have b0 : zeroAt (encHead false s op + (d.toNat * 2 ^ 14 + b.toNat * 2 ^ 8 + m.toNat * 2 ^ 6 + x.toNat)) 19 1 = true := by
    clear hB
    rw [zeroAt_head _ _ _ _ _ _ (by decide)]
    simp only [zeroAt, encBody, encVBody, SizeType.code, beq_iff_eq]
    omega
  have b1 : fld (encHead false s op + (d.toNat * 2 ^ 14 + b.toNat * 2 ^ 8 + m.toNat * 2 ^ 6 + x.toNat)) 14 5 = d := by
    clear hB b0
    rw [fld_head _ _ _ _ _ _ (by decide)]
    apply BitVec.eq_of_toNat_eq
    simp only [fld, encBody, encVBody, SizeType.code, BitVec.toNat_ofNat]
    omega
  have b2 : fld (encHead false s op + (d.toNat * 2 ^ 14 + b.toNat * 2 ^ 8 + m.toNat * 2 ^ 6 + x.toNat)) 8 6 = b := by
    clear hB b0 b1
    rw [fld_head _ _ _ _ _ _ (by decide)]
    apply BitVec.eq_of_toNat_eq
    simp only [fld, encBody, encVBody, SizeType.code, BitVec.toNat_ofNat]
    omega
  have b3 : fld (encHead false s op + (d.toNat * 2 ^ 14 + b.toNat * 2 ^ 8 + m.toNat * 2 ^ 6 + x.toNat)) 6 2 = m := by
    clear hB b0 b1 b2
    rw [fld_head _ _ _ _ _ _ (by decide)]
    apply BitVec.eq_of_toNat_eq
    simp only [fld, encBody, encVBody, SizeType.code, BitVec.toNat_ofNat]
    omega
  have b4 : fld (encHead false s op + (d.toNat * 2 ^ 14 + b.toNat * 2 ^ 8 + m.toNat * 2 ^ 6 + x.toNat)) 0 6 = x := by
    clear hB b0 b1 b2 b3
    rw [fld_head _ _ _ _ _ _ (by decide)]
    apply BitVec.eq_of_toNat_eq
    simp only [fld, encBody, encVBody, SizeType.code, BitVec.toNat_ofNat]
    omega
  have he2 : (k s d b m (.short x)).encode = some (encHead false s op + (d.toNat * 2 ^ 14 + b.toNat * 2 ^ 8 + m.toNat * 2 ^ 6 + x.toNat), none) := by
    rw [he]
    try simp only [encM, SizeType.code, Nat.add_assoc]
  refine encodes_short he2 ho hB fun _ y => ?_
  rw [hd _ _ (opField_head _ _ ho hB)]
  simp only [decMV, show ((3#2 : BitVec 2) == 3) = true from rfl, show ((0#6 : BitVec 6) == 0) = true from rfl, withScope_code, AmoOp.ofCode_code, shortOnly, longOnly, need, xBit_head _ _ ho hB, fS_head _ _ ho hB, fD, fA, fB, fT, fMode, fM, fImm, fDisp, fSizeType, Bool.not_false, Bool.not_true, Bool.true_or, Bool.false_or, Bool.or_true, Bool.and_true, Bool.true_and, if_true, if_false, Bool.false_eq_true, beq_self_eq_true, b0, b1, b2, b3, b4]

theorem fmtMVl {op : Nat} (ho : op < 256) {k : Stall → VReg → Reg → BitVec 2 → MForm → Instr}
    (hd : ∀ w y, opField w = op → decodeOp w y = decMV w y k) (s : Stall) (d : VReg) (b : Reg) (m : BitVec 2) (ty : SizeType) (x : BitVec 32)
    (he : (k s d b m (.long ty x)).encode = encM s op d.toNat b.toNat m.toNat (.long ty x)) : Encodes (k s d b m (.long ty x)) := by
  have := d.isLt
  have := b.isLt
  have := m.isLt
  have := ty.ox.isLt
  have := ty.sz.isLt
  have := Bool.toNat_lt ty.sx
  have := x.isLt
  have hE : (x.toNat) < 2 ^ 32 := by
    try simp only [encBC, VExt.word, Nat.reducePow]
    omega
  have e0 : fld (x.toNat) 0 32 = x := by
    clear hE
    apply BitVec.eq_of_toNat_eq
    simp only [fld, encBC, VExt.word, Nat.reducePow, BitVec.toNat_ofNat]
    omega
  have hB : (d.toNat * 2 ^ 14 + b.toNat * 2 ^ 8 + m.toNat * 2 ^ 6 + (ty.ox.toNat * 8 + ty.sx.toNat * 4 + ty.sz.toNat)) < 2 ^ 20 := by
    clear hE e0
    first
    | decide
    | (try simp only [encBody, encVBody, SizeType.code]
       omega)
  have b0 : zeroAt (encHead true s op + (d.toNat * 2 ^ 14 + b.toNat * 2 ^ 8 + m.toNat * 2 ^ 6 + (ty.ox.toNat * 8 + ty.sx.toNat * 4 + ty.sz.toNat))) 19 1 = true := by
    clear hE e0 hB
    rw [zeroAt_head _ _ _ _ _ _ (by decide)]
    simp only [zeroAt, encBody, encVBody, SizeType.code, beq_iff_eq]
    omega
  have b1 : fld (encHead true s op + (d.toNat * 2 ^ 14 + b.toNat * 2 ^ 8 + m.toNat * 2 ^ 6 + (ty.ox.toNat * 8 + ty.sx.toNat * 4 + ty.sz.toNat))) 14 5 = d := by
    clear hE e0 hB b0
    rw [fld_head _ _ _ _ _ _ (by decide)]
    apply BitVec.eq_of_toNat_eq
    simp only [fld, encBody, encVBody, SizeType.code, BitVec.toNat_ofNat]
    omega
  have b2 : fld (encHead true s op + (d.toNat * 2 ^ 14 + b.toNat * 2 ^ 8 + m.toNat * 2 ^ 6 + (ty.ox.toNat * 8 + ty.sx.toNat * 4 + ty.sz.toNat))) 8 6 = b := by
    clear hE e0 hB b0 b1
    rw [fld_head _ _ _ _ _ _ (by decide)]
    apply BitVec.eq_of_toNat_eq
    simp only [fld, encBody, encVBody, SizeType.code, BitVec.toNat_ofNat]
    omega
  have b3 : fld (encHead true s op + (d.toNat * 2 ^ 14 + b.toNat * 2 ^ 8 + m.toNat * 2 ^ 6 + (ty.ox.toNat * 8 + ty.sx.toNat * 4 + ty.sz.toNat))) 6 2 = m := by
    clear hE e0 hB b0 b1 b2
    rw [fld_head _ _ _ _ _ _ (by decide)]
    apply BitVec.eq_of_toNat_eq
    simp only [fld, encBody, encVBody, SizeType.code, BitVec.toNat_ofNat]
    omega
  have b4 : fld (encHead true s op + (d.toNat * 2 ^ 14 + b.toNat * 2 ^ 8 + m.toNat * 2 ^ 6 + (ty.ox.toNat * 8 + ty.sx.toNat * 4 + ty.sz.toNat))) 3 3 = ty.ox := by
    clear hE e0 hB b0 b1 b2 b3
    rw [fld_head _ _ _ _ _ _ (by decide)]
    apply BitVec.eq_of_toNat_eq
    simp only [fld, encBody, encVBody, SizeType.code, BitVec.toNat_ofNat]
    omega
  have b5 : bitAt (encHead true s op + (d.toNat * 2 ^ 14 + b.toNat * 2 ^ 8 + m.toNat * 2 ^ 6 + (ty.ox.toNat * 8 + ty.sx.toNat * 4 + ty.sz.toNat))) 2 = ty.sx := by
    clear hE e0 hB b0 b1 b2 b3 b4
    rw [bitAt_head _ _ _ _ _ (by decide)]
    have h : (d.toNat * 2 ^ 14 + b.toNat * 2 ^ 8 + m.toNat * 2 ^ 6 + (ty.ox.toNat * 8 + ty.sx.toNat * 4 + ty.sz.toNat)) / 2 ^ 2 % 2 = Bool.toNat ty.sx := by
      simp only [encBody, encVBody, SizeType.code, Nat.reducePow]
      omega
    rw [bitAt, h]
    cases ty.sx <;> rfl
  have b6 : fld (encHead true s op + (d.toNat * 2 ^ 14 + b.toNat * 2 ^ 8 + m.toNat * 2 ^ 6 + (ty.ox.toNat * 8 + ty.sx.toNat * 4 + ty.sz.toNat))) 0 2 = ty.sz := by
    clear hE e0 hB b0 b1 b2 b3 b4 b5
    rw [fld_head _ _ _ _ _ _ (by decide)]
    apply BitVec.eq_of_toNat_eq
    simp only [fld, encBody, encVBody, SizeType.code, BitVec.toNat_ofNat]
    omega
  have he2 : (k s d b m (.long ty x)).encode = some (encHead true s op + (d.toNat * 2 ^ 14 + b.toNat * 2 ^ 8 + m.toNat * 2 ^ 6 + (ty.ox.toNat * 8 + ty.sx.toNat * 4 + ty.sz.toNat)), some (x.toNat)) := by
    rw [he]
    try simp only [encM, SizeType.code, Nat.add_assoc]
  refine encodes_long he2 ho hB hE fun _ => ?_
  rw [hd _ _ (opField_head _ _ ho hB)]
  simp only [decMV, show ((3#2 : BitVec 2) == 3) = true from rfl, show ((0#6 : BitVec 6) == 0) = true from rfl, withScope_code, AmoOp.ofCode_code, shortOnly, longOnly, need, xBit_head _ _ ho hB, fS_head _ _ ho hB, fD, fA, fB, fT, fMode, fM, fImm, fDisp, fSizeType, Bool.not_false, Bool.not_true, Bool.true_or, Bool.false_or, Bool.or_true, Bool.and_true, Bool.true_and, if_true, if_false, Bool.false_eq_true, beq_self_eq_true, e0, b0, b1, b2, b3, b4, b5, b6]

theorem fmtMVXs {op : Nat} (ho : op < 256) {k : Stall → VReg → Reg → MForm → Instr}
    (hd : ∀ w y, opField w = op → decodeOp w y = decMVX w y k) (s : Stall) (d : VReg) (b : Reg) (x : BitVec 6)
    (he : (k s d b (.short x)).encode = encM s op d.toNat b.toNat 3 (.short x)) : Encodes (k s d b (.short x)) := by
  have := d.isLt
  have := b.isLt
  have := x.isLt
  have hB : (d.toNat * 2 ^ 14 + b.toNat * 2 ^ 8 + 3 * 2 ^ 6 + x.toNat) < 2 ^ 20 := by
    first
    | decide
    | (try simp only [encBody, encVBody, SizeType.code]
       omega)
  have b0 : zeroAt (encHead false s op + (d.toNat * 2 ^ 14 + b.toNat * 2 ^ 8 + 3 * 2 ^ 6 + x.toNat)) 19 1 = true := by
    clear hB
    rw [zeroAt_head _ _ _ _ _ _ (by decide)]
    simp only [zeroAt, encBody, encVBody, SizeType.code, beq_iff_eq]
    omega
  have b1 : fld (encHead false s op + (d.toNat * 2 ^ 14 + b.toNat * 2 ^ 8 + 3 * 2 ^ 6 + x.toNat)) 14 5 = d := by
    clear hB b0
    rw [fld_head _ _ _ _ _ _ (by decide)]
    apply BitVec.eq_of_toNat_eq
    simp only [fld, encBody, encVBody, SizeType.code, BitVec.toNat_ofNat]
    omega
  have b2 : fld (encHead false s op + (d.toNat * 2 ^ 14 + b.toNat * 2 ^ 8 + 3 * 2 ^ 6 + x.toNat)) 8 6 = b := by
    clear hB b0 b1
    rw [fld_head _ _ _ _ _ _ (by decide)]
    apply BitVec.eq_of_toNat_eq
    simp only [fld, encBody, encVBody, SizeType.code, BitVec.toNat_ofNat]
    omega
  have b3 : fld (encHead false s op + (d.toNat * 2 ^ 14 + b.toNat * 2 ^ 8 + 3 * 2 ^ 6 + x.toNat)) 6 2 = 3#2 := by
    clear hB b0 b1 b2
    rw [fld_head _ _ _ _ _ _ (by decide)]
    apply BitVec.eq_of_toNat_eq
    simp only [fld, encBody, encVBody, SizeType.code, BitVec.toNat_ofNat]
    omega
  have b4 : fld (encHead false s op + (d.toNat * 2 ^ 14 + b.toNat * 2 ^ 8 + 3 * 2 ^ 6 + x.toNat)) 0 6 = x := by
    clear hB b0 b1 b2 b3
    rw [fld_head _ _ _ _ _ _ (by decide)]
    apply BitVec.eq_of_toNat_eq
    simp only [fld, encBody, encVBody, SizeType.code, BitVec.toNat_ofNat]
    omega
  have he2 : (k s d b (.short x)).encode = some (encHead false s op + (d.toNat * 2 ^ 14 + b.toNat * 2 ^ 8 + 3 * 2 ^ 6 + x.toNat), none) := by
    rw [he]
    try simp only [encM, SizeType.code, Nat.add_assoc]
  refine encodes_short he2 ho hB fun _ y => ?_
  rw [hd _ _ (opField_head _ _ ho hB)]
  simp only [decMVX, show ((3#2 : BitVec 2) == 3) = true from rfl, show ((0#6 : BitVec 6) == 0) = true from rfl, withScope_code, AmoOp.ofCode_code, shortOnly, longOnly, need, xBit_head _ _ ho hB, fS_head _ _ ho hB, fD, fA, fB, fT, fMode, fM, fImm, fDisp, fSizeType, Bool.not_false, Bool.not_true, Bool.true_or, Bool.false_or, Bool.or_true, Bool.and_true, Bool.true_and, if_true, if_false, Bool.false_eq_true, beq_self_eq_true, b0, b1, b2, b3, b4]

theorem fmtMVXl {op : Nat} (ho : op < 256) {k : Stall → VReg → Reg → MForm → Instr}
    (hd : ∀ w y, opField w = op → decodeOp w y = decMVX w y k) (s : Stall) (d : VReg) (b : Reg) (ty : SizeType) (x : BitVec 32)
    (he : (k s d b (.long ty x)).encode = encM s op d.toNat b.toNat 3 (.long ty x)) : Encodes (k s d b (.long ty x)) := by
  have := d.isLt
  have := b.isLt
  have := ty.ox.isLt
  have := ty.sz.isLt
  have := Bool.toNat_lt ty.sx
  have := x.isLt
  have hE : (x.toNat) < 2 ^ 32 := by
    try simp only [encBC, VExt.word, Nat.reducePow]
    omega
  have e0 : fld (x.toNat) 0 32 = x := by
    clear hE
    apply BitVec.eq_of_toNat_eq
    simp only [fld, encBC, VExt.word, Nat.reducePow, BitVec.toNat_ofNat]
    omega
  have hB : (d.toNat * 2 ^ 14 + b.toNat * 2 ^ 8 + 3 * 2 ^ 6 + (ty.ox.toNat * 8 + ty.sx.toNat * 4 + ty.sz.toNat)) < 2 ^ 20 := by
    clear hE e0
    first
    | decide
    | (try simp only [encBody, encVBody, SizeType.code]
       omega)
  have b0 : zeroAt (encHead true s op + (d.toNat * 2 ^ 14 + b.toNat * 2 ^ 8 + 3 * 2 ^ 6 + (ty.ox.toNat * 8 + ty.sx.toNat * 4 + ty.sz.toNat))) 19 1 = true := by
    clear hE e0 hB
    rw [zeroAt_head _ _ _ _ _ _ (by decide)]
    simp only [zeroAt, encBody, encVBody, SizeType.code, beq_iff_eq]
    omega
  have b1 : fld (encHead true s op + (d.toNat * 2 ^ 14 + b.toNat * 2 ^ 8 + 3 * 2 ^ 6 + (ty.ox.toNat * 8 + ty.sx.toNat * 4 + ty.sz.toNat))) 14 5 = d := by
    clear hE e0 hB b0
    rw [fld_head _ _ _ _ _ _ (by decide)]
    apply BitVec.eq_of_toNat_eq
    simp only [fld, encBody, encVBody, SizeType.code, BitVec.toNat_ofNat]
    omega
  have b2 : fld (encHead true s op + (d.toNat * 2 ^ 14 + b.toNat * 2 ^ 8 + 3 * 2 ^ 6 + (ty.ox.toNat * 8 + ty.sx.toNat * 4 + ty.sz.toNat))) 8 6 = b := by
    clear hE e0 hB b0 b1
    rw [fld_head _ _ _ _ _ _ (by decide)]
    apply BitVec.eq_of_toNat_eq
    simp only [fld, encBody, encVBody, SizeType.code, BitVec.toNat_ofNat]
    omega
  have b3 : fld (encHead true s op + (d.toNat * 2 ^ 14 + b.toNat * 2 ^ 8 + 3 * 2 ^ 6 + (ty.ox.toNat * 8 + ty.sx.toNat * 4 + ty.sz.toNat))) 6 2 = 3#2 := by
    clear hE e0 hB b0 b1 b2
    rw [fld_head _ _ _ _ _ _ (by decide)]
    apply BitVec.eq_of_toNat_eq
    simp only [fld, encBody, encVBody, SizeType.code, BitVec.toNat_ofNat]
    omega
  have b4 : fld (encHead true s op + (d.toNat * 2 ^ 14 + b.toNat * 2 ^ 8 + 3 * 2 ^ 6 + (ty.ox.toNat * 8 + ty.sx.toNat * 4 + ty.sz.toNat))) 3 3 = ty.ox := by
    clear hE e0 hB b0 b1 b2 b3
    rw [fld_head _ _ _ _ _ _ (by decide)]
    apply BitVec.eq_of_toNat_eq
    simp only [fld, encBody, encVBody, SizeType.code, BitVec.toNat_ofNat]
    omega
  have b5 : bitAt (encHead true s op + (d.toNat * 2 ^ 14 + b.toNat * 2 ^ 8 + 3 * 2 ^ 6 + (ty.ox.toNat * 8 + ty.sx.toNat * 4 + ty.sz.toNat))) 2 = ty.sx := by
    clear hE e0 hB b0 b1 b2 b3 b4
    rw [bitAt_head _ _ _ _ _ (by decide)]
    have h : (d.toNat * 2 ^ 14 + b.toNat * 2 ^ 8 + 3 * 2 ^ 6 + (ty.ox.toNat * 8 + ty.sx.toNat * 4 + ty.sz.toNat)) / 2 ^ 2 % 2 = Bool.toNat ty.sx := by
      simp only [encBody, encVBody, SizeType.code, Nat.reducePow]
      omega
    rw [bitAt, h]
    cases ty.sx <;> rfl
  have b6 : fld (encHead true s op + (d.toNat * 2 ^ 14 + b.toNat * 2 ^ 8 + 3 * 2 ^ 6 + (ty.ox.toNat * 8 + ty.sx.toNat * 4 + ty.sz.toNat))) 0 2 = ty.sz := by
    clear hE e0 hB b0 b1 b2 b3 b4 b5
    rw [fld_head _ _ _ _ _ _ (by decide)]
    apply BitVec.eq_of_toNat_eq
    simp only [fld, encBody, encVBody, SizeType.code, BitVec.toNat_ofNat]
    omega
  have he2 : (k s d b (.long ty x)).encode = some (encHead true s op + (d.toNat * 2 ^ 14 + b.toNat * 2 ^ 8 + 3 * 2 ^ 6 + (ty.ox.toNat * 8 + ty.sx.toNat * 4 + ty.sz.toNat)), some (x.toNat)) := by
    rw [he]
    try simp only [encM, SizeType.code, Nat.add_assoc]
  refine encodes_long he2 ho hB hE fun _ => ?_
  rw [hd _ _ (opField_head _ _ ho hB)]
  simp only [decMVX, show ((3#2 : BitVec 2) == 3) = true from rfl, show ((0#6 : BitVec 6) == 0) = true from rfl, withScope_code, AmoOp.ofCode_code, shortOnly, longOnly, need, xBit_head _ _ ho hB, fS_head _ _ ho hB, fD, fA, fB, fT, fMode, fM, fImm, fDisp, fSizeType, Bool.not_false, Bool.not_true, Bool.true_or, Bool.false_or, Bool.or_true, Bool.and_true, Bool.true_and, if_true, if_false, Bool.false_eq_true, beq_self_eq_true, e0, b0, b1, b2, b3, b4, b5, b6]

theorem fmtM2s {op : Nat} (ho : op < 256) {k : Stall → Reg → Reg → BitVec 2 → BitVec 6 → Instr} {kl : Stall → Reg → Reg → BitVec 2 → SizeType → BitVec 32 → Instr}
    (hd : ∀ w y, opField w = op → decodeOp w y = decM2 w y k kl) (s : Stall) (d : Reg) (b : Reg) (m : BitVec 2) (x : BitVec 6)
    (he : (k s d b m x).encode = encM s op d.toNat b.toNat m.toNat (.short x)) : Encodes (k s d b m x) := by
  have := d.isLt
  have := b.isLt
  have := m.isLt
  have := x.isLt
  have hB : (d.toNat * 2 ^ 14 + b.toNat * 2 ^ 8 + m.toNat * 2 ^ 6 + x.toNat) < 2 ^ 20 := by
    first
    | decide
    | (try simp only [encBody, encVBody, SizeType.code]
       omega)
  have b0 : fld (encHead false s op + (d.toNat * 2 ^ 14 + b.toNat * 2 ^ 8 + m.toNat * 2 ^ 6 + x.toNat)) 14 6 = d := by
    clear hB
    rw [fld_head _ _ _ _ _ _ (by decide)]
    apply BitVec.eq_of_toNat_eq
    simp only [fld, encBody, encVBody, SizeType.code, BitVec.toNat_ofNat]
    omega
  have b1 : fld (encHead false s op + (d.toNat * 2 ^ 14 + b.toNat * 2 ^ 8 + m.toNat * 2 ^ 6 + x.toNat)) 8 6 = b := by
    clear hB b0
    rw [fld_head _ _ _ _ _ _ (by decide)]
    apply BitVec.eq_of_toNat_eq
    simp only [fld, encBody, encVBody, SizeType.code, BitVec.toNat_ofNat]
    omega
  have b2 : fld (encHead false s op + (d.toNat * 2 ^ 14 + b.toNat * 2 ^ 8 + m.toNat * 2 ^ 6 + x.toNat)) 6 2 = m := by
    clear hB b0 b1
    rw [fld_head _ _ _ _ _ _ (by decide)]
    apply BitVec.eq_of_toNat_eq
    simp only [fld, encBody, encVBody, SizeType.code, BitVec.toNat_ofNat]
    omega
  have b3 : fld (encHead false s op + (d.toNat * 2 ^ 14 + b.toNat * 2 ^ 8 + m.toNat * 2 ^ 6 + x.toNat)) 0 6 = x := by
    clear hB b0 b1 b2
    rw [fld_head _ _ _ _ _ _ (by decide)]
    apply BitVec.eq_of_toNat_eq
    simp only [fld, encBody, encVBody, SizeType.code, BitVec.toNat_ofNat]
    omega
  have he2 : (k s d b m x).encode = some (encHead false s op + (d.toNat * 2 ^ 14 + b.toNat * 2 ^ 8 + m.toNat * 2 ^ 6 + x.toNat), none) := by
    rw [he]
    try simp only [encM, SizeType.code, Nat.add_assoc]
  refine encodes_short he2 ho hB fun _ y => ?_
  rw [hd _ _ (opField_head _ _ ho hB)]
  simp only [decM2, show ((3#2 : BitVec 2) == 3) = true from rfl, show ((0#6 : BitVec 6) == 0) = true from rfl, withScope_code, AmoOp.ofCode_code, shortOnly, longOnly, need, xBit_head _ _ ho hB, fS_head _ _ ho hB, fD, fA, fB, fT, fMode, fM, fImm, fDisp, fSizeType, Bool.not_false, Bool.not_true, Bool.true_or, Bool.false_or, Bool.or_true, Bool.and_true, Bool.true_and, if_true, if_false, Bool.false_eq_true, beq_self_eq_true, b0, b1, b2, b3]

theorem fmtM2l {op : Nat} (ho : op < 256) {k : Stall → Reg → Reg → BitVec 2 → BitVec 6 → Instr} {kl : Stall → Reg → Reg → BitVec 2 → SizeType → BitVec 32 → Instr}
    (hd : ∀ w y, opField w = op → decodeOp w y = decM2 w y k kl) (s : Stall) (d : Reg) (b : Reg) (m : BitVec 2) (ty : SizeType) (x : BitVec 32)
    (he : (kl s d b m ty x).encode = encM s op d.toNat b.toNat m.toNat (.long ty x)) : Encodes (kl s d b m ty x) := by
  have := d.isLt
  have := b.isLt
  have := m.isLt
  have := ty.ox.isLt
  have := ty.sz.isLt
  have := Bool.toNat_lt ty.sx
  have := x.isLt
  have hE : (x.toNat) < 2 ^ 32 := by
    try simp only [encBC, VExt.word, Nat.reducePow]
    omega
  have e0 : fld (x.toNat) 0 32 = x := by
    clear hE
    apply BitVec.eq_of_toNat_eq
    simp only [fld, encBC, VExt.word, Nat.reducePow, BitVec.toNat_ofNat]
    omega
  have hB : (d.toNat * 2 ^ 14 + b.toNat * 2 ^ 8 + m.toNat * 2 ^ 6 + (ty.ox.toNat * 8 + ty.sx.toNat * 4 + ty.sz.toNat)) < 2 ^ 20 := by
    clear hE e0
    first
    | decide
    | (try simp only [encBody, encVBody, SizeType.code]
       omega)
  have b0 : fld (encHead true s op + (d.toNat * 2 ^ 14 + b.toNat * 2 ^ 8 + m.toNat * 2 ^ 6 + (ty.ox.toNat * 8 + ty.sx.toNat * 4 + ty.sz.toNat))) 14 6 = d := by
    clear hE e0 hB
    rw [fld_head _ _ _ _ _ _ (by decide)]
    apply BitVec.eq_of_toNat_eq
    simp only [fld, encBody, encVBody, SizeType.code, BitVec.toNat_ofNat]
    omega
  have b1 : fld (encHead true s op + (d.toNat * 2 ^ 14 + b.toNat * 2 ^ 8 + m.toNat * 2 ^ 6 + (ty.ox.toNat * 8 + ty.sx.toNat * 4 + ty.sz.toNat))) 8 6 = b := by
    clear hE e0 hB b0
    rw [fld_head _ _ _ _ _ _ (by decide)]
    apply BitVec.eq_of_toNat_eq
    simp only [fld, encBody, encVBody, SizeType.code, BitVec.toNat_ofNat]
    omega
  have b2 : fld (encHead true s op + (d.toNat * 2 ^ 14 + b.toNat * 2 ^ 8 + m.toNat * 2 ^ 6 + (ty.ox.toNat * 8 + ty.sx.toNat * 4 + ty.sz.toNat))) 6 2 = m := by
    clear hE e0 hB b0 b1
    rw [fld_head _ _ _ _ _ _ (by decide)]
    apply BitVec.eq_of_toNat_eq
    simp only [fld, encBody, encVBody, SizeType.code, BitVec.toNat_ofNat]
    omega
  have b3 : fld (encHead true s op + (d.toNat * 2 ^ 14 + b.toNat * 2 ^ 8 + m.toNat * 2 ^ 6 + (ty.ox.toNat * 8 + ty.sx.toNat * 4 + ty.sz.toNat))) 3 3 = ty.ox := by
    clear hE e0 hB b0 b1 b2
    rw [fld_head _ _ _ _ _ _ (by decide)]
    apply BitVec.eq_of_toNat_eq
    simp only [fld, encBody, encVBody, SizeType.code, BitVec.toNat_ofNat]
    omega
  have b4 : bitAt (encHead true s op + (d.toNat * 2 ^ 14 + b.toNat * 2 ^ 8 + m.toNat * 2 ^ 6 + (ty.ox.toNat * 8 + ty.sx.toNat * 4 + ty.sz.toNat))) 2 = ty.sx := by
    clear hE e0 hB b0 b1 b2 b3
    rw [bitAt_head _ _ _ _ _ (by decide)]
    have h : (d.toNat * 2 ^ 14 + b.toNat * 2 ^ 8 + m.toNat * 2 ^ 6 + (ty.ox.toNat * 8 + ty.sx.toNat * 4 + ty.sz.toNat)) / 2 ^ 2 % 2 = Bool.toNat ty.sx := by
      simp only [encBody, encVBody, SizeType.code, Nat.reducePow]
      omega
    rw [bitAt, h]
    cases ty.sx <;> rfl
  have b5 : fld (encHead true s op + (d.toNat * 2 ^ 14 + b.toNat * 2 ^ 8 + m.toNat * 2 ^ 6 + (ty.ox.toNat * 8 + ty.sx.toNat * 4 + ty.sz.toNat))) 0 2 = ty.sz := by
    clear hE e0 hB b0 b1 b2 b3 b4
    rw [fld_head _ _ _ _ _ _ (by decide)]
    apply BitVec.eq_of_toNat_eq
    simp only [fld, encBody, encVBody, SizeType.code, BitVec.toNat_ofNat]
    omega
  have he2 : (kl s d b m ty x).encode = some (encHead true s op + (d.toNat * 2 ^ 14 + b.toNat * 2 ^ 8 + m.toNat * 2 ^ 6 + (ty.ox.toNat * 8 + ty.sx.toNat * 4 + ty.sz.toNat)), some (x.toNat)) := by
    rw [he]
    try simp only [encM, SizeType.code, Nat.add_assoc]
  refine encodes_long he2 ho hB hE fun _ => ?_
  rw [hd _ _ (opField_head _ _ ho hB)]
  simp only [decM2, show ((3#2 : BitVec 2) == 3) = true from rfl, show ((0#6 : BitVec 6) == 0) = true from rfl, withScope_code, AmoOp.ofCode_code, shortOnly, longOnly, need, xBit_head _ _ ho hB, fS_head _ _ ho hB, fD, fA, fB, fT, fMode, fM, fImm, fDisp, fSizeType, Bool.not_false, Bool.not_true, Bool.true_or, Bool.false_or, Bool.or_true, Bool.and_true, Bool.true_and, if_true, if_false, Bool.false_eq_true, beq_self_eq_true, e0, b0, b1, b2, b3, b4, b5]

theorem fmtV {op : Nat} (ho : op < 256) {vop : VecOp} {g : Stall → VReg → VReg → VReg → KReg → BitVec 2 → Instr}
    (hd : ∀ w y, opField w = op → decodeOp w y = decV w y vop g) (s : Stall) (d : VReg) (a : VReg) (b : VReg) (k : KReg) (t : BitVec 2)
    (he : (g s d a b k t).encode = encV s op d.toNat a.toNat b.toNat k.toNat t.toNat) : Encodes (g s d a b k t) := by
  have := d.isLt
  have := a.isLt
  have := b.isLt
  have := k.isLt
  have := t.isLt
  have hB : (encVBody d.toNat a.toNat b.toNat k.toNat t.toNat) < 2 ^ 20 := by
    first
    | decide
    | (try simp only [encBody, encVBody, SizeType.code]
       omega)
  have b0 : fld (encHead false s op + (encVBody d.toNat a.toNat b.toNat k.toNat t.toNat)) 15 5 = d := by
    clear hB
    rw [fld_head _ _ _ _ _ _ (by decide)]
    apply BitVec.eq_of_toNat_eq
    simp only [fld, encBody, encVBody, SizeType.code, BitVec.toNat_ofNat]
    omega
  have b1 : fld (encHead false s op + (encVBody d.toNat a.toNat b.toNat k.toNat t.toNat)) 10 5 = a := by
    clear hB b0
    rw [fld_head _ _ _ _ _ _ (by decide)]
    apply BitVec.eq_of_toNat_eq
    simp only [fld, encBody, encVBody, SizeType.code, BitVec.toNat_ofNat]
    omega
  have b2 : fld (encHead false s op + (encVBody d.toNat a.toNat b.toNat k.toNat t.toNat)) 5 5 = b := by
    clear hB b0 b1
    rw [fld_head _ _ _ _ _ _ (by decide)]
    apply BitVec.eq_of_toNat_eq
    simp only [fld, encBody, encVBody, SizeType.code, BitVec.toNat_ofNat]
    omega
  have b3 : fld (encHead false s op + (encVBody d.toNat a.toNat b.toNat k.toNat t.toNat)) 2 3 = k := by
    clear hB b0 b1 b2
    rw [fld_head _ _ _ _ _ _ (by decide)]
    apply BitVec.eq_of_toNat_eq
    simp only [fld, encBody, encVBody, SizeType.code, BitVec.toNat_ofNat]
    omega
  have b4 : fld (encHead false s op + (encVBody d.toNat a.toNat b.toNat k.toNat t.toNat)) 0 2 = t := by
    clear hB b0 b1 b2 b3
    rw [fld_head _ _ _ _ _ _ (by decide)]
    apply BitVec.eq_of_toNat_eq
    simp only [fld, encBody, encVBody, SizeType.code, BitVec.toNat_ofNat]
    omega
  refine encodes_short he ho hB fun _ y => ?_
  rw [hd _ _ (opField_head _ _ ho hB)]
  simp only [decV, show ((3#2 : BitVec 2) == 3) = true from rfl, show ((0#6 : BitVec 6) == 0) = true from rfl, withScope_code, AmoOp.ofCode_code, shortOnly, longOnly, need, xBit_head _ _ ho hB, fS_head _ _ ho hB, fD, fA, fB, fT, fMode, fM, fImm, fDisp, fSizeType, Bool.not_false, Bool.not_true, Bool.true_or, Bool.false_or, Bool.or_true, Bool.and_true, Bool.true_and, if_true, if_false, Bool.false_eq_true, beq_self_eq_true, b0, b1, b2, b3, b4]

theorem fmtV1 {op : Nat} (ho : op < 256) {vop : VecOp} {g : Stall → VReg → VReg → KReg → BitVec 2 → Instr}
    (hd : ∀ w y, opField w = op → decodeOp w y = decV1 w y vop g) (s : Stall) (d : VReg) (a : VReg) (k : KReg) (t : BitVec 2)
    (he : (g s d a k t).encode = encV s op d.toNat a.toNat 0 k.toNat t.toNat) : Encodes (g s d a k t) := by
  have := d.isLt
  have := a.isLt
  have := k.isLt
  have := t.isLt
  have hB : (encVBody d.toNat a.toNat 0 k.toNat t.toNat) < 2 ^ 20 := by
    first
    | decide
    | (try simp only [encBody, encVBody, SizeType.code]
       omega)
  have b0 : fld (encHead false s op + (encVBody d.toNat a.toNat 0 k.toNat t.toNat)) 15 5 = d := by
    clear hB
    rw [fld_head _ _ _ _ _ _ (by decide)]
    apply BitVec.eq_of_toNat_eq
    simp only [fld, encBody, encVBody, SizeType.code, BitVec.toNat_ofNat]
    omega
  have b1 : fld (encHead false s op + (encVBody d.toNat a.toNat 0 k.toNat t.toNat)) 10 5 = a := by
    clear hB b0
    rw [fld_head _ _ _ _ _ _ (by decide)]
    apply BitVec.eq_of_toNat_eq
    simp only [fld, encBody, encVBody, SizeType.code, BitVec.toNat_ofNat]
    omega
  have b2 : zeroAt (encHead false s op + (encVBody d.toNat a.toNat 0 k.toNat t.toNat)) 5 5 = true := by
    clear hB b0 b1
    rw [zeroAt_head _ _ _ _ _ _ (by decide)]
    simp only [zeroAt, encBody, encVBody, SizeType.code, beq_iff_eq]
    omega
  have b3 : fld (encHead false s op + (encVBody d.toNat a.toNat 0 k.toNat t.toNat)) 2 3 = k := by
    clear hB b0 b1 b2
    rw [fld_head _ _ _ _ _ _ (by decide)]
    apply BitVec.eq_of_toNat_eq
    simp only [fld, encBody, encVBody, SizeType.code, BitVec.toNat_ofNat]
    omega
  have b4 : fld (encHead false s op + (encVBody d.toNat a.toNat 0 k.toNat t.toNat)) 0 2 = t := by
    clear hB b0 b1 b2 b3
    rw [fld_head _ _ _ _ _ _ (by decide)]
    apply BitVec.eq_of_toNat_eq
    simp only [fld, encBody, encVBody, SizeType.code, BitVec.toNat_ofNat]
    omega
  refine encodes_short he ho hB fun _ y => ?_
  rw [hd _ _ (opField_head _ _ ho hB)]
  simp only [decV1, show ((3#2 : BitVec 2) == 3) = true from rfl, show ((0#6 : BitVec 6) == 0) = true from rfl, withScope_code, AmoOp.ofCode_code, shortOnly, longOnly, need, xBit_head _ _ ho hB, fS_head _ _ ho hB, fD, fA, fB, fT, fMode, fM, fImm, fDisp, fSizeType, Bool.not_false, Bool.not_true, Bool.true_or, Bool.false_or, Bool.or_true, Bool.and_true, Bool.true_and, if_true, if_false, Bool.false_eq_true, beq_self_eq_true, b0, b1, b2, b3, b4]

theorem fmtV0 {op : Nat} (ho : op < 256) {vop : VecOp} {g : Stall → VReg → KReg → BitVec 2 → Instr}
    (hd : ∀ w y, opField w = op → decodeOp w y = decV0 w y vop g) (s : Stall) (d : VReg) (k : KReg) (t : BitVec 2)
    (he : (g s d k t).encode = encV s op d.toNat 0 0 k.toNat t.toNat) : Encodes (g s d k t) := by
  have := d.isLt
  have := k.isLt
  have := t.isLt
  have hB : (encVBody d.toNat 0 0 k.toNat t.toNat) < 2 ^ 20 := by
    first
    | decide
    | (try simp only [encBody, encVBody, SizeType.code]
       omega)
  have b0 : fld (encHead false s op + (encVBody d.toNat 0 0 k.toNat t.toNat)) 15 5 = d := by
    clear hB
    rw [fld_head _ _ _ _ _ _ (by decide)]
    apply BitVec.eq_of_toNat_eq
    simp only [fld, encBody, encVBody, SizeType.code, BitVec.toNat_ofNat]
    omega
  have b1 : zeroAt (encHead false s op + (encVBody d.toNat 0 0 k.toNat t.toNat)) 5 10 = true := by
    clear hB b0
    rw [zeroAt_head _ _ _ _ _ _ (by decide)]
    simp only [zeroAt, encBody, encVBody, SizeType.code, beq_iff_eq]
    omega
  have b2 : fld (encHead false s op + (encVBody d.toNat 0 0 k.toNat t.toNat)) 2 3 = k := by
    clear hB b0 b1
    rw [fld_head _ _ _ _ _ _ (by decide)]
    apply BitVec.eq_of_toNat_eq
    simp only [fld, encBody, encVBody, SizeType.code, BitVec.toNat_ofNat]
    omega
  have b3 : fld (encHead false s op + (encVBody d.toNat 0 0 k.toNat t.toNat)) 0 2 = t := by
    clear hB b0 b1 b2
    rw [fld_head _ _ _ _ _ _ (by decide)]
    apply BitVec.eq_of_toNat_eq
    simp only [fld, encBody, encVBody, SizeType.code, BitVec.toNat_ofNat]
    omega
  refine encodes_short he ho hB fun _ y => ?_
  rw [hd _ _ (opField_head _ _ ho hB)]
  simp only [decV0, show ((3#2 : BitVec 2) == 3) = true from rfl, show ((0#6 : BitVec 6) == 0) = true from rfl, withScope_code, AmoOp.ofCode_code, shortOnly, longOnly, need, xBit_head _ _ ho hB, fS_head _ _ ho hB, fD, fA, fB, fT, fMode, fM, fImm, fDisp, fSizeType, Bool.not_false, Bool.not_true, Bool.true_or, Bool.false_or, Bool.or_true, Bool.and_true, Bool.true_and, if_true, if_false, Bool.false_eq_true, beq_self_eq_true, b0, b1, b2, b3]

theorem fmtVK {op : Nat} (ho : op < 256) {vop : VecOp} {g : Stall → KReg → VReg → VReg → KReg → BitVec 2 → Instr}
    (hd : ∀ w y, opField w = op → decodeOp w y = decVK w y vop g) (s : Stall) (d : KReg) (a : VReg) (b : VReg) (k : KReg) (t : BitVec 2)
    (he : (g s d a b k t).encode = encV s op d.toNat a.toNat b.toNat k.toNat t.toNat) : Encodes (g s d a b k t) := by
  have := d.isLt
  have := a.isLt
  have := b.isLt
  have := k.isLt
  have := t.isLt
  have hB : (encVBody d.toNat a.toNat b.toNat k.toNat t.toNat) < 2 ^ 20 := by
    first
    | decide
    | (try simp only [encBody, encVBody, SizeType.code]
       omega)
  have b0 : zeroAt (encHead false s op + (encVBody d.toNat a.toNat b.toNat k.toNat t.toNat)) 18 2 = true := by
    clear hB
    rw [zeroAt_head _ _ _ _ _ _ (by decide)]
    simp only [zeroAt, encBody, encVBody, SizeType.code, beq_iff_eq]
    omega
  have b1 : fld (encHead false s op + (encVBody d.toNat a.toNat b.toNat k.toNat t.toNat)) 15 3 = d := by
    clear hB b0
    rw [fld_head _ _ _ _ _ _ (by decide)]
    apply BitVec.eq_of_toNat_eq
    simp only [fld, encBody, encVBody, SizeType.code, BitVec.toNat_ofNat]
    omega
  have b2 : fld (encHead false s op + (encVBody d.toNat a.toNat b.toNat k.toNat t.toNat)) 10 5 = a := by
    clear hB b0 b1
    rw [fld_head _ _ _ _ _ _ (by decide)]
    apply BitVec.eq_of_toNat_eq
    simp only [fld, encBody, encVBody, SizeType.code, BitVec.toNat_ofNat]
    omega
  have b3 : fld (encHead false s op + (encVBody d.toNat a.toNat b.toNat k.toNat t.toNat)) 5 5 = b := by
    clear hB b0 b1 b2
    rw [fld_head _ _ _ _ _ _ (by decide)]
    apply BitVec.eq_of_toNat_eq
    simp only [fld, encBody, encVBody, SizeType.code, BitVec.toNat_ofNat]
    omega
  have b4 : fld (encHead false s op + (encVBody d.toNat a.toNat b.toNat k.toNat t.toNat)) 2 3 = k := by
    clear hB b0 b1 b2 b3
    rw [fld_head _ _ _ _ _ _ (by decide)]
    apply BitVec.eq_of_toNat_eq
    simp only [fld, encBody, encVBody, SizeType.code, BitVec.toNat_ofNat]
    omega
  have b5 : fld (encHead false s op + (encVBody d.toNat a.toNat b.toNat k.toNat t.toNat)) 0 2 = t := by
    clear hB b0 b1 b2 b3 b4
    rw [fld_head _ _ _ _ _ _ (by decide)]
    apply BitVec.eq_of_toNat_eq
    simp only [fld, encBody, encVBody, SizeType.code, BitVec.toNat_ofNat]
    omega
  refine encodes_short he ho hB fun _ y => ?_
  rw [hd _ _ (opField_head _ _ ho hB)]
  simp only [decVK, show ((3#2 : BitVec 2) == 3) = true from rfl, show ((0#6 : BitVec 6) == 0) = true from rfl, withScope_code, AmoOp.ofCode_code, shortOnly, longOnly, need, xBit_head _ _ ho hB, fS_head _ _ ho hB, fD, fA, fB, fT, fMode, fM, fImm, fDisp, fSizeType, Bool.not_false, Bool.not_true, Bool.true_or, Bool.false_or, Bool.or_true, Bool.and_true, Bool.true_and, if_true, if_false, Bool.false_eq_true, beq_self_eq_true, b0, b1, b2, b3, b4, b5]

theorem fmtVC {op : Nat} (ho : op < 256) {vop : VecOp} {g : Stall → VReg → VReg → BitVec 5 → KReg → Instr}
    (hd : ∀ w y, opField w = op → decodeOp w y = decVC w y vop g) (s : Stall) (d : VReg) (a : VReg) (b : BitVec 5) (k : KReg)
    (he : (g s d a b k).encode = encV s op d.toNat a.toNat b.toNat k.toNat 0) : Encodes (g s d a b k) := by
  have := d.isLt
  have := a.isLt
  have := b.isLt
  have := k.isLt
  have hB : (encVBody d.toNat a.toNat b.toNat k.toNat 0) < 2 ^ 20 := by
    first
    | decide
    | (try simp only [encBody, encVBody, SizeType.code]
       omega)
  have b0 : fld (encHead false s op + (encVBody d.toNat a.toNat b.toNat k.toNat 0)) 15 5 = d := by
    clear hB
    rw [fld_head _ _ _ _ _ _ (by decide)]
    apply BitVec.eq_of_toNat_eq
    simp only [fld, encBody, encVBody, SizeType.code, BitVec.toNat_ofNat]
    omega
  have b1 : fld (encHead false s op + (encVBody d.toNat a.toNat b.toNat k.toNat 0)) 10 5 = a := by
    clear hB b0
    rw [fld_head _ _ _ _ _ _ (by decide)]
    apply BitVec.eq_of_toNat_eq
    simp only [fld, encBody, encVBody, SizeType.code, BitVec.toNat_ofNat]
    omega
  have b2 : fld (encHead false s op + (encVBody d.toNat a.toNat b.toNat k.toNat 0)) 5 5 = b := by
    clear hB b0 b1
    rw [fld_head _ _ _ _ _ _ (by decide)]
    apply BitVec.eq_of_toNat_eq
    simp only [fld, encBody, encVBody, SizeType.code, BitVec.toNat_ofNat]
    omega
  have b3 : fld (encHead false s op + (encVBody d.toNat a.toNat b.toNat k.toNat 0)) 2 3 = k := by
    clear hB b0 b1 b2
    rw [fld_head _ _ _ _ _ _ (by decide)]
    apply BitVec.eq_of_toNat_eq
    simp only [fld, encBody, encVBody, SizeType.code, BitVec.toNat_ofNat]
    omega
  have b4 : zeroAt (encHead false s op + (encVBody d.toNat a.toNat b.toNat k.toNat 0)) 0 2 = true := by
    clear hB b0 b1 b2 b3
    rw [zeroAt_head _ _ _ _ _ _ (by decide)]
    simp only [zeroAt, encBody, encVBody, SizeType.code, beq_iff_eq]
    omega
  refine encodes_short he ho hB fun _ y => ?_
  rw [hd _ _ (opField_head _ _ ho hB)]
  simp only [decVC, show ((3#2 : BitVec 2) == 3) = true from rfl, show ((0#6 : BitVec 6) == 0) = true from rfl, withScope_code, AmoOp.ofCode_code, shortOnly, longOnly, need, xBit_head _ _ ho hB, fS_head _ _ ho hB, fD, fA, fB, fT, fMode, fM, fImm, fDisp, fSizeType, Bool.not_false, Bool.not_true, Bool.true_or, Bool.false_or, Bool.or_true, Bool.and_true, Bool.true_and, if_true, if_false, Bool.false_eq_true, beq_self_eq_true, b0, b1, b2, b3, b4]

theorem fmtVS {op : Nat} (ho : op < 256) {vop : VecOp} {g : Stall → VReg → VReg → KReg → Instr}
    (hd : ∀ w y, opField w = op → decodeOp w y = decVS w y vop g) (s : Stall) (d : VReg) (a : VReg) (k : KReg)
    (he : (g s d a k).encode = encV s op d.toNat a.toNat 0 k.toNat 0) : Encodes (g s d a k) := by
  have := d.isLt
  have := a.isLt
  have := k.isLt
  have hB : (encVBody d.toNat a.toNat 0 k.toNat 0) < 2 ^ 20 := by
    first
    | decide
    | (try simp only [encBody, encVBody, SizeType.code]
       omega)
  have b0 : fld (encHead false s op + (encVBody d.toNat a.toNat 0 k.toNat 0)) 15 5 = d := by
    clear hB
    rw [fld_head _ _ _ _ _ _ (by decide)]
    apply BitVec.eq_of_toNat_eq
    simp only [fld, encBody, encVBody, SizeType.code, BitVec.toNat_ofNat]
    omega
  have b1 : fld (encHead false s op + (encVBody d.toNat a.toNat 0 k.toNat 0)) 10 5 = a := by
    clear hB b0
    rw [fld_head _ _ _ _ _ _ (by decide)]
    apply BitVec.eq_of_toNat_eq
    simp only [fld, encBody, encVBody, SizeType.code, BitVec.toNat_ofNat]
    omega
  have b2 : fld (encHead false s op + (encVBody d.toNat a.toNat 0 k.toNat 0)) 2 3 = k := by
    clear hB b0 b1
    rw [fld_head _ _ _ _ _ _ (by decide)]
    apply BitVec.eq_of_toNat_eq
    simp only [fld, encBody, encVBody, SizeType.code, BitVec.toNat_ofNat]
    omega
  have b3 : zeroAt (encHead false s op + (encVBody d.toNat a.toNat 0 k.toNat 0)) 5 5 = true := by
    clear hB b0 b1 b2
    rw [zeroAt_head _ _ _ _ _ _ (by decide)]
    simp only [zeroAt, encBody, encVBody, SizeType.code, beq_iff_eq]
    omega
  have b4 : zeroAt (encHead false s op + (encVBody d.toNat a.toNat 0 k.toNat 0)) 0 2 = true := by
    clear hB b0 b1 b2 b3
    rw [zeroAt_head _ _ _ _ _ _ (by decide)]
    simp only [zeroAt, encBody, encVBody, SizeType.code, beq_iff_eq]
    omega
  refine encodes_short he ho hB fun _ y => ?_
  rw [hd _ _ (opField_head _ _ ho hB)]
  simp only [decVS, show ((3#2 : BitVec 2) == 3) = true from rfl, show ((0#6 : BitVec 6) == 0) = true from rfl, withScope_code, AmoOp.ofCode_code, shortOnly, longOnly, need, xBit_head _ _ ho hB, fS_head _ _ ho hB, fD, fA, fB, fT, fMode, fM, fImm, fDisp, fSizeType, Bool.not_false, Bool.not_true, Bool.true_or, Bool.false_or, Bool.or_true, Bool.and_true, Bool.true_and, if_true, if_false, Bool.false_eq_true, beq_self_eq_true, b0, b1, b2, b3, b4]

theorem fmtMma {op : Nat} (ho : op < 256) {k : Stall → Reg → Reg → Reg → Bool → Bool → Bool → Bool → Bool → Instr}
    (hd : ∀ w y, opField w = op → decodeOp w y = decMma w y k) (s : Stall) (a : Reg) (b : Reg) (q : Reg) (set : Bool) (ia : Bool) (ib : Bool) (sk : Bool) (te : Bool)
    (he : (k s a b q set ia ib sk te).encode = encMma s op a b q set ia ib sk te) : Encodes (k s a b q set ia ib sk te) := by
  have := a.isLt
  have := b.isLt
  have := q.isLt
  have := Bool.toNat_lt set
  have := Bool.toNat_lt ia
  have := Bool.toNat_lt ib
  have := Bool.toNat_lt sk
  have := Bool.toNat_lt te
  have hE : (q.toNat * 2 ^ 26 + set.toNat * 2 ^ 25 + te.toNat * 8 + sk.toNat * 4 + ib.toNat * 2 + ia.toNat) < 2 ^ 32 := by
    try simp only [encBC, VExt.word, Nat.reducePow]
    omega
  have e0 : fld (q.toNat * 2 ^ 26 + set.toNat * 2 ^ 25 + te.toNat * 8 + sk.toNat * 4 + ib.toNat * 2 + ia.toNat) 26 6 = q := by
    clear hE
    apply BitVec.eq_of_toNat_eq
    simp only [fld, encBC, VExt.word, Nat.reducePow, BitVec.toNat_ofNat]
    omega
  have e1 : bitAt (q.toNat * 2 ^ 26 + set.toNat * 2 ^ 25 + te.toNat * 8 + sk.toNat * 4 + ib.toNat * 2 + ia.toNat) 25 = set := by
    clear hE e0
    have h : (q.toNat * 2 ^ 26 + set.toNat * 2 ^ 25 + te.toNat * 8 + sk.toNat * 4 + ib.toNat * 2 + ia.toNat) / 2 ^ 25 % 2 = Bool.toNat set := by
      try simp only [encBC, VExt.word, Nat.reducePow]
      omega
    rw [bitAt, h]
    cases set <;> rfl
  have e2 : bitAt (q.toNat * 2 ^ 26 + set.toNat * 2 ^ 25 + te.toNat * 8 + sk.toNat * 4 + ib.toNat * 2 + ia.toNat) 0 = ia := by
    clear hE e0 e1
    have h : (q.toNat * 2 ^ 26 + set.toNat * 2 ^ 25 + te.toNat * 8 + sk.toNat * 4 + ib.toNat * 2 + ia.toNat) / 2 ^ 0 % 2 = Bool.toNat ia := by
      try simp only [encBC, VExt.word, Nat.reducePow]
      omega
    rw [bitAt, h]
    cases ia <;> rfl
  have e3 : bitAt (q.toNat * 2 ^ 26 + set.toNat * 2 ^ 25 + te.toNat * 8 + sk.toNat * 4 + ib.toNat * 2 + ia.toNat) 1 = ib := by
    clear hE e0 e1 e2
    have h : (q.toNat * 2 ^ 26 + set.toNat * 2 ^ 25 + te.toNat * 8 + sk.toNat * 4 + ib.toNat * 2 + ia.toNat) / 2 ^ 1 % 2 = Bool.toNat ib := by
      try simp only [encBC, VExt.word, Nat.reducePow]
      omega
    rw [bitAt, h]
    cases ib <;> rfl
  have e4 : bitAt (q.toNat * 2 ^ 26 + set.toNat * 2 ^ 25 + te.toNat * 8 + sk.toNat * 4 + ib.toNat * 2 + ia.toNat) 2 = sk := by
    clear hE e0 e1 e2 e3
    have h : (q.toNat * 2 ^ 26 + set.toNat * 2 ^ 25 + te.toNat * 8 + sk.toNat * 4 + ib.toNat * 2 + ia.toNat) / 2 ^ 2 % 2 = Bool.toNat sk := by
      try simp only [encBC, VExt.word, Nat.reducePow]
      omega
    rw [bitAt, h]
    cases sk <;> rfl
  have e5 : bitAt (q.toNat * 2 ^ 26 + set.toNat * 2 ^ 25 + te.toNat * 8 + sk.toNat * 4 + ib.toNat * 2 + ia.toNat) 3 = te := by
    clear hE e0 e1 e2 e3 e4
    have h : (q.toNat * 2 ^ 26 + set.toNat * 2 ^ 25 + te.toNat * 8 + sk.toNat * 4 + ib.toNat * 2 + ia.toNat) / 2 ^ 3 % 2 = Bool.toNat te := by
      try simp only [encBC, VExt.word, Nat.reducePow]
      omega
    rw [bitAt, h]
    cases te <;> rfl
  have e6 : zeroAt (q.toNat * 2 ^ 26 + set.toNat * 2 ^ 25 + te.toNat * 8 + sk.toNat * 4 + ib.toNat * 2 + ia.toNat) 4 21 = true := by
    clear hE e0 e1 e2 e3 e4 e5
    simp only [zeroAt, encBC, VExt.word, Nat.reducePow, beq_iff_eq]
    first | omega | rfl
  have hB : (encBody 0 a.toNat b.toNat 0) < 2 ^ 20 := by
    clear hE e0 e1 e2 e3 e4 e5 e6
    first
    | decide
    | (try simp only [encBody, encVBody, SizeType.code]
       omega)
  have b0 : fld (encHead true s op + (encBody 0 a.toNat b.toNat 0)) 8 6 = a := by
    clear hE e0 e1 e2 e3 e4 e5 e6 hB
    rw [fld_head _ _ _ _ _ _ (by decide)]
    apply BitVec.eq_of_toNat_eq
    simp only [fld, encBody, encVBody, SizeType.code, BitVec.toNat_ofNat]
    omega
  have b1 : fld (encHead true s op + (encBody 0 a.toNat b.toNat 0)) 2 6 = b := by
    clear hE e0 e1 e2 e3 e4 e5 e6 hB b0
    rw [fld_head _ _ _ _ _ _ (by decide)]
    apply BitVec.eq_of_toNat_eq
    simp only [fld, encBody, encVBody, SizeType.code, BitVec.toNat_ofNat]
    omega
  have b2 : zeroAt (encHead true s op + (encBody 0 a.toNat b.toNat 0)) 14 6 = true := by
    clear hE e0 e1 e2 e3 e4 e5 e6 hB b0 b1
    rw [zeroAt_head _ _ _ _ _ _ (by decide)]
    simp only [zeroAt, encBody, encVBody, SizeType.code, beq_iff_eq]
    omega
  have b3 : zeroAt (encHead true s op + (encBody 0 a.toNat b.toNat 0)) 0 2 = true := by
    clear hE e0 e1 e2 e3 e4 e5 e6 hB b0 b1 b2
    rw [zeroAt_head _ _ _ _ _ _ (by decide)]
    simp only [zeroAt, encBody, encVBody, SizeType.code, beq_iff_eq]
    omega
  refine encodes_long he ho hB hE fun _ => ?_
  rw [hd _ _ (opField_head _ _ ho hB)]
  simp only [decMma, show ((3#2 : BitVec 2) == 3) = true from rfl, show ((0#6 : BitVec 6) == 0) = true from rfl, withScope_code, AmoOp.ofCode_code, shortOnly, longOnly, need, xBit_head _ _ ho hB, fS_head _ _ ho hB, fD, fA, fB, fT, fMode, fM, fImm, fDisp, fSizeType, Bool.not_false, Bool.not_true, Bool.true_or, Bool.false_or, Bool.or_true, Bool.and_true, Bool.true_and, if_true, if_false, Bool.false_eq_true, beq_self_eq_true, e0, e1, e2, e3, e4, e5, e6, b0, b1, b2, b3]

theorem fmtYS {op sub : Nat} (ho : op < 256) {k : Stall → Reg → Reg → Instr}
    (hd : ∀ w y, opField w = op → (fD w).toNat = sub → decodeOp w y = decYS w k) (s : Stall) (d : Reg) (a : Reg) (hs : sub < 64)
    (he : (k s d a).encode = encA s op sub d.toNat a.toNat 0) : Encodes (k s d a) := by
  have := d.isLt
  have := a.isLt
  have hB : (encBody sub d.toNat a.toNat 0) < 2 ^ 20 := by
    first
    | decide
    | (try simp only [encBody, encVBody, SizeType.code]
       omega)
  have b0 : fld (encHead false s op + (encBody sub d.toNat a.toNat 0)) 8 6 = d := by
    clear hB
    rw [fld_head _ _ _ _ _ _ (by decide)]
    apply BitVec.eq_of_toNat_eq
    simp only [fld, encBody, encVBody, SizeType.code, BitVec.toNat_ofNat]
    omega
  have b1 : fld (encHead false s op + (encBody sub d.toNat a.toNat 0)) 2 6 = a := by
    clear hB b0
    rw [fld_head _ _ _ _ _ _ (by decide)]
    apply BitVec.eq_of_toNat_eq
    simp only [fld, encBody, encVBody, SizeType.code, BitVec.toNat_ofNat]
    omega
  have b2 : zeroAt (encHead false s op + (encBody sub d.toNat a.toNat 0)) 0 2 = true := by
    clear hB b0 b1
    rw [zeroAt_head _ _ _ _ _ _ (by decide)]
    simp only [zeroAt, encBody, encVBody, SizeType.code, beq_iff_eq]
    omega
  have hsub : (fD (encHead false s op + (encBody sub d.toNat a.toNat 0))).toNat = sub := by
    rw [fD, fld_head _ _ _ _ _ _ (by decide)]
    simp only [fld, encBody, BitVec.toNat_ofNat]
    omega
  refine encodes_short he ho hB fun _ y => ?_
  rw [hd _ _ (opField_head _ _ ho hB) hsub]
  simp only [decYS, show ((3#2 : BitVec 2) == 3) = true from rfl, show ((0#6 : BitVec 6) == 0) = true from rfl, withScope_code, AmoOp.ofCode_code, shortOnly, longOnly, need, xBit_head _ _ ho hB, fS_head _ _ ho hB, fD, fA, fB, fT, fMode, fM, fImm, fDisp, fSizeType, Bool.not_false, Bool.not_true, Bool.true_or, Bool.false_or, Bool.or_true, Bool.and_true, Bool.true_and, if_true, if_false, Bool.false_eq_true, beq_self_eq_true, b0, b1, b2]

theorem fmtYSa {op sub : Nat} (ho : op < 256) {k : Stall → Reg → Instr}
    (hd : ∀ w y, opField w = op → (fD w).toNat = sub → decodeOp w y = decYSa w k) (s : Stall) (a : Reg) (hs : sub < 64)
    (he : (k s a).encode = encA s op sub 0 a.toNat 0) : Encodes (k s a) := by
  have := a.isLt
  have hB : (encBody sub 0 a.toNat 0) < 2 ^ 20 := by
    first
    | decide
    | (try simp only [encBody, encVBody, SizeType.code]
       omega)
  have b0 : zeroAt (encHead false s op + (encBody sub 0 a.toNat 0)) 8 6 = true := by
    clear hB
    rw [zeroAt_head _ _ _ _ _ _ (by decide)]
    simp only [zeroAt, encBody, encVBody, SizeType.code, beq_iff_eq]
    omega
  have b1 : fld (encHead false s op + (encBody sub 0 a.toNat 0)) 2 6 = a := by
    clear hB b0
    rw [fld_head _ _ _ _ _ _ (by decide)]
    apply BitVec.eq_of_toNat_eq
    simp only [fld, encBody, encVBody, SizeType.code, BitVec.toNat_ofNat]
    omega
  have b2 : zeroAt (encHead false s op + (encBody sub 0 a.toNat 0)) 0 2 = true := by
    clear hB b0 b1
    rw [zeroAt_head _ _ _ _ _ _ (by decide)]
    simp only [zeroAt, encBody, encVBody, SizeType.code, beq_iff_eq]
    omega
  have hsub : (fD (encHead false s op + (encBody sub 0 a.toNat 0))).toNat = sub := by
    rw [fD, fld_head _ _ _ _ _ _ (by decide)]
    simp only [fld, encBody, BitVec.toNat_ofNat]
    omega
  refine encodes_short he ho hB fun _ y => ?_
  rw [hd _ _ (opField_head _ _ ho hB) hsub]
  simp only [decYSa, show ((3#2 : BitVec 2) == 3) = true from rfl, show ((0#6 : BitVec 6) == 0) = true from rfl, withScope_code, AmoOp.ofCode_code, shortOnly, longOnly, need, xBit_head _ _ ho hB, fS_head _ _ ho hB, fD, fA, fB, fT, fMode, fM, fImm, fDisp, fSizeType, Bool.not_false, Bool.not_true, Bool.true_or, Bool.false_or, Bool.or_true, Bool.and_true, Bool.true_and, if_true, if_false, Bool.false_eq_true, beq_self_eq_true, b0, b1, b2]

theorem fmtYL2 {op sub : Nat} (ho : op < 256) {k : Stall → Reg → Reg → Reg → Instr}
    (hd : ∀ w y, opField w = op → (fD w).toNat = sub → decodeOp w y = decYL2 w y k) (s : Stall) (d : Reg) (a : Reg) (b : Reg) (hs : sub < 64)
    (he : (k s d a b).encode = encAL s op sub d.toNat a.toNat 0 (encBC b 0)) : Encodes (k s d a b) := by
  have := d.isLt
  have := a.isLt
  have := b.isLt
  have hE : (b.toNat * 2 ^ 26) < 2 ^ 32 := by
    try simp only [encBC, VExt.word, Nat.reducePow]
    omega
  have e0 : fld (b.toNat * 2 ^ 26) 26 6 = b := by
    clear hE
    apply BitVec.eq_of_toNat_eq
    simp only [fld, encBC, VExt.word, Nat.reducePow, BitVec.toNat_ofNat]
    omega
  have e1 : zeroAt (b.toNat * 2 ^ 26) 0 26 = true := by
    clear hE e0
    simp only [zeroAt, encBC, VExt.word, Nat.reducePow, beq_iff_eq]
    first | omega | rfl
  have hB : (encBody sub d.toNat a.toNat 0) < 2 ^ 20 := by
    clear hE e0 e1
    first
    | decide
    | (try simp only [encBody, encVBody, SizeType.code]
       omega)
  have b0 : fld (encHead true s op + (encBody sub d.toNat a.toNat 0)) 8 6 = d := by
    clear hE e0 e1 hB
    rw [fld_head _ _ _ _ _ _ (by decide)]
    apply BitVec.eq_of_toNat_eq
    simp only [fld, encBody, encVBody, SizeType.code, BitVec.toNat_ofNat]
    omega
  have b1 : fld (encHead true s op + (encBody sub d.toNat a.toNat 0)) 2 6 = a := by
    clear hE e0 e1 hB b0
    rw [fld_head _ _ _ _ _ _ (by decide)]
    apply BitVec.eq_of_toNat_eq
    simp only [fld, encBody, encVBody, SizeType.code, BitVec.toNat_ofNat]
    omega
  have b2 : zeroAt (encHead true s op + (encBody sub d.toNat a.toNat 0)) 0 2 = true := by
    clear hE e0 e1 hB b0 b1
    rw [zeroAt_head _ _ _ _ _ _ (by decide)]
    simp only [zeroAt, encBody, encVBody, SizeType.code, beq_iff_eq]
    omega
  have hsub : (fD (encHead true s op + (encBody sub d.toNat a.toNat 0))).toNat = sub := by
    rw [fD, fld_head _ _ _ _ _ _ (by decide)]
    simp only [fld, encBody, BitVec.toNat_ofNat]
    omega
  have he2 : (k s d a b).encode = some (encHead true s op + (encBody sub d.toNat a.toNat 0), some (b.toNat * 2 ^ 26)) := by
    rw [he]
    simp only [encAL, encBC0]
  refine encodes_long he2 ho hB hE fun _ => ?_
  rw [hd _ _ (opField_head _ _ ho hB) hsub]
  simp only [decYL2, show ((3#2 : BitVec 2) == 3) = true from rfl, show ((0#6 : BitVec 6) == 0) = true from rfl, withScope_code, AmoOp.ofCode_code, shortOnly, longOnly, need, xBit_head _ _ ho hB, fS_head _ _ ho hB, fD, fA, fB, fT, fMode, fM, fImm, fDisp, fSizeType, Bool.not_false, Bool.not_true, Bool.true_or, Bool.false_or, Bool.or_true, Bool.and_true, Bool.true_and, if_true, if_false, Bool.false_eq_true, beq_self_eq_true, e0, e1, b0, b1, b2]

theorem fmtYL3 {op sub : Nat} (ho : op < 256) {k : Stall → Reg → Reg → Reg → Reg → Instr}
    (hd : ∀ w y, opField w = op → (fD w).toNat = sub → decodeOp w y = decYL3 w y k) (s : Stall) (d : Reg) (a : Reg) (b : Reg) (c : Reg) (hs : sub < 64)
    (he : (k s d a b c).encode = encAL s op sub d.toNat a.toNat 0 (encBC b c)) : Encodes (k s d a b c) := by
  have := d.isLt
  have := a.isLt
  have := b.isLt
  have := c.isLt
  have hE : (encBC b c) < 2 ^ 32 := by
    try simp only [encBC, VExt.word, Nat.reducePow]
    omega
  have e0 : fld (encBC b c) 26 6 = b := by
    clear hE
    apply BitVec.eq_of_toNat_eq
    simp only [fld, encBC, VExt.word, Nat.reducePow, BitVec.toNat_ofNat]
    omega
  have e1 : fld (encBC b c) 20 6 = c := by
    clear hE e0
    apply BitVec.eq_of_toNat_eq
    simp only [fld, encBC, VExt.word, Nat.reducePow, BitVec.toNat_ofNat]
    omega
  have e2 : zeroAt (encBC b c) 0 20 = true := by
    clear hE e0 e1
    simp only [zeroAt, encBC, VExt.word, Nat.reducePow, beq_iff_eq]
    first | omega | rfl
  have hB : (encBody sub d.toNat a.toNat 0) < 2 ^ 20 := by
    clear hE e0 e1 e2
    first
    | decide
    | (try simp only [encBody, encVBody, SizeType.code]
       omega)
  have b0 : fld (encHead true s op + (encBody sub d.toNat a.toNat 0)) 8 6 = d := by
    clear hE e0 e1 e2 hB
    rw [fld_head _ _ _ _ _ _ (by decide)]
    apply BitVec.eq_of_toNat_eq
    simp only [fld, encBody, encVBody, SizeType.code, BitVec.toNat_ofNat]
    omega
  have b1 : fld (encHead true s op + (encBody sub d.toNat a.toNat 0)) 2 6 = a := by
    clear hE e0 e1 e2 hB b0
    rw [fld_head _ _ _ _ _ _ (by decide)]
    apply BitVec.eq_of_toNat_eq
    simp only [fld, encBody, encVBody, SizeType.code, BitVec.toNat_ofNat]
    omega
  have b2 : zeroAt (encHead true s op + (encBody sub d.toNat a.toNat 0)) 0 2 = true := by
    clear hE e0 e1 e2 hB b0 b1
    rw [zeroAt_head _ _ _ _ _ _ (by decide)]
    simp only [zeroAt, encBody, encVBody, SizeType.code, beq_iff_eq]
    omega
  have hsub : (fD (encHead true s op + (encBody sub d.toNat a.toNat 0))).toNat = sub := by
    rw [fD, fld_head _ _ _ _ _ _ (by decide)]
    simp only [fld, encBody, BitVec.toNat_ofNat]
    omega
  refine encodes_long he ho hB hE fun _ => ?_
  rw [hd _ _ (opField_head _ _ ho hB) hsub]
  simp only [decYL3, show ((3#2 : BitVec 2) == 3) = true from rfl, show ((0#6 : BitVec 6) == 0) = true from rfl, withScope_code, AmoOp.ofCode_code, shortOnly, longOnly, need, xBit_head _ _ ho hB, fS_head _ _ ho hB, fD, fA, fB, fT, fMode, fM, fImm, fDisp, fSizeType, Bool.not_false, Bool.not_true, Bool.true_or, Bool.false_or, Bool.or_true, Bool.and_true, Bool.true_and, if_true, if_false, Bool.false_eq_true, beq_self_eq_true, e0, e1, e2, b0, b1, b2]

/-! ### Instructions with a layout of their own -/

theorem fmtAddi {op : Nat} (ho : op < 256) 
    (hd : ∀ w y, opField w = op → decodeOp w y = (if xBit w then decIL w y fun s d a i => .ok (.addiLong s d a i) else .ok (.addi (fS w) (fD w) (fA w) (fld w 0 8)))) (s : Stall) (d : Reg) (a : Reg) (v : BitVec 8)
    (he : (Instr.addi s d a v).encode = encI s op d.toNat a.toNat (.short v)) : Encodes (Instr.addi s d a v) := by
  have := d.isLt
  have := a.isLt
  have := v.isLt
  have hB : (d.toNat * 2 ^ 14 + a.toNat * 2 ^ 8 + v.toNat) < 2 ^ 20 := by
    first
    | decide
    | (try simp only [encBody, encVBody, SizeType.code]
       omega)
  have b0 : fld (encHead false s op + (d.toNat * 2 ^ 14 + a.toNat * 2 ^ 8 + v.toNat)) 14 6 = d := by
    clear hB
    rw [fld_head _ _ _ _ _ _ (by decide)]
    apply BitVec.eq_of_toNat_eq
    simp only [fld, encBody, encVBody, SizeType.code, BitVec.toNat_ofNat]
    omega
  have b1 : fld (encHead false s op + (d.toNat * 2 ^ 14 + a.toNat * 2 ^ 8 + v.toNat)) 8 6 = a := by
    clear hB b0
    rw [fld_head _ _ _ _ _ _ (by decide)]
    apply BitVec.eq_of_toNat_eq
    simp only [fld, encBody, encVBody, SizeType.code, BitVec.toNat_ofNat]
    omega
  have b2 : fld (encHead false s op + (d.toNat * 2 ^ 14 + a.toNat * 2 ^ 8 + v.toNat)) 0 8 = v := by
    clear hB b0 b1
    rw [fld_head _ _ _ _ _ _ (by decide)]
    apply BitVec.eq_of_toNat_eq
    simp only [fld, encBody, encVBody, SizeType.code, BitVec.toNat_ofNat]
    omega
  have he2 : (Instr.addi s d a v).encode = some (encHead false s op + (d.toNat * 2 ^ 14 + a.toNat * 2 ^ 8 + v.toNat), none) := by
    rw [he]
    try simp only [encI, SizeType.code, Nat.add_assoc]
  refine encodes_short he2 ho hB fun _ y => ?_
  rw [hd _ _ (opField_head _ _ ho hB)]
  simp only [decIL, show ((3#2 : BitVec 2) == 3) = true from rfl, show ((0#6 : BitVec 6) == 0) = true from rfl, withScope_code, AmoOp.ofCode_code, shortOnly, longOnly, need, xBit_head _ _ ho hB, fS_head _ _ ho hB, fD, fA, fB, fT, fMode, fM, fImm, fDisp, fSizeType, Bool.not_false, Bool.not_true, Bool.true_or, Bool.false_or, Bool.or_true, Bool.and_true, Bool.true_and, if_true, if_false, Bool.false_eq_true, beq_self_eq_true, b0, b1, b2]

theorem fmtAddiLong {op : Nat} (ho : op < 256) 
    (hd : ∀ w y, opField w = op → decodeOp w y = (if xBit w then decIL w y fun s d a i => .ok (.addiLong s d a i) else .ok (.addi (fS w) (fD w) (fA w) (fld w 0 8)))) (s : Stall) (d : Reg) (a : Reg) (v : BitVec 32)
    (he : (Instr.addiLong s d a v).encode = encI s op d.toNat a.toNat (.long v)) : Encodes (Instr.addiLong s d a v) := by
  have := d.isLt
  have := a.isLt
  have := v.isLt
  have hE : (v.toNat) < 2 ^ 32 := by
    try simp only [encBC, VExt.word, Nat.reducePow]
    omega
  have e0 : fld (v.toNat) 0 32 = v := by
    clear hE
    apply BitVec.eq_of_toNat_eq
    simp only [fld, encBC, VExt.word, Nat.reducePow, BitVec.toNat_ofNat]
    omega
  have hB : (d.toNat * 2 ^ 14 + a.toNat * 2 ^ 8) < 2 ^ 20 := by
    clear hE e0
    first
    | decide
    | (try simp only [encBody, encVBody, SizeType.code]
       omega)
  have b0 : fld (encHead true s op + (d.toNat * 2 ^ 14 + a.toNat * 2 ^ 8)) 14 6 = d := by
    clear hE e0 hB
    rw [fld_head _ _ _ _ _ _ (by decide)]
    apply BitVec.eq_of_toNat_eq
    simp only [fld, encBody, encVBody, SizeType.code, BitVec.toNat_ofNat]
    omega
  have b1 : fld (encHead true s op + (d.toNat * 2 ^ 14 + a.toNat * 2 ^ 8)) 8 6 = a := by
    clear hE e0 hB b0
    rw [fld_head _ _ _ _ _ _ (by decide)]
    apply BitVec.eq_of_toNat_eq
    simp only [fld, encBody, encVBody, SizeType.code, BitVec.toNat_ofNat]
    omega
  have b2 : zeroAt (encHead true s op + (d.toNat * 2 ^ 14 + a.toNat * 2 ^ 8)) 0 8 = true := by
    clear hE e0 hB b0 b1
    rw [zeroAt_head _ _ _ _ _ _ (by decide)]
    simp only [zeroAt, encBody, encVBody, SizeType.code, beq_iff_eq]
    omega
  have he2 : (Instr.addiLong s d a v).encode = some (encHead true s op + (d.toNat * 2 ^ 14 + a.toNat * 2 ^ 8), some (v.toNat)) := by
    rw [he]
    try simp only [encI, SizeType.code, Nat.add_assoc]
  refine encodes_long he2 ho hB hE fun _ => ?_
  rw [hd _ _ (opField_head _ _ ho hB)]
  simp only [decIL, show ((3#2 : BitVec 2) == 3) = true from rfl, show ((0#6 : BitVec 6) == 0) = true from rfl, withScope_code, AmoOp.ofCode_code, shortOnly, longOnly, need, xBit_head _ _ ho hB, fS_head _ _ ho hB, fD, fA, fB, fT, fMode, fM, fImm, fDisp, fSizeType, Bool.not_false, Bool.not_true, Bool.true_or, Bool.false_or, Bool.or_true, Bool.and_true, Bool.true_and, if_true, if_false, Bool.false_eq_true, beq_self_eq_true, e0, b0, b1, b2]

theorem fmtMovi {op : Nat} (ho : op < 256) 
    (hd : ∀ w y, opField w = op → decodeOp w y = (decIL w y fun s d a i => need (a == 0) .reserved (.ok (.movi s d i)))) (s : Stall) (d : Reg) (v : BitVec 32)
    (he : (Instr.movi s d v).encode = encI s op d.toNat 0 (.long v)) : Encodes (Instr.movi s d v) := by
  have := d.isLt
  have := v.isLt
  have hE : (v.toNat) < 2 ^ 32 := by
    try simp only [encBC, VExt.word, Nat.reducePow]
    omega
  have e0 : fld (v.toNat) 0 32 = v := by
    clear hE
    apply BitVec.eq_of_toNat_eq
    simp only [fld, encBC, VExt.word, Nat.reducePow, BitVec.toNat_ofNat]
    omega
  have hB : (d.toNat * 2 ^ 14 + 0 * 2 ^ 8) < 2 ^ 20 := by
    clear hE e0
    first
    | decide
    | (try simp only [encBody, encVBody, SizeType.code]
       omega)
  have b0 : fld (encHead true s op + (d.toNat * 2 ^ 14 + 0 * 2 ^ 8)) 14 6 = d := by
    clear hE e0 hB
    rw [fld_head _ _ _ _ _ _ (by decide)]
    apply BitVec.eq_of_toNat_eq
    simp only [fld, encBody, encVBody, SizeType.code, BitVec.toNat_ofNat]
    omega
  have b1 : fld (encHead true s op + (d.toNat * 2 ^ 14 + 0 * 2 ^ 8)) 8 6 = 0#6 := by
    clear hE e0 hB b0
    rw [fld_head _ _ _ _ _ _ (by decide)]
    apply BitVec.eq_of_toNat_eq
    simp only [fld, encBody, encVBody, SizeType.code, BitVec.toNat_ofNat]
    omega
  have b2 : zeroAt (encHead true s op + (d.toNat * 2 ^ 14 + 0 * 2 ^ 8)) 0 8 = true := by
    clear hE e0 hB b0 b1
    rw [zeroAt_head _ _ _ _ _ _ (by decide)]
    simp only [zeroAt, encBody, encVBody, SizeType.code, beq_iff_eq]
    omega
  have he2 : (Instr.movi s d v).encode = some (encHead true s op + (d.toNat * 2 ^ 14 + 0 * 2 ^ 8), some (v.toNat)) := by
    rw [he]
    try simp only [encI, SizeType.code, Nat.add_assoc]
  refine encodes_long he2 ho hB hE fun _ => ?_
  rw [hd _ _ (opField_head _ _ ho hB)]
  simp only [decIL, show ((3#2 : BitVec 2) == 3) = true from rfl, show ((0#6 : BitVec 6) == 0) = true from rfl, withScope_code, AmoOp.ofCode_code, shortOnly, longOnly, need, xBit_head _ _ ho hB, fS_head _ _ ho hB, fD, fA, fB, fT, fMode, fM, fImm, fDisp, fSizeType, Bool.not_false, Bool.not_true, Bool.true_or, Bool.false_or, Bool.or_true, Bool.and_true, Bool.true_and, if_true, if_false, Bool.false_eq_true, beq_self_eq_true, e0, b0, b1, b2]

theorem fmtLeam {op : Nat} (ho : op < 256) 
    (hd : ∀ w y, opField w = op → decodeOp w y = (decIL w y fun s d a _ => .ok (.leam s d a (fld y 15 17) (fld y 0 15)))) (s : Stall) (d : Reg) (a : Reg) (mf : BitVec 17) (off : BitVec 15)
    (he : (Instr.leam s d a mf off).encode = encAL s op d.toNat a.toNat 0 0 (mf.toNat * 2 ^ 15 + off.toNat)) : Encodes (Instr.leam s d a mf off) := by
  have := d.isLt
  have := a.isLt
  have := mf.isLt
  have := off.isLt
  have hE : (mf.toNat * 2 ^ 15 + off.toNat) < 2 ^ 32 := by
    try simp only [encBC, VExt.word, Nat.reducePow]
    omega
  have e0 : fld (mf.toNat * 2 ^ 15 + off.toNat) 15 17 = mf := by
    clear hE
    apply BitVec.eq_of_toNat_eq
    simp only [fld, encBC, VExt.word, Nat.reducePow, BitVec.toNat_ofNat]
    omega
  have e1 : fld (mf.toNat * 2 ^ 15 + off.toNat) 0 15 = off := by
    clear hE e0
    apply BitVec.eq_of_toNat_eq
    simp only [fld, encBC, VExt.word, Nat.reducePow, BitVec.toNat_ofNat]
    omega
  have hB : (encBody d.toNat a.toNat 0 0) < 2 ^ 20 := by
    clear hE e0 e1
    first
    | decide
    | (try simp only [encBody, encVBody, SizeType.code]
       omega)
  have b0 : fld (encHead true s op + (encBody d.toNat a.toNat 0 0)) 14 6 = d := by
    clear hE e0 e1 hB
    rw [fld_head _ _ _ _ _ _ (by decide)]
    apply BitVec.eq_of_toNat_eq
    simp only [fld, encBody, encVBody, SizeType.code, BitVec.toNat_ofNat]
    omega
  have b1 : fld (encHead true s op + (encBody d.toNat a.toNat 0 0)) 8 6 = a := by
    clear hE e0 e1 hB b0
    rw [fld_head _ _ _ _ _ _ (by decide)]
    apply BitVec.eq_of_toNat_eq
    simp only [fld, encBody, encVBody, SizeType.code, BitVec.toNat_ofNat]
    omega
  have b2 : zeroAt (encHead true s op + (encBody d.toNat a.toNat 0 0)) 0 8 = true := by
    clear hE e0 e1 hB b0 b1
    rw [zeroAt_head _ _ _ _ _ _ (by decide)]
    simp only [zeroAt, encBody, encVBody, SizeType.code, beq_iff_eq]
    omega
  have he2 : (Instr.leam s d a mf off).encode = some (encHead true s op + (encBody d.toNat a.toNat 0 0), some (mf.toNat * 2 ^ 15 + off.toNat)) := by
    rw [he]
    rfl
  refine encodes_long he2 ho hB hE fun _ => ?_
  rw [hd _ _ (opField_head _ _ ho hB)]
  simp only [decIL, show ((3#2 : BitVec 2) == 3) = true from rfl, show ((0#6 : BitVec 6) == 0) = true from rfl, withScope_code, AmoOp.ofCode_code, shortOnly, longOnly, need, xBit_head _ _ ho hB, fS_head _ _ ho hB, fD, fA, fB, fT, fMode, fM, fImm, fDisp, fSizeType, Bool.not_false, Bool.not_true, Bool.true_or, Bool.false_or, Bool.or_true, Bool.and_true, Bool.true_and, if_true, if_false, Bool.false_eq_true, beq_self_eq_true, e0, e1, b0, b1, b2]

theorem fmtFcvt {op : Nat} (ho : op < 256) 
    (hd : ∀ w y, opField w = op → decodeOp w y = (shortOnly w (need (zeroAt w 2 1) .reserved (.ok (.fcvt (fS w) (fD w) (fA w) (fld w 4 4) (bitAt w 3) (fld w 0 2)))))) (s : Stall) (d : Reg) (a : Reg) (pair : BitVec 4) (sat : Bool) (rm : BitVec 2)
    (he : (Instr.fcvt s d a pair sat rm).encode = some (encHead false s op + d.toNat * 2 ^ 14 + a.toNat * 2 ^ 8 + pair.toNat * 2 ^ 4 + sat.toNat * 2 ^ 3 + rm.toNat, none)) : Encodes (Instr.fcvt s d a pair sat rm) := by
  have := d.isLt
  have := a.isLt
  have := pair.isLt
  have := Bool.toNat_lt sat
  have := rm.isLt
  have hB : (d.toNat * 2 ^ 14 + a.toNat * 2 ^ 8 + pair.toNat * 2 ^ 4 + sat.toNat * 2 ^ 3 + rm.toNat) < 2 ^ 20 := by
    first
    | decide
    | (try simp only [encBody, encVBody, SizeType.code]
       omega)
  have b0 : fld (encHead false s op + (d.toNat * 2 ^ 14 + a.toNat * 2 ^ 8 + pair.toNat * 2 ^ 4 + sat.toNat * 2 ^ 3 + rm.toNat)) 14 6 = d := by
    clear hB
    rw [fld_head _ _ _ _ _ _ (by decide)]
    apply BitVec.eq_of_toNat_eq
    simp only [fld, encBody, encVBody, SizeType.code, BitVec.toNat_ofNat]
    omega
  have b1 : fld (encHead false s op + (d.toNat * 2 ^ 14 + a.toNat * 2 ^ 8 + pair.toNat * 2 ^ 4 + sat.toNat * 2 ^ 3 + rm.toNat)) 8 6 = a := by
    clear hB b0
    rw [fld_head _ _ _ _ _ _ (by decide)]
    apply BitVec.eq_of_toNat_eq
    simp only [fld, encBody, encVBody, SizeType.code, BitVec.toNat_ofNat]
    omega
  have b2 : fld (encHead false s op + (d.toNat * 2 ^ 14 + a.toNat * 2 ^ 8 + pair.toNat * 2 ^ 4 + sat.toNat * 2 ^ 3 + rm.toNat)) 4 4 = pair := by
    clear hB b0 b1
    rw [fld_head _ _ _ _ _ _ (by decide)]
    apply BitVec.eq_of_toNat_eq
    simp only [fld, encBody, encVBody, SizeType.code, BitVec.toNat_ofNat]
    omega
  have b3 : bitAt (encHead false s op + (d.toNat * 2 ^ 14 + a.toNat * 2 ^ 8 + pair.toNat * 2 ^ 4 + sat.toNat * 2 ^ 3 + rm.toNat)) 3 = sat := by
    clear hB b0 b1 b2
    rw [bitAt_head _ _ _ _ _ (by decide)]
    have h : (d.toNat * 2 ^ 14 + a.toNat * 2 ^ 8 + pair.toNat * 2 ^ 4 + sat.toNat * 2 ^ 3 + rm.toNat) / 2 ^ 3 % 2 = Bool.toNat sat := by
      simp only [encBody, encVBody, SizeType.code, Nat.reducePow]
      omega
    rw [bitAt, h]
    cases sat <;> rfl
  have b4 : fld (encHead false s op + (d.toNat * 2 ^ 14 + a.toNat * 2 ^ 8 + pair.toNat * 2 ^ 4 + sat.toNat * 2 ^ 3 + rm.toNat)) 0 2 = rm := by
    clear hB b0 b1 b2 b3
    rw [fld_head _ _ _ _ _ _ (by decide)]
    apply BitVec.eq_of_toNat_eq
    simp only [fld, encBody, encVBody, SizeType.code, BitVec.toNat_ofNat]
    omega
  have b5 : zeroAt (encHead false s op + (d.toNat * 2 ^ 14 + a.toNat * 2 ^ 8 + pair.toNat * 2 ^ 4 + sat.toNat * 2 ^ 3 + rm.toNat)) 2 1 = true := by
    clear hB b0 b1 b2 b3 b4
    rw [zeroAt_head _ _ _ _ _ _ (by decide)]
    simp only [zeroAt, encBody, encVBody, SizeType.code, beq_iff_eq]
    omega
  have he2 : (Instr.fcvt s d a pair sat rm).encode = some (encHead false s op + (d.toNat * 2 ^ 14 + a.toNat * 2 ^ 8 + pair.toNat * 2 ^ 4 + sat.toNat * 2 ^ 3 + rm.toNat), none) := by
    rw [he]
    try simp only [SizeType.code, SizeType.code, Nat.add_assoc]
  refine encodes_short he2 ho hB fun _ y => ?_
  rw [hd _ _ (opField_head _ _ ho hB)]
  simp only [shortOnly, show ((3#2 : BitVec 2) == 3) = true from rfl, show ((0#6 : BitVec 6) == 0) = true from rfl, withScope_code, AmoOp.ofCode_code, shortOnly, longOnly, need, xBit_head _ _ ho hB, fS_head _ _ ho hB, fD, fA, fB, fT, fMode, fM, fImm, fDisp, fSizeType, Bool.not_false, Bool.not_true, Bool.true_or, Bool.false_or, Bool.or_true, Bool.and_true, Bool.true_and, if_true, if_false, Bool.false_eq_true, beq_self_eq_true, b0, b1, b2, b3, b4, b5]

theorem fmtBl {op : Nat} (ho : op < 256) {bop : BranchOp} {k : Stall → Reg → Reg → BitVec 8 → Instr}
    (hd : ∀ w y, opField w = op → decodeOp w y = decB w y bop k) (s : Stall) (a : Reg) (b : Reg) (v : BitVec 32)
    (he : (Instr.branchLong s bop a b v).encode = encB s op a.toNat b.toNat (.long v)) : Encodes (Instr.branchLong s bop a b v) := by
  have := a.isLt
  have := b.isLt
  have := v.isLt
  have hE : (v.toNat) < 2 ^ 32 := by
    try simp only [encBC, VExt.word, Nat.reducePow]
    omega
  have e0 : fld (v.toNat) 0 32 = v := by
    clear hE
    apply BitVec.eq_of_toNat_eq
    simp only [fld, encBC, VExt.word, Nat.reducePow, BitVec.toNat_ofNat]
    omega
  have hB : (a.toNat * 2 ^ 14 + b.toNat * 2 ^ 8) < 2 ^ 20 := by
    clear hE e0
    first
    | decide
    | (try simp only [encBody, encVBody, SizeType.code]
       omega)
  have b0 : fld (encHead true s op + (a.toNat * 2 ^ 14 + b.toNat * 2 ^ 8)) 14 6 = a := by
    clear hE e0 hB
    rw [fld_head _ _ _ _ _ _ (by decide)]
    apply BitVec.eq_of_toNat_eq
    simp only [fld, encBody, encVBody, SizeType.code, BitVec.toNat_ofNat]
    omega
  have b1 : fld (encHead true s op + (a.toNat * 2 ^ 14 + b.toNat * 2 ^ 8)) 8 6 = b := by
    clear hE e0 hB b0
    rw [fld_head _ _ _ _ _ _ (by decide)]
    apply BitVec.eq_of_toNat_eq
    simp only [fld, encBody, encVBody, SizeType.code, BitVec.toNat_ofNat]
    omega
  have b2 : zeroAt (encHead true s op + (a.toNat * 2 ^ 14 + b.toNat * 2 ^ 8)) 0 8 = true := by
    clear hE e0 hB b0 b1
    rw [zeroAt_head _ _ _ _ _ _ (by decide)]
    simp only [zeroAt, encBody, encVBody, SizeType.code, beq_iff_eq]
    omega
  have he2 : (Instr.branchLong s bop a b v).encode = some (encHead true s op + (a.toNat * 2 ^ 14 + b.toNat * 2 ^ 8), some (v.toNat)) := by
    rw [he]
    try simp only [encB, SizeType.code, Nat.add_assoc]
  refine encodes_long he2 ho hB hE fun _ => ?_
  rw [hd _ _ (opField_head _ _ ho hB)]
  simp only [decB, show ((3#2 : BitVec 2) == 3) = true from rfl, show ((0#6 : BitVec 6) == 0) = true from rfl, withScope_code, AmoOp.ofCode_code, shortOnly, longOnly, need, xBit_head _ _ ho hB, fS_head _ _ ho hB, fD, fA, fB, fT, fMode, fM, fImm, fDisp, fSizeType, Bool.not_false, Bool.not_true, Bool.true_or, Bool.false_or, Bool.or_true, Bool.and_true, Bool.true_and, if_true, if_false, Bool.false_eq_true, beq_self_eq_true, e0, b0, b1, b2]

theorem fmtJmps {op : Nat} (ho : op < 256) 
    (hd : ∀ w y, opField w = op → decodeOp w y = (need (zeroAt w 8 12 && (!xBit w || zeroAt w 0 8)) .reserved (.ok (.jmp (fS w) (fDisp w y))))) (s : Stall) (v : BitVec 8)
    (he : (Instr.jmp s (.short v)).encode = encB s op 0 0 (.short v)) : Encodes (Instr.jmp s (.short v)) := by
  have := v.isLt
  have hB : (0 * 2 ^ 14 + 0 * 2 ^ 8 + v.toNat) < 2 ^ 20 := by
    first
    | decide
    | (try simp only [encBody, encVBody, SizeType.code]
       omega)
  have b0 : zeroAt (encHead false s op + (0 * 2 ^ 14 + 0 * 2 ^ 8 + v.toNat)) 8 12 = true := by
    clear hB
    rw [zeroAt_head _ _ _ _ _ _ (by decide)]
    simp only [zeroAt, encBody, encVBody, SizeType.code, beq_iff_eq]
    omega
  have b1 : fld (encHead false s op + (0 * 2 ^ 14 + 0 * 2 ^ 8 + v.toNat)) 0 8 = v := by
    clear hB b0
    rw [fld_head _ _ _ _ _ _ (by decide)]
    apply BitVec.eq_of_toNat_eq
    simp only [fld, encBody, encVBody, SizeType.code, BitVec.toNat_ofNat]
    omega
  have he2 : (Instr.jmp s (.short v)).encode = some (encHead false s op + (0 * 2 ^ 14 + 0 * 2 ^ 8 + v.toNat), none) := by
    rw [he]
    try simp only [encB, SizeType.code, Nat.add_assoc]
  refine encodes_short he2 ho hB fun _ y => ?_
  rw [hd _ _ (opField_head _ _ ho hB)]
  simp only [need, show ((3#2 : BitVec 2) == 3) = true from rfl, show ((0#6 : BitVec 6) == 0) = true from rfl, withScope_code, AmoOp.ofCode_code, shortOnly, longOnly, need, xBit_head _ _ ho hB, fS_head _ _ ho hB, fD, fA, fB, fT, fMode, fM, fImm, fDisp, fSizeType, Bool.not_false, Bool.not_true, Bool.true_or, Bool.false_or, Bool.or_true, Bool.and_true, Bool.true_and, if_true, if_false, Bool.false_eq_true, beq_self_eq_true, b0, b1]

theorem fmtJmpl {op : Nat} (ho : op < 256) 
    (hd : ∀ w y, opField w = op → decodeOp w y = (need (zeroAt w 8 12 && (!xBit w || zeroAt w 0 8)) .reserved (.ok (.jmp (fS w) (fDisp w y))))) (s : Stall) (v : BitVec 32)
    (he : (Instr.jmp s (.long v)).encode = encB s op 0 0 (.long v)) : Encodes (Instr.jmp s (.long v)) := by
  have := v.isLt
  have hE : (v.toNat) < 2 ^ 32 := by
    try simp only [encBC, VExt.word, Nat.reducePow]
    omega
  have e0 : fld (v.toNat) 0 32 = v := by
    clear hE
    apply BitVec.eq_of_toNat_eq
    simp only [fld, encBC, VExt.word, Nat.reducePow, BitVec.toNat_ofNat]
    omega
  have hB : (0 * 2 ^ 14 + 0 * 2 ^ 8) < 2 ^ 20 := by
    clear hE e0
    first
    | decide
    | (try simp only [encBody, encVBody, SizeType.code]
       omega)
  have b0 : zeroAt (encHead true s op + (0 * 2 ^ 14 + 0 * 2 ^ 8)) 8 12 = true := by
    clear hE e0 hB
    rw [zeroAt_head _ _ _ _ _ _ (by decide)]
    simp only [zeroAt, encBody, encVBody, SizeType.code, beq_iff_eq]
    omega
  have b1 : zeroAt (encHead true s op + (0 * 2 ^ 14 + 0 * 2 ^ 8)) 0 8 = true := by
    clear hE e0 hB b0
    rw [zeroAt_head _ _ _ _ _ _ (by decide)]
    simp only [zeroAt, encBody, encVBody, SizeType.code, beq_iff_eq]
    omega
  have he2 : (Instr.jmp s (.long v)).encode = some (encHead true s op + (0 * 2 ^ 14 + 0 * 2 ^ 8), some (v.toNat)) := by
    rw [he]
    try simp only [encB, SizeType.code, Nat.add_assoc]
  refine encodes_long he2 ho hB hE fun _ => ?_
  rw [hd _ _ (opField_head _ _ ho hB)]
  simp only [need, show ((3#2 : BitVec 2) == 3) = true from rfl, show ((0#6 : BitVec 6) == 0) = true from rfl, withScope_code, AmoOp.ofCode_code, shortOnly, longOnly, need, xBit_head _ _ ho hB, fS_head _ _ ho hB, fD, fA, fB, fT, fMode, fM, fImm, fDisp, fSizeType, Bool.not_false, Bool.not_true, Bool.true_or, Bool.false_or, Bool.or_true, Bool.and_true, Bool.true_and, if_true, if_false, Bool.false_eq_true, beq_self_eq_true, e0, b0, b1]

theorem fmtJals {op : Nat} (ho : op < 256) 
    (hd : ∀ w y, opField w = op → decodeOp w y = (need (zeroAt w 8 6 && (!xBit w || zeroAt w 0 8)) .reserved (.ok (.jal (fS w) (fD w) (fDisp w y))))) (s : Stall) (d : Reg) (v : BitVec 8)
    (he : (Instr.jal s d (.short v)).encode = encB s op d.toNat 0 (.short v)) : Encodes (Instr.jal s d (.short v)) := by
  have := d.isLt
  have := v.isLt
  have hB : (d.toNat * 2 ^ 14 + 0 * 2 ^ 8 + v.toNat) < 2 ^ 20 := by
    first
    | decide
    | (try simp only [encBody, encVBody, SizeType.code]
       omega)
  have b0 : fld (encHead false s op + (d.toNat * 2 ^ 14 + 0 * 2 ^ 8 + v.toNat)) 14 6 = d := by
    clear hB
    rw [fld_head _ _ _ _ _ _ (by decide)]
    apply BitVec.eq_of_toNat_eq
    simp only [fld, encBody, encVBody, SizeType.code, BitVec.toNat_ofNat]
    omega
  have b1 : zeroAt (encHead false s op + (d.toNat * 2 ^ 14 + 0 * 2 ^ 8 + v.toNat)) 8 6 = true := by
    clear hB b0
    rw [zeroAt_head _ _ _ _ _ _ (by decide)]
    simp only [zeroAt, encBody, encVBody, SizeType.code, beq_iff_eq]
    omega
  have b2 : fld (encHead false s op + (d.toNat * 2 ^ 14 + 0 * 2 ^ 8 + v.toNat)) 0 8 = v := by
    clear hB b0 b1
    rw [fld_head _ _ _ _ _ _ (by decide)]
    apply BitVec.eq_of_toNat_eq
    simp only [fld, encBody, encVBody, SizeType.code, BitVec.toNat_ofNat]
    omega
  have he2 : (Instr.jal s d (.short v)).encode = some (encHead false s op + (d.toNat * 2 ^ 14 + 0 * 2 ^ 8 + v.toNat), none) := by
    rw [he]
    try simp only [encB, SizeType.code, Nat.add_assoc]
  refine encodes_short he2 ho hB fun _ y => ?_
  rw [hd _ _ (opField_head _ _ ho hB)]
  simp only [need, show ((3#2 : BitVec 2) == 3) = true from rfl, show ((0#6 : BitVec 6) == 0) = true from rfl, withScope_code, AmoOp.ofCode_code, shortOnly, longOnly, need, xBit_head _ _ ho hB, fS_head _ _ ho hB, fD, fA, fB, fT, fMode, fM, fImm, fDisp, fSizeType, Bool.not_false, Bool.not_true, Bool.true_or, Bool.false_or, Bool.or_true, Bool.and_true, Bool.true_and, if_true, if_false, Bool.false_eq_true, beq_self_eq_true, b0, b1, b2]

theorem fmtJall {op : Nat} (ho : op < 256) 
    (hd : ∀ w y, opField w = op → decodeOp w y = (need (zeroAt w 8 6 && (!xBit w || zeroAt w 0 8)) .reserved (.ok (.jal (fS w) (fD w) (fDisp w y))))) (s : Stall) (d : Reg) (v : BitVec 32)
    (he : (Instr.jal s d (.long v)).encode = encB s op d.toNat 0 (.long v)) : Encodes (Instr.jal s d (.long v)) := by
  have := d.isLt
  have := v.isLt
  have hE : (v.toNat) < 2 ^ 32 := by
    try simp only [encBC, VExt.word, Nat.reducePow]
    omega
  have e0 : fld (v.toNat) 0 32 = v := by
    clear hE
    apply BitVec.eq_of_toNat_eq
    simp only [fld, encBC, VExt.word, Nat.reducePow, BitVec.toNat_ofNat]
    omega
  have hB : (d.toNat * 2 ^ 14 + 0 * 2 ^ 8) < 2 ^ 20 := by
    clear hE e0
    first
    | decide
    | (try simp only [encBody, encVBody, SizeType.code]
       omega)
  have b0 : fld (encHead true s op + (d.toNat * 2 ^ 14 + 0 * 2 ^ 8)) 14 6 = d := by
    clear hE e0 hB
    rw [fld_head _ _ _ _ _ _ (by decide)]
    apply BitVec.eq_of_toNat_eq
    simp only [fld, encBody, encVBody, SizeType.code, BitVec.toNat_ofNat]
    omega
  have b1 : zeroAt (encHead true s op + (d.toNat * 2 ^ 14 + 0 * 2 ^ 8)) 8 6 = true := by
    clear hE e0 hB b0
    rw [zeroAt_head _ _ _ _ _ _ (by decide)]
    simp only [zeroAt, encBody, encVBody, SizeType.code, beq_iff_eq]
    omega
  have b2 : zeroAt (encHead true s op + (d.toNat * 2 ^ 14 + 0 * 2 ^ 8)) 0 8 = true := by
    clear hE e0 hB b0 b1
    rw [zeroAt_head _ _ _ _ _ _ (by decide)]
    simp only [zeroAt, encBody, encVBody, SizeType.code, beq_iff_eq]
    omega
  have he2 : (Instr.jal s d (.long v)).encode = some (encHead true s op + (d.toNat * 2 ^ 14 + 0 * 2 ^ 8), some (v.toNat)) := by
    rw [he]
    try simp only [encB, SizeType.code, Nat.add_assoc]
  refine encodes_long he2 ho hB hE fun _ => ?_
  rw [hd _ _ (opField_head _ _ ho hB)]
  simp only [need, show ((3#2 : BitVec 2) == 3) = true from rfl, show ((0#6 : BitVec 6) == 0) = true from rfl, withScope_code, AmoOp.ofCode_code, shortOnly, longOnly, need, xBit_head _ _ ho hB, fS_head _ _ ho hB, fD, fA, fB, fT, fMode, fM, fImm, fDisp, fSizeType, Bool.not_false, Bool.not_true, Bool.true_or, Bool.false_or, Bool.or_true, Bool.and_true, Bool.true_and, if_true, if_false, Bool.false_eq_true, beq_self_eq_true, e0, b0, b1, b2]

theorem fmtLoop {op : Nat} (ho : op < 256) 
    (hd : ∀ w y, opField w = op → decodeOp w y = (longOnly w (need (zeroAt w 16 4 && zeroAt w 8 6) .reserved (.ok (.loop (fS w) (fld w 14 2) (fld w 0 8) (fld y 0 32)))))) (s : Stall) (n : BitVec 2) (i : BitVec 8) (c : BitVec 32)
    (he : (Instr.loop s n i c).encode = some (encHead true s op + n.toNat * 2 ^ 14 + i.toNat, some c.toNat)) : Encodes (Instr.loop s n i c) := by
  have := n.isLt
  have := i.isLt
  have := c.isLt
  have hE : (c.toNat) < 2 ^ 32 := by
    try simp only [encBC, VExt.word, Nat.reducePow]
    omega
  have e0 : fld (c.toNat) 0 32 = c := by
    clear hE
    apply BitVec.eq_of_toNat_eq
    simp only [fld, encBC, VExt.word, Nat.reducePow, BitVec.toNat_ofNat]
    omega
  have hB : (n.toNat * 2 ^ 14 + i.toNat) < 2 ^ 20 := by
    clear hE e0
    first
    | decide
    | (try simp only [encBody, encVBody, SizeType.code]
       omega)
  have b0 : zeroAt (encHead true s op + (n.toNat * 2 ^ 14 + i.toNat)) 16 4 = true := by
    clear hE e0 hB
    rw [zeroAt_head _ _ _ _ _ _ (by decide)]
    simp only [zeroAt, encBody, encVBody, SizeType.code, beq_iff_eq]
    omega
  have b1 : zeroAt (encHead true s op + (n.toNat * 2 ^ 14 + i.toNat)) 8 6 = true := by
    clear hE e0 hB b0
    rw [zeroAt_head _ _ _ _ _ _ (by decide)]
    simp only [zeroAt, encBody, encVBody, SizeType.code, beq_iff_eq]
    omega
  have b2 : fld (encHead true s op + (n.toNat * 2 ^ 14 + i.toNat)) 14 2 = n := by
    clear hE e0 hB b0 b1
    rw [fld_head _ _ _ _ _ _ (by decide)]
    apply BitVec.eq_of_toNat_eq
    simp only [fld, encBody, encVBody, SizeType.code, BitVec.toNat_ofNat]
    omega
  have b3 : fld (encHead true s op + (n.toNat * 2 ^ 14 + i.toNat)) 0 8 = i := by
    clear hE e0 hB b0 b1 b2
    rw [fld_head _ _ _ _ _ _ (by decide)]
    apply BitVec.eq_of_toNat_eq
    simp only [fld, encBody, encVBody, SizeType.code, BitVec.toNat_ofNat]
    omega
  have he2 : (Instr.loop s n i c).encode = some (encHead true s op + (n.toNat * 2 ^ 14 + i.toNat), some (c.toNat)) := by
    rw [he]
    try simp only [SizeType.code, SizeType.code, Nat.add_assoc]
  refine encodes_long he2 ho hB hE fun _ => ?_
  rw [hd _ _ (opField_head _ _ ho hB)]
  simp only [longOnly, show ((3#2 : BitVec 2) == 3) = true from rfl, show ((0#6 : BitVec 6) == 0) = true from rfl, withScope_code, AmoOp.ofCode_code, shortOnly, longOnly, need, xBit_head _ _ ho hB, fS_head _ _ ho hB, fD, fA, fB, fT, fMode, fM, fImm, fDisp, fSizeType, Bool.not_false, Bool.not_true, Bool.true_or, Bool.false_or, Bool.or_true, Bool.and_true, Bool.true_and, if_true, if_false, Bool.false_eq_true, beq_self_eq_true, e0, b0, b1, b2, b3]

theorem fmtLoopr {op : Nat} (ho : op < 256) 
    (hd : ∀ w y, opField w = op → decodeOp w y = (shortOnly w (need (zeroAt w 16 4) .reserved (.ok (.loopr (fS w) (fld w 14 2) (fA w) (fld w 0 8)))))) (s : Stall) (n : BitVec 2) (a : Reg) (i : BitVec 8)
    (he : (Instr.loopr s n a i).encode = some (encHead false s op + n.toNat * 2 ^ 14 + a.toNat * 2 ^ 8 + i.toNat, none)) : Encodes (Instr.loopr s n a i) := by
  have := n.isLt
  have := a.isLt
  have := i.isLt
  have hB : (n.toNat * 2 ^ 14 + a.toNat * 2 ^ 8 + i.toNat) < 2 ^ 20 := by
    first
    | decide
    | (try simp only [encBody, encVBody, SizeType.code]
       omega)
  have b0 : zeroAt (encHead false s op + (n.toNat * 2 ^ 14 + a.toNat * 2 ^ 8 + i.toNat)) 16 4 = true := by
    clear hB
    rw [zeroAt_head _ _ _ _ _ _ (by decide)]
    simp only [zeroAt, encBody, encVBody, SizeType.code, beq_iff_eq]
    omega
  have b1 : fld (encHead false s op + (n.toNat * 2 ^ 14 + a.toNat * 2 ^ 8 + i.toNat)) 8 6 = a := by
    clear hB b0
    rw [fld_head _ _ _ _ _ _ (by decide)]
    apply BitVec.eq_of_toNat_eq
    simp only [fld, encBody, encVBody, SizeType.code, BitVec.toNat_ofNat]
    omega
  have b2 : fld (encHead false s op + (n.toNat * 2 ^ 14 + a.toNat * 2 ^ 8 + i.toNat)) 14 2 = n := by
    clear hB b0 b1
    rw [fld_head _ _ _ _ _ _ (by decide)]
    apply BitVec.eq_of_toNat_eq
    simp only [fld, encBody, encVBody, SizeType.code, BitVec.toNat_ofNat]
    omega
  have b3 : fld (encHead false s op + (n.toNat * 2 ^ 14 + a.toNat * 2 ^ 8 + i.toNat)) 0 8 = i := by
    clear hB b0 b1 b2
    rw [fld_head _ _ _ _ _ _ (by decide)]
    apply BitVec.eq_of_toNat_eq
    simp only [fld, encBody, encVBody, SizeType.code, BitVec.toNat_ofNat]
    omega
  have he2 : (Instr.loopr s n a i).encode = some (encHead false s op + (n.toNat * 2 ^ 14 + a.toNat * 2 ^ 8 + i.toNat), none) := by
    rw [he]
    try simp only [SizeType.code, SizeType.code, Nat.add_assoc]
  refine encodes_short he2 ho hB fun _ y => ?_
  rw [hd _ _ (opField_head _ _ ho hB)]
  simp only [shortOnly, show ((3#2 : BitVec 2) == 3) = true from rfl, show ((0#6 : BitVec 6) == 0) = true from rfl, withScope_code, AmoOp.ofCode_code, shortOnly, longOnly, need, xBit_head _ _ ho hB, fS_head _ _ ho hB, fD, fA, fB, fT, fMode, fM, fImm, fDisp, fSizeType, Bool.not_false, Bool.not_true, Bool.true_or, Bool.false_or, Bool.or_true, Bool.and_true, Bool.true_and, if_true, if_false, Bool.false_eq_true, beq_self_eq_true, b0, b1, b2, b3]

theorem fmtLoopm {op : Nat} (ho : op < 256) 
    (hd : ∀ w y, opField w = op → decodeOp w y = (shortOnly w (need (zeroAt w 16 4 && zeroAt w 11 3) .reserved (.ok (.loopm (fS w) (fld w 14 2) (fld w 8 3) (fld w 0 8)))))) (s : Stall) (n : BitVec 2) (m : BitVec 3) (i : BitVec 8)
    (he : (Instr.loopm s n m i).encode = some (encHead false s op + n.toNat * 2 ^ 14 + m.toNat * 2 ^ 8 + i.toNat, none)) : Encodes (Instr.loopm s n m i) := by
  have := n.isLt
  have := m.isLt
  have := i.isLt
  have hB : (n.toNat * 2 ^ 14 + m.toNat * 2 ^ 8 + i.toNat) < 2 ^ 20 := by
    first
    | decide
    | (try simp only [encBody, encVBody, SizeType.code]
       omega)
  have b0 : zeroAt (encHead false s op + (n.toNat * 2 ^ 14 + m.toNat * 2 ^ 8 + i.toNat)) 16 4 = true := by
    clear hB
    rw [zeroAt_head _ _ _ _ _ _ (by decide)]
    simp only [zeroAt, encBody, encVBody, SizeType.code, beq_iff_eq]
    omega
  have b1 : zeroAt (encHead false s op + (n.toNat * 2 ^ 14 + m.toNat * 2 ^ 8 + i.toNat)) 11 3 = true := by
    clear hB b0
    rw [zeroAt_head _ _ _ _ _ _ (by decide)]
    simp only [zeroAt, encBody, encVBody, SizeType.code, beq_iff_eq]
    omega
  have b2 : fld (encHead false s op + (n.toNat * 2 ^ 14 + m.toNat * 2 ^ 8 + i.toNat)) 8 3 = m := by
    clear hB b0 b1
    rw [fld_head _ _ _ _ _ _ (by decide)]
    apply BitVec.eq_of_toNat_eq
    simp only [fld, encBody, encVBody, SizeType.code, BitVec.toNat_ofNat]
    omega
  have b3 : fld (encHead false s op + (n.toNat * 2 ^ 14 + m.toNat * 2 ^ 8 + i.toNat)) 14 2 = n := by
    clear hB b0 b1 b2
    rw [fld_head _ _ _ _ _ _ (by decide)]
    apply BitVec.eq_of_toNat_eq
    simp only [fld, encBody, encVBody, SizeType.code, BitVec.toNat_ofNat]
    omega
  have b4 : fld (encHead false s op + (n.toNat * 2 ^ 14 + m.toNat * 2 ^ 8 + i.toNat)) 0 8 = i := by
    clear hB b0 b1 b2 b3
    rw [fld_head _ _ _ _ _ _ (by decide)]
    apply BitVec.eq_of_toNat_eq
    simp only [fld, encBody, encVBody, SizeType.code, BitVec.toNat_ofNat]
    omega
  have he2 : (Instr.loopm s n m i).encode = some (encHead false s op + (n.toNat * 2 ^ 14 + m.toNat * 2 ^ 8 + i.toNat), none) := by
    rw [he]
    try simp only [SizeType.code, SizeType.code, Nat.add_assoc]
  refine encodes_short he2 ho hB fun _ y => ?_
  rw [hd _ _ (opField_head _ _ ho hB)]
  simp only [shortOnly, show ((3#2 : BitVec 2) == 3) = true from rfl, show ((0#6 : BitVec 6) == 0) = true from rfl, withScope_code, AmoOp.ofCode_code, shortOnly, longOnly, need, xBit_head _ _ ho hB, fS_head _ _ ho hB, fD, fA, fB, fT, fMode, fM, fImm, fDisp, fSizeType, Bool.not_false, Bool.not_true, Bool.true_or, Bool.false_or, Bool.or_true, Bool.and_true, Bool.true_and, if_true, if_false, Bool.false_eq_true, beq_self_eq_true, b0, b1, b2, b3, b4]

theorem fmtRpt {op : Nat} (ho : op < 256) 
    (hd : ∀ w y, opField w = op → decodeOp w y = (longOnly w (need (zeroAt w 0 4 && zeroAt y 0 16) .reserved (.ok (.rpt (fS w) (fld w 16 4) (fld w 4 12) (fld y 28 4) (fld y 24 4) (fld y 20 4) (fld y 16 4)))))) (s : Stall) (len : BitVec 4) (n : BitVec 12) (sd : BitVec 4) (sa : BitVec 4) (sb : BitVec 4) (sc : BitVec 4)
    (he : (Instr.rpt s len n sd sa sb sc).encode = some (encHead true s op + len.toNat * 2 ^ 16 + n.toNat * 2 ^ 4, some (sd.toNat * 2 ^ 28 + sa.toNat * 2 ^ 24 + sb.toNat * 2 ^ 20 + sc.toNat * 2 ^ 16))) : Encodes (Instr.rpt s len n sd sa sb sc) := by
  have := len.isLt
  have := n.isLt
  have := sd.isLt
  have := sa.isLt
  have := sb.isLt
  have := sc.isLt
  have hE : (sd.toNat * 2 ^ 28 + sa.toNat * 2 ^ 24 + sb.toNat * 2 ^ 20 + sc.toNat * 2 ^ 16) < 2 ^ 32 := by
    try simp only [encBC, VExt.word, Nat.reducePow]
    omega
  have e0 : zeroAt (sd.toNat * 2 ^ 28 + sa.toNat * 2 ^ 24 + sb.toNat * 2 ^ 20 + sc.toNat * 2 ^ 16) 0 16 = true := by
    clear hE
    simp only [zeroAt, encBC, VExt.word, Nat.reducePow, beq_iff_eq]
    first | omega | rfl
  have e1 : fld (sd.toNat * 2 ^ 28 + sa.toNat * 2 ^ 24 + sb.toNat * 2 ^ 20 + sc.toNat * 2 ^ 16) 28 4 = sd := by
    clear hE e0
    apply BitVec.eq_of_toNat_eq
    simp only [fld, encBC, VExt.word, Nat.reducePow, BitVec.toNat_ofNat]
    omega
  have e2 : fld (sd.toNat * 2 ^ 28 + sa.toNat * 2 ^ 24 + sb.toNat * 2 ^ 20 + sc.toNat * 2 ^ 16) 24 4 = sa := by
    clear hE e0 e1
    apply BitVec.eq_of_toNat_eq
    simp only [fld, encBC, VExt.word, Nat.reducePow, BitVec.toNat_ofNat]
    omega
  have e3 : fld (sd.toNat * 2 ^ 28 + sa.toNat * 2 ^ 24 + sb.toNat * 2 ^ 20 + sc.toNat * 2 ^ 16) 20 4 = sb := by
    clear hE e0 e1 e2
    apply BitVec.eq_of_toNat_eq
    simp only [fld, encBC, VExt.word, Nat.reducePow, BitVec.toNat_ofNat]
    omega
  have e4 : fld (sd.toNat * 2 ^ 28 + sa.toNat * 2 ^ 24 + sb.toNat * 2 ^ 20 + sc.toNat * 2 ^ 16) 16 4 = sc := by
    clear hE e0 e1 e2 e3
    apply BitVec.eq_of_toNat_eq
    simp only [fld, encBC, VExt.word, Nat.reducePow, BitVec.toNat_ofNat]
    omega
  have hB : (len.toNat * 2 ^ 16 + n.toNat * 2 ^ 4) < 2 ^ 20 := by
    clear hE e0 e1 e2 e3 e4
    first
    | decide
    | (try simp only [encBody, encVBody, SizeType.code]
       omega)
  have b0 : zeroAt (encHead true s op + (len.toNat * 2 ^ 16 + n.toNat * 2 ^ 4)) 0 4 = true := by
    clear hE e0 e1 e2 e3 e4 hB
    rw [zeroAt_head _ _ _ _ _ _ (by decide)]
    simp only [zeroAt, encBody, encVBody, SizeType.code, beq_iff_eq]
    omega
  have b1 : fld (encHead true s op + (len.toNat * 2 ^ 16 + n.toNat * 2 ^ 4)) 16 4 = len := by
    clear hE e0 e1 e2 e3 e4 hB b0
    rw [fld_head _ _ _ _ _ _ (by decide)]
    apply BitVec.eq_of_toNat_eq
    simp only [fld, encBody, encVBody, SizeType.code, BitVec.toNat_ofNat]
    omega
  have b2 : fld (encHead true s op + (len.toNat * 2 ^ 16 + n.toNat * 2 ^ 4)) 4 12 = n := by
    clear hE e0 e1 e2 e3 e4 hB b0 b1
    rw [fld_head _ _ _ _ _ _ (by decide)]
    apply BitVec.eq_of_toNat_eq
    simp only [fld, encBody, encVBody, SizeType.code, BitVec.toNat_ofNat]
    omega
  have he2 : (Instr.rpt s len n sd sa sb sc).encode = some (encHead true s op + (len.toNat * 2 ^ 16 + n.toNat * 2 ^ 4), some (sd.toNat * 2 ^ 28 + sa.toNat * 2 ^ 24 + sb.toNat * 2 ^ 20 + sc.toNat * 2 ^ 16)) := by
    rw [he]
    try simp only [SizeType.code, SizeType.code, Nat.add_assoc]
  refine encodes_long he2 ho hB hE fun _ => ?_
  rw [hd _ _ (opField_head _ _ ho hB)]
  simp only [longOnly, show ((3#2 : BitVec 2) == 3) = true from rfl, show ((0#6 : BitVec 6) == 0) = true from rfl, withScope_code, AmoOp.ofCode_code, shortOnly, longOnly, need, xBit_head _ _ ho hB, fS_head _ _ ho hB, fD, fA, fB, fT, fMode, fM, fImm, fDisp, fSizeType, Bool.not_false, Bool.not_true, Bool.true_or, Bool.false_or, Bool.or_true, Bool.and_true, Bool.true_and, if_true, if_false, Bool.false_eq_true, beq_self_eq_true, e0, e1, e2, e3, e4, b0, b1, b2]

theorem fmtStRel {op : Nat} (ho : op < 256) 
    (hd : ∀ w y, opField w = op → decodeOp w y = (longOnly w (need (zeroAt w 2 1) .reserved (withScope (w / 8 % 8) fun sc => .ok (.stRel (fS w) (fD w) (fA w) (fMode w) sc (fld w 0 2) (fld y 0 32)))))) (s : Stall) (d : Reg) (b : Reg) (m : BitVec 2) (sc : Scope) (sz : BitVec 2) (x : BitVec 32)
    (he : (Instr.stRel s d b m sc sz x).encode = encM s op d.toNat b.toNat m.toNat (.long ⟨BitVec.ofNat 3 sc.code, false, sz⟩ x)) : Encodes (Instr.stRel s d b m sc sz x) := by
  have := d.isLt
  have := b.isLt
  have := m.isLt
  have := Scope.code_lt sc
  have := sz.isLt
  have := x.isLt
  have hE : (x.toNat) < 2 ^ 32 := by
    try simp only [encBC, VExt.word, Nat.reducePow]
    omega
  have e0 : fld (x.toNat) 0 32 = x := by
    clear hE
    apply BitVec.eq_of_toNat_eq
    simp only [fld, encBC, VExt.word, Nat.reducePow, BitVec.toNat_ofNat]
    omega
  have hB : (d.toNat * 2 ^ 14 + b.toNat * 2 ^ 8 + m.toNat * 2 ^ 6 + (sc.code * 8 + sz.toNat)) < 2 ^ 20 := by
    clear hE e0
    first
    | decide
    | (try simp only [encBody, encVBody, SizeType.code]
       omega)
  have b0 : fld (encHead true s op + (d.toNat * 2 ^ 14 + b.toNat * 2 ^ 8 + m.toNat * 2 ^ 6 + (sc.code * 8 + sz.toNat))) 14 6 = d := by
    clear hE e0 hB
    rw [fld_head _ _ _ _ _ _ (by decide)]
    apply BitVec.eq_of_toNat_eq
    simp only [fld, encBody, encVBody, SizeType.code, BitVec.toNat_ofNat]
    omega
  have b1 : fld (encHead true s op + (d.toNat * 2 ^ 14 + b.toNat * 2 ^ 8 + m.toNat * 2 ^ 6 + (sc.code * 8 + sz.toNat))) 8 6 = b := by
    clear hE e0 hB b0
    rw [fld_head _ _ _ _ _ _ (by decide)]
    apply BitVec.eq_of_toNat_eq
    simp only [fld, encBody, encVBody, SizeType.code, BitVec.toNat_ofNat]
    omega
  have b2 : fld (encHead true s op + (d.toNat * 2 ^ 14 + b.toNat * 2 ^ 8 + m.toNat * 2 ^ 6 + (sc.code * 8 + sz.toNat))) 6 2 = m := by
    clear hE e0 hB b0 b1
    rw [fld_head _ _ _ _ _ _ (by decide)]
    apply BitVec.eq_of_toNat_eq
    simp only [fld, encBody, encVBody, SizeType.code, BitVec.toNat_ofNat]
    omega
  have b3 : zeroAt (encHead true s op + (d.toNat * 2 ^ 14 + b.toNat * 2 ^ 8 + m.toNat * 2 ^ 6 + (sc.code * 8 + sz.toNat))) 2 1 = true := by
    clear hE e0 hB b0 b1 b2
    rw [zeroAt_head _ _ _ _ _ _ (by decide)]
    simp only [zeroAt, encBody, encVBody, SizeType.code, beq_iff_eq]
    omega
  have b4 : fld (encHead true s op + (d.toNat * 2 ^ 14 + b.toNat * 2 ^ 8 + m.toNat * 2 ^ 6 + (sc.code * 8 + sz.toNat))) 0 2 = sz := by
    clear hE e0 hB b0 b1 b2 b3
    rw [fld_head _ _ _ _ _ _ (by decide)]
    apply BitVec.eq_of_toNat_eq
    simp only [fld, encBody, encVBody, SizeType.code, BitVec.toNat_ofNat]
    omega
  have b5 : (encHead true s op + (d.toNat * 2 ^ 14 + b.toNat * 2 ^ 8 + m.toNat * 2 ^ 6 + (sc.code * 8 + sz.toNat))) / 8 % 8 = sc.code := by
    clear hE e0 hB b0 b1 b2 b3 b4
    simp only [encHead, encBody]
    omega
  have he2 : (Instr.stRel s d b m sc sz x).encode = some (encHead true s op + (d.toNat * 2 ^ 14 + b.toNat * 2 ^ 8 + m.toNat * 2 ^ 6 + (sc.code * 8 + sz.toNat)), some (x.toNat)) := by
    rw [he]
    have hc : (BitVec.ofNat 3 sc.code).toNat = sc.code := by cases sc <;> rfl
    simp only [encM, SizeType.code, hc, Bool.toNat_false, Nat.add_assoc, Nat.zero_mul, Nat.zero_add]
  refine encodes_long he2 ho hB hE fun _ => ?_
  rw [hd _ _ (opField_head _ _ ho hB)]
  simp only [longOnly, show ((3#2 : BitVec 2) == 3) = true from rfl, show ((0#6 : BitVec 6) == 0) = true from rfl, withScope_code, AmoOp.ofCode_code, shortOnly, longOnly, need, xBit_head _ _ ho hB, fS_head _ _ ho hB, fD, fA, fB, fT, fMode, fM, fImm, fDisp, fSizeType, Bool.not_false, Bool.not_true, Bool.true_or, Bool.false_or, Bool.or_true, Bool.and_true, Bool.true_and, if_true, if_false, Bool.false_eq_true, beq_self_eq_true, e0, b0, b1, b2, b3, b4, b5]

theorem fmtAmo {op : Nat} (ho : op < 256) 
    (hd : ∀ w y, opField w = op → decodeOp w y = (longOnly w (need (zeroAt w 0 2 && zeroAt y 0 23) .reserved (withScope (y / 2 ^ 23 % 8) fun sc => match AmoOp.ofCode (y / 2 ^ 28 % 16) with | some op => .ok (.amo (fS w) op (fD w) (fA w) (fB w) (bitAt y 27) (bitAt y 26) sc) | none => .error .code)))) (s : Stall) (o : AmoOp) (d : Reg) (a : Reg) (b : Reg) (acq : Bool) (rel : Bool) (sc : Scope)
    (he : (Instr.amo s o d a b acq rel sc).encode = encAL s op d.toNat a.toNat b.toNat 0 (o.code * 2 ^ 28 + acq.toNat * 2 ^ 27 + rel.toNat * 2 ^ 26 + sc.code * 2 ^ 23)) : Encodes (Instr.amo s o d a b acq rel sc) := by
  have := AmoOp.code_lt o
  have := d.isLt
  have := a.isLt
  have := b.isLt
  have := Bool.toNat_lt acq
  have := Bool.toNat_lt rel
  have := Scope.code_lt sc
  have hE : (o.code * 2 ^ 28 + acq.toNat * 2 ^ 27 + rel.toNat * 2 ^ 26 + sc.code * 2 ^ 23) < 2 ^ 32 := by
    try simp only [encBC, VExt.word, Nat.reducePow]
    omega
  have e0 : zeroAt (o.code * 2 ^ 28 + acq.toNat * 2 ^ 27 + rel.toNat * 2 ^ 26 + sc.code * 2 ^ 23) 0 23 = true := by
    clear hE
    simp only [zeroAt, encBC, VExt.word, Nat.reducePow, beq_iff_eq]
    first | omega | rfl
  have e1 : (o.code * 2 ^ 28 + acq.toNat * 2 ^ 27 + rel.toNat * 2 ^ 26 + sc.code * 2 ^ 23) / 2 ^ 23 % 8 = sc.code := by
    clear hE e0
    try simp only [Nat.reducePow]
    omega
  have e2 : (o.code * 2 ^ 28 + acq.toNat * 2 ^ 27 + rel.toNat * 2 ^ 26 + sc.code * 2 ^ 23) / 2 ^ 28 % 16 = o.code := by
    clear hE e0 e1
    try simp only [Nat.reducePow]
    omega
  have e3 : bitAt (o.code * 2 ^ 28 + acq.toNat * 2 ^ 27 + rel.toNat * 2 ^ 26 + sc.code * 2 ^ 23) 27 = acq := by
    clear hE e0 e1 e2
    have h : (o.code * 2 ^ 28 + acq.toNat * 2 ^ 27 + rel.toNat * 2 ^ 26 + sc.code * 2 ^ 23) / 2 ^ 27 % 2 = Bool.toNat acq := by
      try simp only [encBC, VExt.word, Nat.reducePow]
      omega
    rw [bitAt, h]
    cases acq <;> rfl
  have e4 : bitAt (o.code * 2 ^ 28 + acq.toNat * 2 ^ 27 + rel.toNat * 2 ^ 26 + sc.code * 2 ^ 23) 26 = rel := by
    clear hE e0 e1 e2 e3
    have h : (o.code * 2 ^ 28 + acq.toNat * 2 ^ 27 + rel.toNat * 2 ^ 26 + sc.code * 2 ^ 23) / 2 ^ 26 % 2 = Bool.toNat rel := by
      try simp only [encBC, VExt.word, Nat.reducePow]
      omega
    rw [bitAt, h]
    cases rel <;> rfl
  have hB : (encBody d.toNat a.toNat b.toNat 0) < 2 ^ 20 := by
    clear hE e0 e1 e2 e3 e4
    first
    | decide
    | (try simp only [encBody, encVBody, SizeType.code]
       omega)
  have b0 : fld (encHead true s op + (encBody d.toNat a.toNat b.toNat 0)) 14 6 = d := by
    clear hE e0 e1 e2 e3 e4 hB
    rw [fld_head _ _ _ _ _ _ (by decide)]
    apply BitVec.eq_of_toNat_eq
    simp only [fld, encBody, encVBody, SizeType.code, BitVec.toNat_ofNat]
    omega
  have b1 : fld (encHead true s op + (encBody d.toNat a.toNat b.toNat 0)) 8 6 = a := by
    clear hE e0 e1 e2 e3 e4 hB b0
    rw [fld_head _ _ _ _ _ _ (by decide)]
    apply BitVec.eq_of_toNat_eq
    simp only [fld, encBody, encVBody, SizeType.code, BitVec.toNat_ofNat]
    omega
  have b2 : fld (encHead true s op + (encBody d.toNat a.toNat b.toNat 0)) 2 6 = b := by
    clear hE e0 e1 e2 e3 e4 hB b0 b1
    rw [fld_head _ _ _ _ _ _ (by decide)]
    apply BitVec.eq_of_toNat_eq
    simp only [fld, encBody, encVBody, SizeType.code, BitVec.toNat_ofNat]
    omega
  have b3 : zeroAt (encHead true s op + (encBody d.toNat a.toNat b.toNat 0)) 0 2 = true := by
    clear hE e0 e1 e2 e3 e4 hB b0 b1 b2
    rw [zeroAt_head _ _ _ _ _ _ (by decide)]
    simp only [zeroAt, encBody, encVBody, SizeType.code, beq_iff_eq]
    omega
  have he2 : (Instr.amo s o d a b acq rel sc).encode = some (encHead true s op + (encBody d.toNat a.toNat b.toNat 0), some (o.code * 2 ^ 28 + acq.toNat * 2 ^ 27 + rel.toNat * 2 ^ 26 + sc.code * 2 ^ 23)) := by
    rw [he]
    rfl
  refine encodes_long he2 ho hB hE fun _ => ?_
  rw [hd _ _ (opField_head _ _ ho hB)]
  simp only [longOnly, show ((3#2 : BitVec 2) == 3) = true from rfl, show ((0#6 : BitVec 6) == 0) = true from rfl, withScope_code, AmoOp.ofCode_code, shortOnly, longOnly, need, xBit_head _ _ ho hB, fS_head _ _ ho hB, fD, fA, fB, fT, fMode, fM, fImm, fDisp, fSizeType, Bool.not_false, Bool.not_true, Bool.true_or, Bool.false_or, Bool.or_true, Bool.and_true, Bool.true_and, if_true, if_false, Bool.false_eq_true, beq_self_eq_true, e0, e1, e2, e3, e4, b0, b1, b2, b3]

theorem fmtCas {op : Nat} (ho : op < 256) 
    (hd : ∀ w y, opField w = op → decodeOp w y = (longOnly w (need (zeroAt w 0 2 && zeroAt y 0 21) .reserved (withScope (y / 2 ^ 21 % 8) fun sc => .ok (.cas (fS w) (fD w) (fA w) (fB w) (fld y 26 6) (bitAt y 25) (bitAt y 24) sc))))) (s : Stall) (d : Reg) (a : Reg) (b : Reg) (c : Reg) (acq : Bool) (rel : Bool) (sc : Scope)
    (he : (Instr.cas s d a b c acq rel sc).encode = encAL s op d.toNat a.toNat b.toNat 0 (c.toNat * 2 ^ 26 + acq.toNat * 2 ^ 25 + rel.toNat * 2 ^ 24 + sc.code * 2 ^ 21)) : Encodes (Instr.cas s d a b c acq rel sc) := by
  have := d.isLt
  have := a.isLt
  have := b.isLt
  have := c.isLt
  have := Bool.toNat_lt acq
  have := Bool.toNat_lt rel
  have := Scope.code_lt sc
  have hE : (c.toNat * 2 ^ 26 + acq.toNat * 2 ^ 25 + rel.toNat * 2 ^ 24 + sc.code * 2 ^ 21) < 2 ^ 32 := by
    try simp only [encBC, VExt.word, Nat.reducePow]
    omega
  have e0 : zeroAt (c.toNat * 2 ^ 26 + acq.toNat * 2 ^ 25 + rel.toNat * 2 ^ 24 + sc.code * 2 ^ 21) 0 21 = true := by
    clear hE
    simp only [zeroAt, encBC, VExt.word, Nat.reducePow, beq_iff_eq]
    first | omega | rfl
  have e1 : (c.toNat * 2 ^ 26 + acq.toNat * 2 ^ 25 + rel.toNat * 2 ^ 24 + sc.code * 2 ^ 21) / 2 ^ 21 % 8 = sc.code := by
    clear hE e0
    try simp only [Nat.reducePow]
    omega
  have e2 : fld (c.toNat * 2 ^ 26 + acq.toNat * 2 ^ 25 + rel.toNat * 2 ^ 24 + sc.code * 2 ^ 21) 26 6 = c := by
    clear hE e0 e1
    apply BitVec.eq_of_toNat_eq
    simp only [fld, encBC, VExt.word, Nat.reducePow, BitVec.toNat_ofNat]
    omega
  have e3 : bitAt (c.toNat * 2 ^ 26 + acq.toNat * 2 ^ 25 + rel.toNat * 2 ^ 24 + sc.code * 2 ^ 21) 25 = acq := by
    clear hE e0 e1 e2
    have h : (c.toNat * 2 ^ 26 + acq.toNat * 2 ^ 25 + rel.toNat * 2 ^ 24 + sc.code * 2 ^ 21) / 2 ^ 25 % 2 = Bool.toNat acq := by
      try simp only [encBC, VExt.word, Nat.reducePow]
      omega
    rw [bitAt, h]
    cases acq <;> rfl
  have e4 : bitAt (c.toNat * 2 ^ 26 + acq.toNat * 2 ^ 25 + rel.toNat * 2 ^ 24 + sc.code * 2 ^ 21) 24 = rel := by
    clear hE e0 e1 e2 e3
    have h : (c.toNat * 2 ^ 26 + acq.toNat * 2 ^ 25 + rel.toNat * 2 ^ 24 + sc.code * 2 ^ 21) / 2 ^ 24 % 2 = Bool.toNat rel := by
      try simp only [encBC, VExt.word, Nat.reducePow]
      omega
    rw [bitAt, h]
    cases rel <;> rfl
  have hB : (encBody d.toNat a.toNat b.toNat 0) < 2 ^ 20 := by
    clear hE e0 e1 e2 e3 e4
    first
    | decide
    | (try simp only [encBody, encVBody, SizeType.code]
       omega)
  have b0 : fld (encHead true s op + (encBody d.toNat a.toNat b.toNat 0)) 14 6 = d := by
    clear hE e0 e1 e2 e3 e4 hB
    rw [fld_head _ _ _ _ _ _ (by decide)]
    apply BitVec.eq_of_toNat_eq
    simp only [fld, encBody, encVBody, SizeType.code, BitVec.toNat_ofNat]
    omega
  have b1 : fld (encHead true s op + (encBody d.toNat a.toNat b.toNat 0)) 8 6 = a := by
    clear hE e0 e1 e2 e3 e4 hB b0
    rw [fld_head _ _ _ _ _ _ (by decide)]
    apply BitVec.eq_of_toNat_eq
    simp only [fld, encBody, encVBody, SizeType.code, BitVec.toNat_ofNat]
    omega
  have b2 : fld (encHead true s op + (encBody d.toNat a.toNat b.toNat 0)) 2 6 = b := by
    clear hE e0 e1 e2 e3 e4 hB b0 b1
    rw [fld_head _ _ _ _ _ _ (by decide)]
    apply BitVec.eq_of_toNat_eq
    simp only [fld, encBody, encVBody, SizeType.code, BitVec.toNat_ofNat]
    omega
  have b3 : zeroAt (encHead true s op + (encBody d.toNat a.toNat b.toNat 0)) 0 2 = true := by
    clear hE e0 e1 e2 e3 e4 hB b0 b1 b2
    rw [zeroAt_head _ _ _ _ _ _ (by decide)]
    simp only [zeroAt, encBody, encVBody, SizeType.code, beq_iff_eq]
    omega
  have he2 : (Instr.cas s d a b c acq rel sc).encode = some (encHead true s op + (encBody d.toNat a.toNat b.toNat 0), some (c.toNat * 2 ^ 26 + acq.toNat * 2 ^ 25 + rel.toNat * 2 ^ 24 + sc.code * 2 ^ 21)) := by
    rw [he]
    rfl
  refine encodes_long he2 ho hB hE fun _ => ?_
  rw [hd _ _ (opField_head _ _ ho hB)]
  simp only [longOnly, show ((3#2 : BitVec 2) == 3) = true from rfl, show ((0#6 : BitVec 6) == 0) = true from rfl, withScope_code, AmoOp.ofCode_code, shortOnly, longOnly, need, xBit_head _ _ ho hB, fS_head _ _ ho hB, fD, fA, fB, fT, fMode, fM, fImm, fDisp, fSizeType, Bool.not_false, Bool.not_true, Bool.true_or, Bool.false_or, Bool.or_true, Bool.and_true, Bool.true_and, if_true, if_false, Bool.false_eq_true, beq_self_eq_true, e0, e1, e2, e3, e4, b0, b1, b2, b3]

theorem fmtFence {op : Nat} (ho : op < 256) 
    (hd : ∀ w y, opField w = op → decodeOp w y = (shortOnly w (need (zeroAt w 4 16) .reserved (withScope (w % 8) fun sc => .ok (if bitAt w 3 then .fenceE (fS w) sc else .fence (fS w) sc))))) (s : Stall) (sc : Scope)
    (he : (Instr.fence s sc).encode = some (encHead false s op + sc.code, none)) : Encodes (Instr.fence s sc) := by
  have := Scope.code_lt sc
  have hB : (sc.code) < 2 ^ 20 := by
    first
    | decide
    | (try simp only [encBody, encVBody, SizeType.code]
       omega)
  have b0 : zeroAt (encHead false s op + (sc.code)) 4 16 = true := by
    clear hB
    rw [zeroAt_head _ _ _ _ _ _ (by decide)]
    simp only [zeroAt, encBody, encVBody, SizeType.code, beq_iff_eq]
    omega
  have b1 : (encHead false s op + (sc.code)) % 8 = sc.code := by
    clear hB b0
    simp only [encHead, encBody]
    omega
  have b2 : bitAt (encHead false s op + (sc.code)) 3 = false := by
    clear hB b0 b1
    rw [bitAt_head _ _ _ _ _ (by decide)]
    simp only [bitAt, encBody, encVBody, beq_eq_false_iff_ne, beq_iff_eq, ne_eq]
    omega
  have he2 : (Instr.fence s sc).encode = some (encHead false s op + (sc.code), none) := by
    rw [he]
    skip
  refine encodes_short he2 ho hB fun _ y => ?_
  rw [hd _ _ (opField_head _ _ ho hB)]
  simp only [shortOnly, show ((3#2 : BitVec 2) == 3) = true from rfl, show ((0#6 : BitVec 6) == 0) = true from rfl, withScope_code, AmoOp.ofCode_code, shortOnly, longOnly, need, xBit_head _ _ ho hB, fS_head _ _ ho hB, fD, fA, fB, fT, fMode, fM, fImm, fDisp, fSizeType, Bool.not_false, Bool.not_true, Bool.true_or, Bool.false_or, Bool.or_true, Bool.and_true, Bool.true_and, if_true, if_false, Bool.false_eq_true, beq_self_eq_true, b0, b1, b2]

theorem fmtFenceE {op : Nat} (ho : op < 256) 
    (hd : ∀ w y, opField w = op → decodeOp w y = (shortOnly w (need (zeroAt w 4 16) .reserved (withScope (w % 8) fun sc => .ok (if bitAt w 3 then .fenceE (fS w) sc else .fence (fS w) sc))))) (s : Stall) (sc : Scope)
    (he : (Instr.fenceE s sc).encode = some (encHead false s op + 8 + sc.code, none)) : Encodes (Instr.fenceE s sc) := by
  have := Scope.code_lt sc
  have hB : (8 + sc.code) < 2 ^ 20 := by
    first
    | decide
    | (try simp only [encBody, encVBody, SizeType.code]
       omega)
  have b0 : zeroAt (encHead false s op + (8 + sc.code)) 4 16 = true := by
    clear hB
    rw [zeroAt_head _ _ _ _ _ _ (by decide)]
    simp only [zeroAt, encBody, encVBody, SizeType.code, beq_iff_eq]
    omega
  have b1 : (encHead false s op + (8 + sc.code)) % 8 = sc.code := by
    clear hB b0
    simp only [encHead, encBody]
    omega
  have b2 : bitAt (encHead false s op + (8 + sc.code)) 3 = true := by
    clear hB b0 b1
    rw [bitAt_head _ _ _ _ _ (by decide)]
    simp only [bitAt, encBody, encVBody, beq_eq_false_iff_ne, beq_iff_eq, ne_eq]
    omega
  have he2 : (Instr.fenceE s sc).encode = some (encHead false s op + (8 + sc.code), none) := by
    rw [he]
    try simp only [SizeType.code, SizeType.code, Nat.add_assoc]
  refine encodes_short he2 ho hB fun _ y => ?_
  rw [hd _ _ (opField_head _ _ ho hB)]
  simp only [shortOnly, show ((3#2 : BitVec 2) == 3) = true from rfl, show ((0#6 : BitVec 6) == 0) = true from rfl, withScope_code, AmoOp.ofCode_code, shortOnly, longOnly, need, xBit_head _ _ ho hB, fS_head _ _ ho hB, fD, fA, fB, fT, fMode, fM, fImm, fDisp, fSizeType, Bool.not_false, Bool.not_true, Bool.true_or, Bool.false_or, Bool.or_true, Bool.and_true, Bool.true_and, if_true, if_false, Bool.false_eq_true, beq_self_eq_true, b0, b1, b2]

theorem fmtMon {op : Nat} (ho : op < 256) 
    (hd : ∀ w y, opField w = op → decodeOp w y = (shortOnly w (need (zeroAt w 16 4 && zeroAt w 0 8) .reserved (.ok (.mon (fS w) (fld w 14 2) (fA w)))))) (s : Stall) (l : BitVec 2) (a : Reg)
    (he : (Instr.mon s l a).encode = encA s op l.toNat a.toNat 0 0) : Encodes (Instr.mon s l a) := by
  have := l.isLt
  have := a.isLt
  have hB : (encBody l.toNat a.toNat 0 0) < 2 ^ 20 := by
    first
    | decide
    | (try simp only [encBody, encVBody, SizeType.code]
       omega)
  have b0 : zeroAt (encHead false s op + (encBody l.toNat a.toNat 0 0)) 16 4 = true := by
    clear hB
    rw [zeroAt_head _ _ _ _ _ _ (by decide)]
    simp only [zeroAt, encBody, encVBody, SizeType.code, beq_iff_eq]
    omega
  have b1 : zeroAt (encHead false s op + (encBody l.toNat a.toNat 0 0)) 0 8 = true := by
    clear hB b0
    rw [zeroAt_head _ _ _ _ _ _ (by decide)]
    simp only [zeroAt, encBody, encVBody, SizeType.code, beq_iff_eq]
    omega
  have b2 : fld (encHead false s op + (encBody l.toNat a.toNat 0 0)) 14 2 = l := by
    clear hB b0 b1
    rw [fld_head _ _ _ _ _ _ (by decide)]
    apply BitVec.eq_of_toNat_eq
    simp only [fld, encBody, encVBody, SizeType.code, BitVec.toNat_ofNat]
    omega
  have b3 : fld (encHead false s op + (encBody l.toNat a.toNat 0 0)) 8 6 = a := by
    clear hB b0 b1 b2
    rw [fld_head _ _ _ _ _ _ (by decide)]
    apply BitVec.eq_of_toNat_eq
    simp only [fld, encBody, encVBody, SizeType.code, BitVec.toNat_ofNat]
    omega
  have he2 : (Instr.mon s l a).encode = some (encHead false s op + (encBody l.toNat a.toNat 0 0), none) := by
    rw [he]
    rfl
  refine encodes_short he2 ho hB fun _ y => ?_
  rw [hd _ _ (opField_head _ _ ho hB)]
  simp only [shortOnly, show ((3#2 : BitVec 2) == 3) = true from rfl, show ((0#6 : BitVec 6) == 0) = true from rfl, withScope_code, AmoOp.ofCode_code, shortOnly, longOnly, need, xBit_head _ _ ho hB, fS_head _ _ ho hB, fD, fA, fB, fT, fMode, fM, fImm, fDisp, fSizeType, Bool.not_false, Bool.not_true, Bool.true_or, Bool.false_or, Bool.or_true, Bool.and_true, Bool.true_and, if_true, if_false, Bool.false_eq_true, beq_self_eq_true, b0, b1, b2, b3]

theorem fmtMoff {op : Nat} (ho : op < 256) 
    (hd : ∀ w y, opField w = op → decodeOp w y = (shortOnly w (need (zeroAt w 16 4 && zeroAt w 0 14) .reserved (.ok (.moff (fS w) (fld w 14 2)))))) (s : Stall) (l : BitVec 2)
    (he : (Instr.moff s l).encode = encA s op l.toNat 0 0 0) : Encodes (Instr.moff s l) := by
  have := l.isLt
  have hB : (encBody l.toNat 0 0 0) < 2 ^ 20 := by
    first
    | decide
    | (try simp only [encBody, encVBody, SizeType.code]
       omega)
  have b0 : zeroAt (encHead false s op + (encBody l.toNat 0 0 0)) 16 4 = true := by
    clear hB
    rw [zeroAt_head _ _ _ _ _ _ (by decide)]
    simp only [zeroAt, encBody, encVBody, SizeType.code, beq_iff_eq]
    omega
  have b1 : zeroAt (encHead false s op + (encBody l.toNat 0 0 0)) 0 14 = true := by
    clear hB b0
    rw [zeroAt_head _ _ _ _ _ _ (by decide)]
    simp only [zeroAt, encBody, encVBody, SizeType.code, beq_iff_eq]
    omega
  have b2 : fld (encHead false s op + (encBody l.toNat 0 0 0)) 14 2 = l := by
    clear hB b0 b1
    rw [fld_head _ _ _ _ _ _ (by decide)]
    apply BitVec.eq_of_toNat_eq
    simp only [fld, encBody, encVBody, SizeType.code, BitVec.toNat_ofNat]
    omega
  have he2 : (Instr.moff s l).encode = some (encHead false s op + (encBody l.toNat 0 0 0), none) := by
    rw [he]
    rfl
  refine encodes_short he2 ho hB fun _ y => ?_
  rw [hd _ _ (opField_head _ _ ho hB)]
  simp only [shortOnly, show ((3#2 : BitVec 2) == 3) = true from rfl, show ((0#6 : BitVec 6) == 0) = true from rfl, withScope_code, AmoOp.ofCode_code, shortOnly, longOnly, need, xBit_head _ _ ho hB, fS_head _ _ ho hB, fD, fA, fB, fT, fMode, fM, fImm, fDisp, fSizeType, Bool.not_false, Bool.not_true, Bool.true_or, Bool.false_or, Bool.or_true, Bool.and_true, Bool.true_and, if_true, if_false, Bool.false_eq_true, beq_self_eq_true, b0, b1, b2]

theorem fmtBarClu {op : Nat} (ho : op < 256) 
    (hd : ∀ w y, opField w = op → decodeOp w y = (shortOnly w (need (zeroAt w 2 18) .reserved (match w % 4 with | 0 => .ok (.barClu (fS w)) | 1 => .ok (.barGang (fS w)) | _ => .error .code)))) (s : Stall)
    (he : (Instr.barClu s).encode = encA s op 0 0 0 0) : Encodes (Instr.barClu s) := by
  have hB : (encBody 0 0 0 0) < 2 ^ 20 := by
    decide
  have b0 : zeroAt (encHead false s op + (encBody 0 0 0 0)) 2 18 = true := by
    clear hB
    rw [zeroAt_head _ _ _ _ _ _ (by decide)]
    simp only [zeroAt, encBody, encVBody, SizeType.code, beq_iff_eq]
    rfl
  have b1 : (encHead false s op + (encBody 0 0 0 0)) % 4 = 0 := by
    clear hB b0
    simp only [encHead, encBody]
    omega
  have he2 : (Instr.barClu s).encode = some (encHead false s op + (encBody 0 0 0 0), none) := by
    rw [he]
    rfl
  refine encodes_short he2 ho hB fun _ y => ?_
  rw [hd _ _ (opField_head _ _ ho hB)]
  simp only [shortOnly, show ((3#2 : BitVec 2) == 3) = true from rfl, show ((0#6 : BitVec 6) == 0) = true from rfl, withScope_code, AmoOp.ofCode_code, shortOnly, longOnly, need, xBit_head _ _ ho hB, fS_head _ _ ho hB, fD, fA, fB, fT, fMode, fM, fImm, fDisp, fSizeType, Bool.not_false, Bool.not_true, Bool.true_or, Bool.false_or, Bool.or_true, Bool.and_true, Bool.true_and, if_true, if_false, Bool.false_eq_true, beq_self_eq_true, b0, b1]

theorem fmtBarGang {op : Nat} (ho : op < 256) 
    (hd : ∀ w y, opField w = op → decodeOp w y = (shortOnly w (need (zeroAt w 2 18) .reserved (match w % 4 with | 0 => .ok (.barClu (fS w)) | 1 => .ok (.barGang (fS w)) | _ => .error .code)))) (s : Stall)
    (he : (Instr.barGang s).encode = encA s op 0 0 0 1) : Encodes (Instr.barGang s) := by
  have hB : (encBody 0 0 0 1) < 2 ^ 20 := by
    decide
  have b0 : zeroAt (encHead false s op + (encBody 0 0 0 1)) 2 18 = true := by
    clear hB
    rw [zeroAt_head _ _ _ _ _ _ (by decide)]
    simp only [zeroAt, encBody, encVBody, SizeType.code, beq_iff_eq]
    rfl
  have b1 : (encHead false s op + (encBody 0 0 0 1)) % 4 = 1 := by
    clear hB b0
    simp only [encHead, encBody]
    omega
  have he2 : (Instr.barGang s).encode = some (encHead false s op + (encBody 0 0 0 1), none) := by
    rw [he]
    rfl
  refine encodes_short he2 ho hB fun _ y => ?_
  rw [hd _ _ (opField_head _ _ ho hB)]
  simp only [shortOnly, show ((3#2 : BitVec 2) == 3) = true from rfl, show ((0#6 : BitVec 6) == 0) = true from rfl, withScope_code, AmoOp.ofCode_code, shortOnly, longOnly, need, xBit_head _ _ ho hB, fS_head _ _ ho hB, fD, fA, fB, fT, fMode, fM, fImm, fDisp, fSizeType, Bool.not_false, Bool.not_true, Bool.true_or, Bool.false_or, Bool.or_true, Bool.and_true, Bool.true_and, if_true, if_false, Bool.false_eq_true, beq_self_eq_true, b0, b1]

theorem fmtVL {op : Nat} (ho : op < 256) {vop : VecOp}
    (hd : ∀ w y, opField w = op → xBit w = true → decodeOp w y = decVL w y vop) (s : Stall) (d : VReg) (a : VReg) (b : VReg) (k : KReg) (t : BitVec 2) (x : VExt)
    (he : (Instr.vectorLong s vop d a b k t x).encode = some (encHead true s op + encVBody d.toNat a.toNat b.toNat k.toNat t.toNat, some x.word)) : Encodes (Instr.vectorLong s vop d a b k t x) := by
  have := d.isLt
  have := a.isLt
  have := b.isLt
  have := k.isLt
  have := t.isLt
  have := x.vc.isLt
  have := x.q.isLt
  have := x.rm.isLt
  have := x.tx.isLt
  have := Bool.toNat_lt x.pd
  have := Bool.toNat_lt x.pa
  have := Bool.toNat_lt x.pb
  have := Bool.toNat_lt x.sat
  have hE : (x.vc.toNat * 2 ^ 27 + x.q.toNat * 2 ^ 21 + x.pd.toNat * 2 ^ 20 + x.pa.toNat * 2 ^ 19 + x.pb.toNat * 2 ^ 18 + x.rm.toNat * 2 ^ 16 + x.sat.toNat * 2 ^ 15 + x.tx.toNat * 2 ^ 13) < 2 ^ 32 := by
    try simp only [encBC, VExt.word, Nat.reducePow]
    omega
  have e0 : zeroAt (x.vc.toNat * 2 ^ 27 + x.q.toNat * 2 ^ 21 + x.pd.toNat * 2 ^ 20 + x.pa.toNat * 2 ^ 19 + x.pb.toNat * 2 ^ 18 + x.rm.toNat * 2 ^ 16 + x.sat.toNat * 2 ^ 15 + x.tx.toNat * 2 ^ 13) 0 13 = true := by
    clear hE
    simp only [zeroAt, encBC, VExt.word, Nat.reducePow, beq_iff_eq]
    first | omega | rfl
  have e1 : fld (x.vc.toNat * 2 ^ 27 + x.q.toNat * 2 ^ 21 + x.pd.toNat * 2 ^ 20 + x.pa.toNat * 2 ^ 19 + x.pb.toNat * 2 ^ 18 + x.rm.toNat * 2 ^ 16 + x.sat.toNat * 2 ^ 15 + x.tx.toNat * 2 ^ 13) 27 5 = x.vc := by
    clear hE e0
    apply BitVec.eq_of_toNat_eq
    simp only [fld, encBC, VExt.word, Nat.reducePow, BitVec.toNat_ofNat]
    omega
  have e2 : fld (x.vc.toNat * 2 ^ 27 + x.q.toNat * 2 ^ 21 + x.pd.toNat * 2 ^ 20 + x.pa.toNat * 2 ^ 19 + x.pb.toNat * 2 ^ 18 + x.rm.toNat * 2 ^ 16 + x.sat.toNat * 2 ^ 15 + x.tx.toNat * 2 ^ 13) 21 6 = x.q := by
    clear hE e0 e1
    apply BitVec.eq_of_toNat_eq
    simp only [fld, encBC, VExt.word, Nat.reducePow, BitVec.toNat_ofNat]
    omega
  have e3 : bitAt (x.vc.toNat * 2 ^ 27 + x.q.toNat * 2 ^ 21 + x.pd.toNat * 2 ^ 20 + x.pa.toNat * 2 ^ 19 + x.pb.toNat * 2 ^ 18 + x.rm.toNat * 2 ^ 16 + x.sat.toNat * 2 ^ 15 + x.tx.toNat * 2 ^ 13) 20 = x.pd := by
    clear hE e0 e1 e2
    have h : (x.vc.toNat * 2 ^ 27 + x.q.toNat * 2 ^ 21 + x.pd.toNat * 2 ^ 20 + x.pa.toNat * 2 ^ 19 + x.pb.toNat * 2 ^ 18 + x.rm.toNat * 2 ^ 16 + x.sat.toNat * 2 ^ 15 + x.tx.toNat * 2 ^ 13) / 2 ^ 20 % 2 = Bool.toNat x.pd := by
      try simp only [encBC, VExt.word, Nat.reducePow]
      omega
    rw [bitAt, h]
    cases x.pd <;> rfl
  have e4 : bitAt (x.vc.toNat * 2 ^ 27 + x.q.toNat * 2 ^ 21 + x.pd.toNat * 2 ^ 20 + x.pa.toNat * 2 ^ 19 + x.pb.toNat * 2 ^ 18 + x.rm.toNat * 2 ^ 16 + x.sat.toNat * 2 ^ 15 + x.tx.toNat * 2 ^ 13) 19 = x.pa := by
    clear hE e0 e1 e2 e3
    have h : (x.vc.toNat * 2 ^ 27 + x.q.toNat * 2 ^ 21 + x.pd.toNat * 2 ^ 20 + x.pa.toNat * 2 ^ 19 + x.pb.toNat * 2 ^ 18 + x.rm.toNat * 2 ^ 16 + x.sat.toNat * 2 ^ 15 + x.tx.toNat * 2 ^ 13) / 2 ^ 19 % 2 = Bool.toNat x.pa := by
      try simp only [encBC, VExt.word, Nat.reducePow]
      omega
    rw [bitAt, h]
    cases x.pa <;> rfl
  have e5 : bitAt (x.vc.toNat * 2 ^ 27 + x.q.toNat * 2 ^ 21 + x.pd.toNat * 2 ^ 20 + x.pa.toNat * 2 ^ 19 + x.pb.toNat * 2 ^ 18 + x.rm.toNat * 2 ^ 16 + x.sat.toNat * 2 ^ 15 + x.tx.toNat * 2 ^ 13) 18 = x.pb := by
    clear hE e0 e1 e2 e3 e4
    have h : (x.vc.toNat * 2 ^ 27 + x.q.toNat * 2 ^ 21 + x.pd.toNat * 2 ^ 20 + x.pa.toNat * 2 ^ 19 + x.pb.toNat * 2 ^ 18 + x.rm.toNat * 2 ^ 16 + x.sat.toNat * 2 ^ 15 + x.tx.toNat * 2 ^ 13) / 2 ^ 18 % 2 = Bool.toNat x.pb := by
      try simp only [encBC, VExt.word, Nat.reducePow]
      omega
    rw [bitAt, h]
    cases x.pb <;> rfl
  have e6 : fld (x.vc.toNat * 2 ^ 27 + x.q.toNat * 2 ^ 21 + x.pd.toNat * 2 ^ 20 + x.pa.toNat * 2 ^ 19 + x.pb.toNat * 2 ^ 18 + x.rm.toNat * 2 ^ 16 + x.sat.toNat * 2 ^ 15 + x.tx.toNat * 2 ^ 13) 16 2 = x.rm := by
    clear hE e0 e1 e2 e3 e4 e5
    apply BitVec.eq_of_toNat_eq
    simp only [fld, encBC, VExt.word, Nat.reducePow, BitVec.toNat_ofNat]
    omega
  have e7 : bitAt (x.vc.toNat * 2 ^ 27 + x.q.toNat * 2 ^ 21 + x.pd.toNat * 2 ^ 20 + x.pa.toNat * 2 ^ 19 + x.pb.toNat * 2 ^ 18 + x.rm.toNat * 2 ^ 16 + x.sat.toNat * 2 ^ 15 + x.tx.toNat * 2 ^ 13) 15 = x.sat := by
    clear hE e0 e1 e2 e3 e4 e5 e6
    have h : (x.vc.toNat * 2 ^ 27 + x.q.toNat * 2 ^ 21 + x.pd.toNat * 2 ^ 20 + x.pa.toNat * 2 ^ 19 + x.pb.toNat * 2 ^ 18 + x.rm.toNat * 2 ^ 16 + x.sat.toNat * 2 ^ 15 + x.tx.toNat * 2 ^ 13) / 2 ^ 15 % 2 = Bool.toNat x.sat := by
      try simp only [encBC, VExt.word, Nat.reducePow]
      omega
    rw [bitAt, h]
    cases x.sat <;> rfl
  have e8 : fld (x.vc.toNat * 2 ^ 27 + x.q.toNat * 2 ^ 21 + x.pd.toNat * 2 ^ 20 + x.pa.toNat * 2 ^ 19 + x.pb.toNat * 2 ^ 18 + x.rm.toNat * 2 ^ 16 + x.sat.toNat * 2 ^ 15 + x.tx.toNat * 2 ^ 13) 13 2 = x.tx := by
    clear hE e0 e1 e2 e3 e4 e5 e6 e7
    apply BitVec.eq_of_toNat_eq
    simp only [fld, encBC, VExt.word, Nat.reducePow, BitVec.toNat_ofNat]
    omega
  have hB : (encVBody d.toNat a.toNat b.toNat k.toNat t.toNat) < 2 ^ 20 := by
    clear hE e0 e1 e2 e3 e4 e5 e6 e7 e8
    first
    | decide
    | (try simp only [encBody, encVBody, SizeType.code]
       omega)
  have b0 : fld (encHead true s op + (encVBody d.toNat a.toNat b.toNat k.toNat t.toNat)) 15 5 = d := by
    clear hE e0 e1 e2 e3 e4 e5 e6 e7 e8 hB
    rw [fld_head _ _ _ _ _ _ (by decide)]
    apply BitVec.eq_of_toNat_eq
    simp only [fld, encBody, encVBody, SizeType.code, BitVec.toNat_ofNat]
    omega
  have b1 : fld (encHead true s op + (encVBody d.toNat a.toNat b.toNat k.toNat t.toNat)) 10 5 = a := by
    clear hE e0 e1 e2 e3 e4 e5 e6 e7 e8 hB b0
    rw [fld_head _ _ _ _ _ _ (by decide)]
    apply BitVec.eq_of_toNat_eq
    simp only [fld, encBody, encVBody, SizeType.code, BitVec.toNat_ofNat]
    omega
  have b2 : fld (encHead true s op + (encVBody d.toNat a.toNat b.toNat k.toNat t.toNat)) 5 5 = b := by
    clear hE e0 e1 e2 e3 e4 e5 e6 e7 e8 hB b0 b1
    rw [fld_head _ _ _ _ _ _ (by decide)]
    apply BitVec.eq_of_toNat_eq
    simp only [fld, encBody, encVBody, SizeType.code, BitVec.toNat_ofNat]
    omega
  have b3 : fld (encHead true s op + (encVBody d.toNat a.toNat b.toNat k.toNat t.toNat)) 2 3 = k := by
    clear hE e0 e1 e2 e3 e4 e5 e6 e7 e8 hB b0 b1 b2
    rw [fld_head _ _ _ _ _ _ (by decide)]
    apply BitVec.eq_of_toNat_eq
    simp only [fld, encBody, encVBody, SizeType.code, BitVec.toNat_ofNat]
    omega
  have b4 : fld (encHead true s op + (encVBody d.toNat a.toNat b.toNat k.toNat t.toNat)) 0 2 = t := by
    clear hE e0 e1 e2 e3 e4 e5 e6 e7 e8 hB b0 b1 b2 b3
    rw [fld_head _ _ _ _ _ _ (by decide)]
    apply BitVec.eq_of_toNat_eq
    simp only [fld, encBody, encVBody, SizeType.code, BitVec.toNat_ofNat]
    omega
  have he2 : (Instr.vectorLong s vop d a b k t x).encode = some (encHead true s op + (encVBody d.toNat a.toNat b.toNat k.toNat t.toNat), some (x.vc.toNat * 2 ^ 27 + x.q.toNat * 2 ^ 21 + x.pd.toNat * 2 ^ 20 + x.pa.toNat * 2 ^ 19 + x.pb.toNat * 2 ^ 18 + x.rm.toNat * 2 ^ 16 + x.sat.toNat * 2 ^ 15 + x.tx.toNat * 2 ^ 13)) := by
    rw [he]
    rfl
  refine encodes_long he2 ho hB hE fun _ => ?_
  rw [hd _ _ (opField_head _ _ ho hB) (xBit_head _ _ ho hB)]
  simp only [decVL, fVExt, show ((3#2 : BitVec 2) == 3) = true from rfl, show ((0#6 : BitVec 6) == 0) = true from rfl, withScope_code, AmoOp.ofCode_code, shortOnly, longOnly, need, xBit_head _ _ ho hB, fS_head _ _ ho hB, fD, fA, fB, fT, fMode, fM, fImm, fDisp, fSizeType, Bool.not_false, Bool.not_true, Bool.true_or, Bool.false_or, Bool.or_true, Bool.and_true, Bool.true_and, if_true, if_false, Bool.false_eq_true, beq_self_eq_true, e0, e1, e2, e3, e4, e5, e6, e7, e8, b0, b1, b2, b3, b4]

theorem fmtMzero {op : Nat} (ho : op < 256) 
    (hd : ∀ w y, opField w = op → decodeOp w y = (longOnly w (need (zeroAt w 0 20 && zeroAt y 26 6 && zeroAt y 0 25) .reserved (.ok (.mzero (fS w) (bitAt y 25)))))) (s : Stall) (q : Bool)
    (he : (Instr.mzero s q).encode = encAL s op 0 0 0 0 (q.toNat * 2 ^ 25)) : Encodes (Instr.mzero s q) := by
  have := Bool.toNat_lt q
  have hE : (q.toNat * 2 ^ 25) < 2 ^ 32 := by
    try simp only [encBC, VExt.word, Nat.reducePow]
    omega
  have e0 : zeroAt (q.toNat * 2 ^ 25) 26 6 = true := by
    clear hE
    simp only [zeroAt, encBC, VExt.word, Nat.reducePow, beq_iff_eq]
    first | omega | rfl
  have e1 : zeroAt (q.toNat * 2 ^ 25) 0 25 = true := by
    clear hE e0
    simp only [zeroAt, encBC, VExt.word, Nat.reducePow, beq_iff_eq]
    first | omega | rfl
  have e2 : bitAt (q.toNat * 2 ^ 25) 25 = q := by
    clear hE e0 e1
    have h : (q.toNat * 2 ^ 25) / 2 ^ 25 % 2 = Bool.toNat q := by
      try simp only [encBC, VExt.word, Nat.reducePow]
      omega
    rw [bitAt, h]
    cases q <;> rfl
  have hB : (encBody 0 0 0 0) < 2 ^ 20 := by
    clear hE e0 e1 e2
    first
    | decide
    | (try simp only [encBody, encVBody, SizeType.code]
       omega)
  have b0 : zeroAt (encHead true s op + (encBody 0 0 0 0)) 0 20 = true := by
    clear hE e0 e1 e2 hB
    rw [zeroAt_head _ _ _ _ _ _ (by decide)]
    simp only [zeroAt, encBody, encVBody, SizeType.code, beq_iff_eq]
    omega
  have he2 : (Instr.mzero s q).encode = some (encHead true s op + (encBody 0 0 0 0), some (q.toNat * 2 ^ 25)) := by
    rw [he]
    rfl
  refine encodes_long he2 ho hB hE fun _ => ?_
  rw [hd _ _ (opField_head _ _ ho hB)]
  simp only [longOnly, show ((3#2 : BitVec 2) == 3) = true from rfl, show ((0#6 : BitVec 6) == 0) = true from rfl, withScope_code, AmoOp.ofCode_code, shortOnly, longOnly, need, xBit_head _ _ ho hB, fS_head _ _ ho hB, fD, fA, fB, fT, fMode, fM, fImm, fDisp, fSizeType, Bool.not_false, Bool.not_true, Bool.true_or, Bool.false_or, Bool.or_true, Bool.and_true, Bool.true_and, if_true, if_false, Bool.false_eq_true, beq_self_eq_true, e0, e1, e2, b0]

theorem fmtMout {op : Nat} (ho : op < 256) 
    (hd : ∀ w y, opField w = op → decodeOp w y = (longOnly w (need (zeroAt w 0 14 && zeroAt y 7 18) .reserved (.ok (.mout (fS w) (fD w) (fld y 26 6) (bitAt y 25) (fld y 0 3) (fld y 3 2) (bitAt y 5) (bitAt y 6)))))) (s : Stall) (d : Reg) (q : Reg) (set : Bool) (ot : BitVec 3) (rm : BitVec 2) (sat : Bool) (incd : Bool)
    (he : (Instr.mout s d q set ot rm sat incd).encode = encAL s op d.toNat 0 0 0 (q.toNat * 2 ^ 26 + set.toNat * 2 ^ 25 + incd.toNat * 2 ^ 6 + sat.toNat * 2 ^ 5 + rm.toNat * 2 ^ 3 + ot.toNat)) : Encodes (Instr.mout s d q set ot rm sat incd) := by
  have := d.isLt
  have := q.isLt
  have := Bool.toNat_lt set
  have := ot.isLt
  have := rm.isLt
  have := Bool.toNat_lt sat
  have := Bool.toNat_lt incd
  have hE : (q.toNat * 2 ^ 26 + set.toNat * 2 ^ 25 + incd.toNat * 2 ^ 6 + sat.toNat * 2 ^ 5 + rm.toNat * 2 ^ 3 + ot.toNat) < 2 ^ 32 := by
    try simp only [encBC, VExt.word, Nat.reducePow]
    omega
  have e0 : zeroAt (q.toNat * 2 ^ 26 + set.toNat * 2 ^ 25 + incd.toNat * 2 ^ 6 + sat.toNat * 2 ^ 5 + rm.toNat * 2 ^ 3 + ot.toNat) 7 18 = true := by
    clear hE
    simp only [zeroAt, encBC, VExt.word, Nat.reducePow, beq_iff_eq]
    first | omega | rfl
  have e1 : fld (q.toNat * 2 ^ 26 + set.toNat * 2 ^ 25 + incd.toNat * 2 ^ 6 + sat.toNat * 2 ^ 5 + rm.toNat * 2 ^ 3 + ot.toNat) 26 6 = q := by
    clear hE e0
    apply BitVec.eq_of_toNat_eq
    simp only [fld, encBC, VExt.word, Nat.reducePow, BitVec.toNat_ofNat]
    omega
  have e2 : bitAt (q.toNat * 2 ^ 26 + set.toNat * 2 ^ 25 + incd.toNat * 2 ^ 6 + sat.toNat * 2 ^ 5 + rm.toNat * 2 ^ 3 + ot.toNat) 25 = set := by
    clear hE e0 e1
    have h : (q.toNat * 2 ^ 26 + set.toNat * 2 ^ 25 + incd.toNat * 2 ^ 6 + sat.toNat * 2 ^ 5 + rm.toNat * 2 ^ 3 + ot.toNat) / 2 ^ 25 % 2 = Bool.toNat set := by
      try simp only [encBC, VExt.word, Nat.reducePow]
      omega
    rw [bitAt, h]
    cases set <;> rfl
  have e3 : fld (q.toNat * 2 ^ 26 + set.toNat * 2 ^ 25 + incd.toNat * 2 ^ 6 + sat.toNat * 2 ^ 5 + rm.toNat * 2 ^ 3 + ot.toNat) 0 3 = ot := by
    clear hE e0 e1 e2
    apply BitVec.eq_of_toNat_eq
    simp only [fld, encBC, VExt.word, Nat.reducePow, BitVec.toNat_ofNat]
    omega
  have e4 : fld (q.toNat * 2 ^ 26 + set.toNat * 2 ^ 25 + incd.toNat * 2 ^ 6 + sat.toNat * 2 ^ 5 + rm.toNat * 2 ^ 3 + ot.toNat) 3 2 = rm := by
    clear hE e0 e1 e2 e3
    apply BitVec.eq_of_toNat_eq
    simp only [fld, encBC, VExt.word, Nat.reducePow, BitVec.toNat_ofNat]
    omega
  have e5 : bitAt (q.toNat * 2 ^ 26 + set.toNat * 2 ^ 25 + incd.toNat * 2 ^ 6 + sat.toNat * 2 ^ 5 + rm.toNat * 2 ^ 3 + ot.toNat) 5 = sat := by
    clear hE e0 e1 e2 e3 e4
    have h : (q.toNat * 2 ^ 26 + set.toNat * 2 ^ 25 + incd.toNat * 2 ^ 6 + sat.toNat * 2 ^ 5 + rm.toNat * 2 ^ 3 + ot.toNat) / 2 ^ 5 % 2 = Bool.toNat sat := by
      try simp only [encBC, VExt.word, Nat.reducePow]
      omega
    rw [bitAt, h]
    cases sat <;> rfl
  have e6 : bitAt (q.toNat * 2 ^ 26 + set.toNat * 2 ^ 25 + incd.toNat * 2 ^ 6 + sat.toNat * 2 ^ 5 + rm.toNat * 2 ^ 3 + ot.toNat) 6 = incd := by
    clear hE e0 e1 e2 e3 e4 e5
    have h : (q.toNat * 2 ^ 26 + set.toNat * 2 ^ 25 + incd.toNat * 2 ^ 6 + sat.toNat * 2 ^ 5 + rm.toNat * 2 ^ 3 + ot.toNat) / 2 ^ 6 % 2 = Bool.toNat incd := by
      try simp only [encBC, VExt.word, Nat.reducePow]
      omega
    rw [bitAt, h]
    cases incd <;> rfl
  have hB : (encBody d.toNat 0 0 0) < 2 ^ 20 := by
    clear hE e0 e1 e2 e3 e4 e5 e6
    first
    | decide
    | (try simp only [encBody, encVBody, SizeType.code]
       omega)
  have b0 : zeroAt (encHead true s op + (encBody d.toNat 0 0 0)) 0 14 = true := by
    clear hE e0 e1 e2 e3 e4 e5 e6 hB
    rw [zeroAt_head _ _ _ _ _ _ (by decide)]
    simp only [zeroAt, encBody, encVBody, SizeType.code, beq_iff_eq]
    omega
  have b1 : fld (encHead true s op + (encBody d.toNat 0 0 0)) 14 6 = d := by
    clear hE e0 e1 e2 e3 e4 e5 e6 hB b0
    rw [fld_head _ _ _ _ _ _ (by decide)]
    apply BitVec.eq_of_toNat_eq
    simp only [fld, encBody, encVBody, SizeType.code, BitVec.toNat_ofNat]
    omega
  have he2 : (Instr.mout s d q set ot rm sat incd).encode = some (encHead true s op + (encBody d.toNat 0 0 0), some (q.toNat * 2 ^ 26 + set.toNat * 2 ^ 25 + incd.toNat * 2 ^ 6 + sat.toNat * 2 ^ 5 + rm.toNat * 2 ^ 3 + ot.toNat)) := by
    rw [he]
    rfl
  refine encodes_long he2 ho hB hE fun _ => ?_
  rw [hd _ _ (opField_head _ _ ho hB)]
  simp only [longOnly, show ((3#2 : BitVec 2) == 3) = true from rfl, show ((0#6 : BitVec 6) == 0) = true from rfl, withScope_code, AmoOp.ofCode_code, shortOnly, longOnly, need, xBit_head _ _ ho hB, fS_head _ _ ho hB, fD, fA, fB, fT, fMode, fM, fImm, fDisp, fSizeType, Bool.not_false, Bool.not_true, Bool.true_or, Bool.false_or, Bool.or_true, Bool.and_true, Bool.true_and, if_true, if_false, Bool.false_eq_true, beq_self_eq_true, e0, e1, e2, e3, e4, e5, e6, b0, b1]

theorem fmtGang {op : Nat} (ho : op < 256) 
    (hd : ∀ w y, opField w = op → decodeOp w y = (longOnly w (need (zeroAt w 0 20 && zeroAt y 0 32) .reserved (.ok (.gang (fS w)))))) (s : Stall)
    (he : (Instr.gang s).encode = encAL s op 0 0 0 0 0) : Encodes (Instr.gang s) := by
  have hE : (0) < 2 ^ 32 := by
    try simp only [encBC, VExt.word, Nat.reducePow]
    omega
  have e0 : zeroAt 0 0 32 = true := by decide
  have hB : (encBody 0 0 0 0) < 2 ^ 20 := by
    clear hE e0
    decide
  have b0 : zeroAt (encHead true s op + (encBody 0 0 0 0)) 0 20 = true := by
    clear hE e0 hB
    rw [zeroAt_head _ _ _ _ _ _ (by decide)]
    simp only [zeroAt, encBody, encVBody, SizeType.code, beq_iff_eq]
    rfl
  have he2 : (Instr.gang s).encode = some (encHead true s op + (encBody 0 0 0 0), some (0)) := by
    rw [he]
    rfl
  refine encodes_long he2 ho hB hE fun _ => ?_
  rw [hd _ _ (opField_head _ _ ho hB)]
  simp only [longOnly, show ((3#2 : BitVec 2) == 3) = true from rfl, show ((0#6 : BitVec 6) == 0) = true from rfl, withScope_code, AmoOp.ofCode_code, shortOnly, longOnly, need, xBit_head _ _ ho hB, fS_head _ _ ho hB, fD, fA, fB, fT, fMode, fM, fImm, fDisp, fSizeType, Bool.not_false, Bool.not_true, Bool.true_or, Bool.false_or, Bool.or_true, Bool.and_true, Bool.true_and, if_true, if_false, Bool.false_eq_true, beq_self_eq_true, e0, b0]

theorem fmtSkset {op : Nat} (ho : op < 256) 
    (hd : ∀ w y, opField w = op → decodeOp w y = (longOnly w (need (zeroAt w 0 20 && zeroAt y 19 13) .reserved (.ok (.skset (fS w) (fld y 0 9) (fld y 9 10)))))) (s : Stall) (base : BitVec 9) (len : BitVec 10)
    (he : (Instr.skset s base len).encode = encAL s op 0 0 0 0 (len.toNat * 2 ^ 9 + base.toNat)) : Encodes (Instr.skset s base len) := by
  have := base.isLt
  have := len.isLt
  have hE : (len.toNat * 2 ^ 9 + base.toNat) < 2 ^ 32 := by
    try simp only [encBC, VExt.word, Nat.reducePow]
    omega
  have e0 : zeroAt (len.toNat * 2 ^ 9 + base.toNat) 19 13 = true := by
    clear hE
    simp only [zeroAt, encBC, VExt.word, Nat.reducePow, beq_iff_eq]
    first | omega | rfl
  have e1 : fld (len.toNat * 2 ^ 9 + base.toNat) 0 9 = base := by
    clear hE e0
    apply BitVec.eq_of_toNat_eq
    simp only [fld, encBC, VExt.word, Nat.reducePow, BitVec.toNat_ofNat]
    omega
  have e2 : fld (len.toNat * 2 ^ 9 + base.toNat) 9 10 = len := by
    clear hE e0 e1
    apply BitVec.eq_of_toNat_eq
    simp only [fld, encBC, VExt.word, Nat.reducePow, BitVec.toNat_ofNat]
    omega
  have hB : (encBody 0 0 0 0) < 2 ^ 20 := by
    clear hE e0 e1 e2
    first
    | decide
    | (try simp only [encBody, encVBody, SizeType.code]
       omega)
  have b0 : zeroAt (encHead true s op + (encBody 0 0 0 0)) 0 20 = true := by
    clear hE e0 e1 e2 hB
    rw [zeroAt_head _ _ _ _ _ _ (by decide)]
    simp only [zeroAt, encBody, encVBody, SizeType.code, beq_iff_eq]
    omega
  have he2 : (Instr.skset s base len).encode = some (encHead true s op + (encBody 0 0 0 0), some (len.toNat * 2 ^ 9 + base.toNat)) := by
    rw [he]
    rfl
  refine encodes_long he2 ho hB hE fun _ => ?_
  rw [hd _ _ (opField_head _ _ ho hB)]
  simp only [longOnly, show ((3#2 : BitVec 2) == 3) = true from rfl, show ((0#6 : BitVec 6) == 0) = true from rfl, withScope_code, AmoOp.ofCode_code, shortOnly, longOnly, need, xBit_head _ _ ho hB, fS_head _ _ ho hB, fD, fA, fB, fT, fMode, fM, fImm, fDisp, fSizeType, Bool.not_false, Bool.not_true, Bool.true_or, Bool.false_or, Bool.or_true, Bool.and_true, Bool.true_and, if_true, if_false, Bool.false_eq_true, beq_self_eq_true, e0, e1, e2, b0]

theorem fmtPush {op : Nat} (ho : op < 256) 
    (hd : ∀ w y, opField w = op → decodeOp w y = (decPort w fun r => need (zeroAt w 1 7) .reserved (.ok (.push (fS w) (fD w) r (bitAt w 0))))) (s : Stall) (d : Reg) (r : BitVec 3) (m : Bool)
    (he : (Instr.push s d r m).encode = encA s op d.toNat r.toNat 0 m.toNat) : Encodes (Instr.push s d r m) := by
  have := d.isLt
  have := r.isLt
  have := Bool.toNat_lt m
  have hB : (encBody d.toNat r.toNat 0 m.toNat) < 2 ^ 20 := by
    first
    | decide
    | (try simp only [encBody, encVBody, SizeType.code]
       omega)
  have b0 : zeroAt (encHead false s op + (encBody d.toNat r.toNat 0 m.toNat)) 11 3 = true := by
    clear hB
    rw [zeroAt_head _ _ _ _ _ _ (by decide)]
    simp only [zeroAt, encBody, encVBody, SizeType.code, beq_iff_eq]
    omega
  have b1 : fld (encHead false s op + (encBody d.toNat r.toNat 0 m.toNat)) 8 3 = r := by
    clear hB b0
    rw [fld_head _ _ _ _ _ _ (by decide)]
    apply BitVec.eq_of_toNat_eq
    simp only [fld, encBody, encVBody, SizeType.code, BitVec.toNat_ofNat]
    omega
  have b2 : zeroAt (encHead false s op + (encBody d.toNat r.toNat 0 m.toNat)) 1 7 = true := by
    clear hB b0 b1
    rw [zeroAt_head _ _ _ _ _ _ (by decide)]
    simp only [zeroAt, encBody, encVBody, SizeType.code, beq_iff_eq]
    omega
  have b3 : fld (encHead false s op + (encBody d.toNat r.toNat 0 m.toNat)) 14 6 = d := by
    clear hB b0 b1 b2
    rw [fld_head _ _ _ _ _ _ (by decide)]
    apply BitVec.eq_of_toNat_eq
    simp only [fld, encBody, encVBody, SizeType.code, BitVec.toNat_ofNat]
    omega
  have b4 : bitAt (encHead false s op + (encBody d.toNat r.toNat 0 m.toNat)) 0 = m := by
    clear hB b0 b1 b2 b3
    rw [bitAt_head _ _ _ _ _ (by decide)]
    have h : (encBody d.toNat r.toNat 0 m.toNat) / 2 ^ 0 % 2 = Bool.toNat m := by
      simp only [encBody, encVBody, SizeType.code, Nat.reducePow]
      omega
    rw [bitAt, h]
    cases m <;> rfl
  have he2 : (Instr.push s d r m).encode = some (encHead false s op + (encBody d.toNat r.toNat 0 m.toNat), none) := by
    rw [he]
    rfl
  refine encodes_short he2 ho hB fun _ y => ?_
  rw [hd _ _ (opField_head _ _ ho hB)]
  simp only [decPort, show ((3#2 : BitVec 2) == 3) = true from rfl, show ((0#6 : BitVec 6) == 0) = true from rfl, withScope_code, AmoOp.ofCode_code, shortOnly, longOnly, need, xBit_head _ _ ho hB, fS_head _ _ ho hB, fD, fA, fB, fT, fMode, fM, fImm, fDisp, fSizeType, Bool.not_false, Bool.not_true, Bool.true_or, Bool.false_or, Bool.or_true, Bool.and_true, Bool.true_and, if_true, if_false, Bool.false_eq_true, beq_self_eq_true, b0, b1, b2, b3, b4]

theorem fmtPushv {op : Nat} (ho : op < 256) 
    (hd : ∀ w y, opField w = op → decodeOp w y = (decPort w fun r => need (zeroAt w 1 7 && zeroAt w 19 1) .reserved (.ok (.pushv (fS w) (fld w 14 5) r (bitAt w 0))))) (s : Stall) (d : VReg) (r : BitVec 3) (m : Bool)
    (he : (Instr.pushv s d r m).encode = encA s op d.toNat r.toNat 0 m.toNat) : Encodes (Instr.pushv s d r m) := by
  have := d.isLt
  have := r.isLt
  have := Bool.toNat_lt m
  have hB : (encBody d.toNat r.toNat 0 m.toNat) < 2 ^ 20 := by
    first
    | decide
    | (try simp only [encBody, encVBody, SizeType.code]
       omega)
  have b0 : zeroAt (encHead false s op + (encBody d.toNat r.toNat 0 m.toNat)) 11 3 = true := by
    clear hB
    rw [zeroAt_head _ _ _ _ _ _ (by decide)]
    simp only [zeroAt, encBody, encVBody, SizeType.code, beq_iff_eq]
    omega
  have b1 : fld (encHead false s op + (encBody d.toNat r.toNat 0 m.toNat)) 8 3 = r := by
    clear hB b0
    rw [fld_head _ _ _ _ _ _ (by decide)]
    apply BitVec.eq_of_toNat_eq
    simp only [fld, encBody, encVBody, SizeType.code, BitVec.toNat_ofNat]
    omega
  have b2 : zeroAt (encHead false s op + (encBody d.toNat r.toNat 0 m.toNat)) 1 7 = true := by
    clear hB b0 b1
    rw [zeroAt_head _ _ _ _ _ _ (by decide)]
    simp only [zeroAt, encBody, encVBody, SizeType.code, beq_iff_eq]
    omega
  have b3 : zeroAt (encHead false s op + (encBody d.toNat r.toNat 0 m.toNat)) 19 1 = true := by
    clear hB b0 b1 b2
    rw [zeroAt_head _ _ _ _ _ _ (by decide)]
    simp only [zeroAt, encBody, encVBody, SizeType.code, beq_iff_eq]
    omega
  have b4 : fld (encHead false s op + (encBody d.toNat r.toNat 0 m.toNat)) 14 5 = d := by
    clear hB b0 b1 b2 b3
    rw [fld_head _ _ _ _ _ _ (by decide)]
    apply BitVec.eq_of_toNat_eq
    simp only [fld, encBody, encVBody, SizeType.code, BitVec.toNat_ofNat]
    omega
  have b5 : bitAt (encHead false s op + (encBody d.toNat r.toNat 0 m.toNat)) 0 = m := by
    clear hB b0 b1 b2 b3 b4
    rw [bitAt_head _ _ _ _ _ (by decide)]
    have h : (encBody d.toNat r.toNat 0 m.toNat) / 2 ^ 0 % 2 = Bool.toNat m := by
      simp only [encBody, encVBody, SizeType.code, Nat.reducePow]
      omega
    rw [bitAt, h]
    cases m <;> rfl
  have he2 : (Instr.pushv s d r m).encode = some (encHead false s op + (encBody d.toNat r.toNat 0 m.toNat), none) := by
    rw [he]
    rfl
  refine encodes_short he2 ho hB fun _ y => ?_
  rw [hd _ _ (opField_head _ _ ho hB)]
  simp only [decPort, show ((3#2 : BitVec 2) == 3) = true from rfl, show ((0#6 : BitVec 6) == 0) = true from rfl, withScope_code, AmoOp.ofCode_code, shortOnly, longOnly, need, xBit_head _ _ ho hB, fS_head _ _ ho hB, fD, fA, fB, fT, fMode, fM, fImm, fDisp, fSizeType, Bool.not_false, Bool.not_true, Bool.true_or, Bool.false_or, Bool.or_true, Bool.and_true, Bool.true_and, if_true, if_false, Bool.false_eq_true, beq_self_eq_true, b0, b1, b2, b3, b4, b5]

theorem fmtPop {op : Nat} (ho : op < 256) 
    (hd : ∀ w y, opField w = op → decodeOp w y = (decPort w fun r => need (zeroAt w 0 2) .reserved (.ok (.pop (fS w) (fD w) r (fB w))))) (s : Stall) (d : Reg) (r : BitVec 3) (b : Reg)
    (he : (Instr.pop s d r b).encode = encA s op d.toNat r.toNat b.toNat 0) : Encodes (Instr.pop s d r b) := by
  have := d.isLt
  have := r.isLt
  have := b.isLt
  have hB : (encBody d.toNat r.toNat b.toNat 0) < 2 ^ 20 := by
    first
    | decide
    | (try simp only [encBody, encVBody, SizeType.code]
       omega)
  have b0 : zeroAt (encHead false s op + (encBody d.toNat r.toNat b.toNat 0)) 11 3 = true := by
    clear hB
    rw [zeroAt_head _ _ _ _ _ _ (by decide)]
    simp only [zeroAt, encBody, encVBody, SizeType.code, beq_iff_eq]
    omega
  have b1 : fld (encHead false s op + (encBody d.toNat r.toNat b.toNat 0)) 8 3 = r := by
    clear hB b0
    rw [fld_head _ _ _ _ _ _ (by decide)]
    apply BitVec.eq_of_toNat_eq
    simp only [fld, encBody, encVBody, SizeType.code, BitVec.toNat_ofNat]
    omega
  have b2 : zeroAt (encHead false s op + (encBody d.toNat r.toNat b.toNat 0)) 0 2 = true := by
    clear hB b0 b1
    rw [zeroAt_head _ _ _ _ _ _ (by decide)]
    simp only [zeroAt, encBody, encVBody, SizeType.code, beq_iff_eq]
    omega
  have b3 : fld (encHead false s op + (encBody d.toNat r.toNat b.toNat 0)) 14 6 = d := by
    clear hB b0 b1 b2
    rw [fld_head _ _ _ _ _ _ (by decide)]
    apply BitVec.eq_of_toNat_eq
    simp only [fld, encBody, encVBody, SizeType.code, BitVec.toNat_ofNat]
    omega
  have b4 : fld (encHead false s op + (encBody d.toNat r.toNat b.toNat 0)) 2 6 = b := by
    clear hB b0 b1 b2 b3
    rw [fld_head _ _ _ _ _ _ (by decide)]
    apply BitVec.eq_of_toNat_eq
    simp only [fld, encBody, encVBody, SizeType.code, BitVec.toNat_ofNat]
    omega
  have he2 : (Instr.pop s d r b).encode = some (encHead false s op + (encBody d.toNat r.toNat b.toNat 0), none) := by
    rw [he]
    rfl
  refine encodes_short he2 ho hB fun _ y => ?_
  rw [hd _ _ (opField_head _ _ ho hB)]
  simp only [decPort, show ((3#2 : BitVec 2) == 3) = true from rfl, show ((0#6 : BitVec 6) == 0) = true from rfl, withScope_code, AmoOp.ofCode_code, shortOnly, longOnly, need, xBit_head _ _ ho hB, fS_head _ _ ho hB, fD, fA, fB, fT, fMode, fM, fImm, fDisp, fSizeType, Bool.not_false, Bool.not_true, Bool.true_or, Bool.false_or, Bool.or_true, Bool.and_true, Bool.true_and, if_true, if_false, Bool.false_eq_true, beq_self_eq_true, b0, b1, b2, b3, b4]

theorem fmtPeek {op : Nat} (ho : op < 256) 
    (hd : ∀ w y, opField w = op → decodeOp w y = (decPort w fun r => need (zeroAt w 0 2) .reserved (.ok (.peek (fS w) (fD w) r (fB w))))) (s : Stall) (d : Reg) (r : BitVec 3) (b : Reg)
    (he : (Instr.peek s d r b).encode = encA s op d.toNat r.toNat b.toNat 0) : Encodes (Instr.peek s d r b) := by
  have := d.isLt
  have := r.isLt
  have := b.isLt
  have hB : (encBody d.toNat r.toNat b.toNat 0) < 2 ^ 20 := by
    first
    | decide
    | (try simp only [encBody, encVBody, SizeType.code]
       omega)
  have b0 : zeroAt (encHead false s op + (encBody d.toNat r.toNat b.toNat 0)) 11 3 = true := by
    clear hB
    rw [zeroAt_head _ _ _ _ _ _ (by decide)]
    simp only [zeroAt, encBody, encVBody, SizeType.code, beq_iff_eq]
    omega
  have b1 : fld (encHead false s op + (encBody d.toNat r.toNat b.toNat 0)) 8 3 = r := by
    clear hB b0
    rw [fld_head _ _ _ _ _ _ (by decide)]
    apply BitVec.eq_of_toNat_eq
    simp only [fld, encBody, encVBody, SizeType.code, BitVec.toNat_ofNat]
    omega
  have b2 : zeroAt (encHead false s op + (encBody d.toNat r.toNat b.toNat 0)) 0 2 = true := by
    clear hB b0 b1
    rw [zeroAt_head _ _ _ _ _ _ (by decide)]
    simp only [zeroAt, encBody, encVBody, SizeType.code, beq_iff_eq]
    omega
  have b3 : fld (encHead false s op + (encBody d.toNat r.toNat b.toNat 0)) 14 6 = d := by
    clear hB b0 b1 b2
    rw [fld_head _ _ _ _ _ _ (by decide)]
    apply BitVec.eq_of_toNat_eq
    simp only [fld, encBody, encVBody, SizeType.code, BitVec.toNat_ofNat]
    omega
  have b4 : fld (encHead false s op + (encBody d.toNat r.toNat b.toNat 0)) 2 6 = b := by
    clear hB b0 b1 b2 b3
    rw [fld_head _ _ _ _ _ _ (by decide)]
    apply BitVec.eq_of_toNat_eq
    simp only [fld, encBody, encVBody, SizeType.code, BitVec.toNat_ofNat]
    omega
  have he2 : (Instr.peek s d r b).encode = some (encHead false s op + (encBody d.toNat r.toNat b.toNat 0), none) := by
    rw [he]
    rfl
  refine encodes_short he2 ho hB fun _ y => ?_
  rw [hd _ _ (opField_head _ _ ho hB)]
  simp only [decPort, show ((3#2 : BitVec 2) == 3) = true from rfl, show ((0#6 : BitVec 6) == 0) = true from rfl, withScope_code, AmoOp.ofCode_code, shortOnly, longOnly, need, xBit_head _ _ ho hB, fS_head _ _ ho hB, fD, fA, fB, fT, fMode, fM, fImm, fDisp, fSizeType, Bool.not_false, Bool.not_true, Bool.true_or, Bool.false_or, Bool.or_true, Bool.and_true, Bool.true_and, if_true, if_false, Bool.false_eq_true, beq_self_eq_true, b0, b1, b2, b3, b4]

theorem fmtPopv {op : Nat} (ho : op < 256) 
    (hd : ∀ w y, opField w = op → decodeOp w y = (decPort w fun r => need (zeroAt w 0 2 && zeroAt w 19 1) .reserved (.ok (.popv (fS w) (fld w 14 5) r (fB w))))) (s : Stall) (d : VReg) (r : BitVec 3) (b : Reg)
    (he : (Instr.popv s d r b).encode = encA s op d.toNat r.toNat b.toNat 0) : Encodes (Instr.popv s d r b) := by
  have := d.isLt
  have := r.isLt
  have := b.isLt
  have hB : (encBody d.toNat r.toNat b.toNat 0) < 2 ^ 20 := by
    first
    | decide
    | (try simp only [encBody, encVBody, SizeType.code]
       omega)
  have b0 : zeroAt (encHead false s op + (encBody d.toNat r.toNat b.toNat 0)) 11 3 = true := by
    clear hB
    rw [zeroAt_head _ _ _ _ _ _ (by decide)]
    simp only [zeroAt, encBody, encVBody, SizeType.code, beq_iff_eq]
    omega
  have b1 : fld (encHead false s op + (encBody d.toNat r.toNat b.toNat 0)) 8 3 = r := by
    clear hB b0
    rw [fld_head _ _ _ _ _ _ (by decide)]
    apply BitVec.eq_of_toNat_eq
    simp only [fld, encBody, encVBody, SizeType.code, BitVec.toNat_ofNat]
    omega
  have b2 : zeroAt (encHead false s op + (encBody d.toNat r.toNat b.toNat 0)) 0 2 = true := by
    clear hB b0 b1
    rw [zeroAt_head _ _ _ _ _ _ (by decide)]
    simp only [zeroAt, encBody, encVBody, SizeType.code, beq_iff_eq]
    omega
  have b3 : zeroAt (encHead false s op + (encBody d.toNat r.toNat b.toNat 0)) 19 1 = true := by
    clear hB b0 b1 b2
    rw [zeroAt_head _ _ _ _ _ _ (by decide)]
    simp only [zeroAt, encBody, encVBody, SizeType.code, beq_iff_eq]
    omega
  have b4 : fld (encHead false s op + (encBody d.toNat r.toNat b.toNat 0)) 14 5 = d := by
    clear hB b0 b1 b2 b3
    rw [fld_head _ _ _ _ _ _ (by decide)]
    apply BitVec.eq_of_toNat_eq
    simp only [fld, encBody, encVBody, SizeType.code, BitVec.toNat_ofNat]
    omega
  have b5 : fld (encHead false s op + (encBody d.toNat r.toNat b.toNat 0)) 2 6 = b := by
    clear hB b0 b1 b2 b3 b4
    rw [fld_head _ _ _ _ _ _ (by decide)]
    apply BitVec.eq_of_toNat_eq
    simp only [fld, encBody, encVBody, SizeType.code, BitVec.toNat_ofNat]
    omega
  have he2 : (Instr.popv s d r b).encode = some (encHead false s op + (encBody d.toNat r.toNat b.toNat 0), none) := by
    rw [he]
    rfl
  refine encodes_short he2 ho hB fun _ y => ?_
  rw [hd _ _ (opField_head _ _ ho hB)]
  simp only [decPort, show ((3#2 : BitVec 2) == 3) = true from rfl, show ((0#6 : BitVec 6) == 0) = true from rfl, withScope_code, AmoOp.ofCode_code, shortOnly, longOnly, need, xBit_head _ _ ho hB, fS_head _ _ ho hB, fD, fA, fB, fT, fMode, fM, fImm, fDisp, fSizeType, Bool.not_false, Bool.not_true, Bool.true_or, Bool.false_or, Bool.or_true, Bool.and_true, Bool.true_and, if_true, if_false, Bool.false_eq_true, beq_self_eq_true, b0, b1, b2, b3, b4, b5]

theorem fmtSsum {op sub : Nat} (ho : op < 256) 
    (hd : ∀ w y, opField w = op → (fD w).toNat = sub → decodeOp w y = (longOnly w (need (zeroAt w 13 1 && zeroAt w 0 2 && zeroAt y 2 18) .reserved (.ok (.ssum (fS w) (fld w 8 5) (fB w) (fld y 26 6) (fld y 20 6) (fld y 0 2)))))) (s : Stall) (d : VReg) (a : Reg) (b : Reg) (c : Reg) (f : BitVec 2) (hs : sub < 64)
    (he : (Instr.ssum s d a b c f).encode = encAL s op sub d.toNat a.toNat 0 (encBC b c + f.toNat)) : Encodes (Instr.ssum s d a b c f) := by
  have := d.isLt
  have := a.isLt
  have := b.isLt
  have := c.isLt
  have := f.isLt
  have hE : (encBC b c + f.toNat) < 2 ^ 32 := by
    try simp only [encBC, VExt.word, Nat.reducePow]
    omega
  have e0 : fld (encBC b c + f.toNat) 26 6 = b := by
    clear hE
    apply BitVec.eq_of_toNat_eq
    simp only [fld, encBC, VExt.word, Nat.reducePow, BitVec.toNat_ofNat]
    omega
  have e1 : fld (encBC b c + f.toNat) 20 6 = c := by
    clear hE e0
    apply BitVec.eq_of_toNat_eq
    simp only [fld, encBC, VExt.word, Nat.reducePow, BitVec.toNat_ofNat]
    omega
  have e2 : fld (encBC b c + f.toNat) 0 2 = f := by
    clear hE e0 e1
    apply BitVec.eq_of_toNat_eq
    simp only [fld, encBC, VExt.word, Nat.reducePow, BitVec.toNat_ofNat]
    omega
  have e3 : zeroAt (encBC b c + f.toNat) 2 18 = true := by
    clear hE e0 e1 e2
    simp only [zeroAt, encBC, VExt.word, Nat.reducePow, beq_iff_eq]
    first | omega | rfl
  have hB : (encBody sub d.toNat a.toNat 0) < 2 ^ 20 := by
    clear hE e0 e1 e2 e3
    first
    | decide
    | (try simp only [encBody, encVBody, SizeType.code]
       omega)
  have b0 : fld (encHead true s op + (encBody sub d.toNat a.toNat 0)) 8 5 = d := by
    clear hE e0 e1 e2 e3 hB
    rw [fld_head _ _ _ _ _ _ (by decide)]
    apply BitVec.eq_of_toNat_eq
    simp only [fld, encBody, encVBody, SizeType.code, BitVec.toNat_ofNat]
    omega
  have b1 : fld (encHead true s op + (encBody sub d.toNat a.toNat 0)) 2 6 = a := by
    clear hE e0 e1 e2 e3 hB b0
    rw [fld_head _ _ _ _ _ _ (by decide)]
    apply BitVec.eq_of_toNat_eq
    simp only [fld, encBody, encVBody, SizeType.code, BitVec.toNat_ofNat]
    omega
  have b2 : zeroAt (encHead true s op + (encBody sub d.toNat a.toNat 0)) 13 1 = true := by
    clear hE e0 e1 e2 e3 hB b0 b1
    rw [zeroAt_head _ _ _ _ _ _ (by decide)]
    simp only [zeroAt, encBody, encVBody, SizeType.code, beq_iff_eq]
    omega
  have b3 : zeroAt (encHead true s op + (encBody sub d.toNat a.toNat 0)) 0 2 = true := by
    clear hE e0 e1 e2 e3 hB b0 b1 b2
    rw [zeroAt_head _ _ _ _ _ _ (by decide)]
    simp only [zeroAt, encBody, encVBody, SizeType.code, beq_iff_eq]
    omega
  have hsub : (fD (encHead true s op + (encBody sub d.toNat a.toNat 0))).toNat = sub := by
    rw [fD, fld_head _ _ _ _ _ _ (by decide)]
    simp only [fld, encBody, BitVec.toNat_ofNat]
    omega
  have he2 : (Instr.ssum s d a b c f).encode = some (encHead true s op + (encBody sub d.toNat a.toNat 0), some (encBC b c + f.toNat)) := by
    rw [he]
    rfl
  refine encodes_long he2 ho hB hE fun _ => ?_
  rw [hd _ _ (opField_head _ _ ho hB) hsub]
  simp only [longOnly, show ((3#2 : BitVec 2) == 3) = true from rfl, show ((0#6 : BitVec 6) == 0) = true from rfl, withScope_code, AmoOp.ofCode_code, shortOnly, longOnly, need, xBit_head _ _ ho hB, fS_head _ _ ho hB, fD, fA, fB, fT, fMode, fM, fImm, fDisp, fSizeType, Bool.not_false, Bool.not_true, Bool.true_or, Bool.false_or, Bool.or_true, Bool.and_true, Bool.true_and, if_true, if_false, Bool.false_eq_true, beq_self_eq_true, e0, e1, e2, e3, b0, b1, b2, b3]

theorem fmtViewMst {op sub : Nat} (ho : op < 256) 
    (hd : ∀ w y, opField w = op → (fD w).toNat = sub → decodeOp w y = (shortOnly w (match w % 4 with | 0 => .ok (.viewRegMst (fS w) (fA w) (fB w)) | 1 => .ok (.viewRegDrv (fS w) (fA w) (fB w)) | _ => .error .code))) (s : Stall) (d : Reg) (a : Reg) (hs : sub < 64)
    (he : (Instr.viewRegMst s d a).encode = encA s op sub d.toNat a.toNat 0) : Encodes (Instr.viewRegMst s d a) := by
  have := d.isLt
  have := a.isLt
  have hB : (encBody sub d.toNat a.toNat 0) < 2 ^ 20 := by
    first
    | decide
    | (try simp only [encBody, encVBody, SizeType.code]
       omega)
  have b0 : fld (encHead false s op + (encBody sub d.toNat a.toNat 0)) 8 6 = d := by
    clear hB
    rw [fld_head _ _ _ _ _ _ (by decide)]
    apply BitVec.eq_of_toNat_eq
    simp only [fld, encBody, encVBody, SizeType.code, BitVec.toNat_ofNat]
    omega
  have b1 : fld (encHead false s op + (encBody sub d.toNat a.toNat 0)) 2 6 = a := by
    clear hB b0
    rw [fld_head _ _ _ _ _ _ (by decide)]
    apply BitVec.eq_of_toNat_eq
    simp only [fld, encBody, encVBody, SizeType.code, BitVec.toNat_ofNat]
    omega
  have b2 : (encHead false s op + (encBody sub d.toNat a.toNat 0)) % 4 = 0 := by
    clear hB b0 b1
    simp only [encHead, encBody]
    omega
  have hsub : (fD (encHead false s op + (encBody sub d.toNat a.toNat 0))).toNat = sub := by
    rw [fD, fld_head _ _ _ _ _ _ (by decide)]
    simp only [fld, encBody, BitVec.toNat_ofNat]
    omega
  have he2 : (Instr.viewRegMst s d a).encode = some (encHead false s op + (encBody sub d.toNat a.toNat 0), none) := by
    rw [he]
    rfl
  refine encodes_short he2 ho hB fun _ y => ?_
  rw [hd _ _ (opField_head _ _ ho hB) hsub]
  simp only [shortOnly, show ((3#2 : BitVec 2) == 3) = true from rfl, show ((0#6 : BitVec 6) == 0) = true from rfl, withScope_code, AmoOp.ofCode_code, shortOnly, longOnly, need, xBit_head _ _ ho hB, fS_head _ _ ho hB, fD, fA, fB, fT, fMode, fM, fImm, fDisp, fSizeType, Bool.not_false, Bool.not_true, Bool.true_or, Bool.false_or, Bool.or_true, Bool.and_true, Bool.true_and, if_true, if_false, Bool.false_eq_true, beq_self_eq_true, b0, b1, b2]

theorem fmtViewDrv {op sub : Nat} (ho : op < 256) 
    (hd : ∀ w y, opField w = op → (fD w).toNat = sub → decodeOp w y = (shortOnly w (match w % 4 with | 0 => .ok (.viewRegMst (fS w) (fA w) (fB w)) | 1 => .ok (.viewRegDrv (fS w) (fA w) (fB w)) | _ => .error .code))) (s : Stall) (d : Reg) (a : Reg) (hs : sub < 64)
    (he : (Instr.viewRegDrv s d a).encode = encA s op sub d.toNat a.toNat 1) : Encodes (Instr.viewRegDrv s d a) := by
  have := d.isLt
  have := a.isLt
  have hB : (encBody sub d.toNat a.toNat 1) < 2 ^ 20 := by
    first
    | decide
    | (try simp only [encBody, encVBody, SizeType.code]
       omega)
  have b0 : fld (encHead false s op + (encBody sub d.toNat a.toNat 1)) 8 6 = d := by
    clear hB
    rw [fld_head _ _ _ _ _ _ (by decide)]
    apply BitVec.eq_of_toNat_eq
    simp only [fld, encBody, encVBody, SizeType.code, BitVec.toNat_ofNat]
    omega
  have b1 : fld (encHead false s op + (encBody sub d.toNat a.toNat 1)) 2 6 = a := by
    clear hB b0
    rw [fld_head _ _ _ _ _ _ (by decide)]
    apply BitVec.eq_of_toNat_eq
    simp only [fld, encBody, encVBody, SizeType.code, BitVec.toNat_ofNat]
    omega
  have b2 : (encHead false s op + (encBody sub d.toNat a.toNat 1)) % 4 = 1 := by
    clear hB b0 b1
    simp only [encHead, encBody]
    omega
  have hsub : (fD (encHead false s op + (encBody sub d.toNat a.toNat 1))).toNat = sub := by
    rw [fD, fld_head _ _ _ _ _ _ (by decide)]
    simp only [fld, encBody, BitVec.toNat_ofNat]
    omega
  have he2 : (Instr.viewRegDrv s d a).encode = some (encHead false s op + (encBody sub d.toNat a.toNat 1), none) := by
    rw [he]
    rfl
  refine encodes_short he2 ho hB fun _ y => ?_
  rw [hd _ _ (opField_head _ _ ho hB) hsub]
  simp only [shortOnly, show ((3#2 : BitVec 2) == 3) = true from rfl, show ((0#6 : BitVec 6) == 0) = true from rfl, withScope_code, AmoOp.ofCode_code, shortOnly, longOnly, need, xBit_head _ _ ho hB, fS_head _ _ ho hB, fD, fA, fB, fT, fMode, fM, fImm, fDisp, fSizeType, Bool.not_false, Bool.not_true, Bool.true_or, Bool.false_or, Bool.or_true, Bool.and_true, Bool.true_and, if_true, if_false, Bool.false_eq_true, beq_self_eq_true, b0, b1, b2]

theorem fmtS2map {op sub : Nat} (ho : op < 256) 
    (hd : ∀ w y, opField w = op → (fD w).toNat = sub → decodeOp w y = (longOnly w (need (zeroAt w 1 1 && zeroAt y 0 26) .reserved (.ok (if bitAt w 0 then .ctxS2mapBead (fS w) (fA w) (fB w) (fld y 26 6) else .ctxS2map (fS w) (fA w) (fB w) (fld y 26 6)))))) (s : Stall) (d : Reg) (a : Reg) (b : Reg) (hs : sub < 64)
    (he : (Instr.ctxS2map s d a b).encode = encAL s op sub d.toNat a.toNat 0 (encBC b 0)) : Encodes (Instr.ctxS2map s d a b) := by
  have := d.isLt
  have := a.isLt
  have := b.isLt
  have hE : (b.toNat * 2 ^ 26) < 2 ^ 32 := by
    try simp only [encBC, VExt.word, Nat.reducePow]
    omega
  have e0 : zeroAt (b.toNat * 2 ^ 26) 0 26 = true := by
    clear hE
    simp only [zeroAt, encBC, VExt.word, Nat.reducePow, beq_iff_eq]
    first | omega | rfl
  have e1 : fld (b.toNat * 2 ^ 26) 26 6 = b := by
    clear hE e0
    apply BitVec.eq_of_toNat_eq
    simp only [fld, encBC, VExt.word, Nat.reducePow, BitVec.toNat_ofNat]
    omega
  have hB : (encBody sub d.toNat a.toNat 0) < 2 ^ 20 := by
    clear hE e0 e1
    first
    | decide
    | (try simp only [encBody, encVBody, SizeType.code]
       omega)
  have b0 : fld (encHead true s op + (encBody sub d.toNat a.toNat 0)) 8 6 = d := by
    clear hE e0 e1 hB
    rw [fld_head _ _ _ _ _ _ (by decide)]
    apply BitVec.eq_of_toNat_eq
    simp only [fld, encBody, encVBody, SizeType.code, BitVec.toNat_ofNat]
    omega
  have b1 : fld (encHead true s op + (encBody sub d.toNat a.toNat 0)) 2 6 = a := by
    clear hE e0 e1 hB b0
    rw [fld_head _ _ _ _ _ _ (by decide)]
    apply BitVec.eq_of_toNat_eq
    simp only [fld, encBody, encVBody, SizeType.code, BitVec.toNat_ofNat]
    omega
  have b2 : zeroAt (encHead true s op + (encBody sub d.toNat a.toNat 0)) 1 1 = true := by
    clear hE e0 e1 hB b0 b1
    rw [zeroAt_head _ _ _ _ _ _ (by decide)]
    simp only [zeroAt, encBody, encVBody, SizeType.code, beq_iff_eq]
    omega
  have b3 : bitAt (encHead true s op + (encBody sub d.toNat a.toNat 0)) 0 = false := by
    clear hE e0 e1 hB b0 b1 b2
    rw [bitAt_head _ _ _ _ _ (by decide)]
    simp only [bitAt, encBody, encVBody, beq_eq_false_iff_ne, beq_iff_eq, ne_eq]
    omega
  have hsub : (fD (encHead true s op + (encBody sub d.toNat a.toNat 0))).toNat = sub := by
    rw [fD, fld_head _ _ _ _ _ _ (by decide)]
    simp only [fld, encBody, BitVec.toNat_ofNat]
    omega
  have he2 : (Instr.ctxS2map s d a b).encode = some (encHead true s op + (encBody sub d.toNat a.toNat 0), some (b.toNat * 2 ^ 26)) := by
    rw [he]
    simp only [encAL, encBC0]
  refine encodes_long he2 ho hB hE fun _ => ?_
  rw [hd _ _ (opField_head _ _ ho hB) hsub]
  simp only [longOnly, show ((3#2 : BitVec 2) == 3) = true from rfl, show ((0#6 : BitVec 6) == 0) = true from rfl, withScope_code, AmoOp.ofCode_code, shortOnly, longOnly, need, xBit_head _ _ ho hB, fS_head _ _ ho hB, fD, fA, fB, fT, fMode, fM, fImm, fDisp, fSizeType, Bool.not_false, Bool.not_true, Bool.true_or, Bool.false_or, Bool.or_true, Bool.and_true, Bool.true_and, if_true, if_false, Bool.false_eq_true, beq_self_eq_true, e0, e1, b0, b1, b2, b3]

theorem fmtS2mapBead {op sub : Nat} (ho : op < 256) 
    (hd : ∀ w y, opField w = op → (fD w).toNat = sub → decodeOp w y = (longOnly w (need (zeroAt w 1 1 && zeroAt y 0 26) .reserved (.ok (if bitAt w 0 then .ctxS2mapBead (fS w) (fA w) (fB w) (fld y 26 6) else .ctxS2map (fS w) (fA w) (fB w) (fld y 26 6)))))) (s : Stall) (d : Reg) (a : Reg) (b : Reg) (hs : sub < 64)
    (he : (Instr.ctxS2mapBead s d a b).encode = encAL s op sub d.toNat a.toNat 1 (encBC b 0)) : Encodes (Instr.ctxS2mapBead s d a b) := by
  have := d.isLt
  have := a.isLt
  have := b.isLt
  have hE : (b.toNat * 2 ^ 26) < 2 ^ 32 := by
    try simp only [encBC, VExt.word, Nat.reducePow]
    omega
  have e0 : zeroAt (b.toNat * 2 ^ 26) 0 26 = true := by
    clear hE
    simp only [zeroAt, encBC, VExt.word, Nat.reducePow, beq_iff_eq]
    first | omega | rfl
  have e1 : fld (b.toNat * 2 ^ 26) 26 6 = b := by
    clear hE e0
    apply BitVec.eq_of_toNat_eq
    simp only [fld, encBC, VExt.word, Nat.reducePow, BitVec.toNat_ofNat]
    omega
  have hB : (encBody sub d.toNat a.toNat 1) < 2 ^ 20 := by
    clear hE e0 e1
    first
    | decide
    | (try simp only [encBody, encVBody, SizeType.code]
       omega)
  have b0 : fld (encHead true s op + (encBody sub d.toNat a.toNat 1)) 8 6 = d := by
    clear hE e0 e1 hB
    rw [fld_head _ _ _ _ _ _ (by decide)]
    apply BitVec.eq_of_toNat_eq
    simp only [fld, encBody, encVBody, SizeType.code, BitVec.toNat_ofNat]
    omega
  have b1 : fld (encHead true s op + (encBody sub d.toNat a.toNat 1)) 2 6 = a := by
    clear hE e0 e1 hB b0
    rw [fld_head _ _ _ _ _ _ (by decide)]
    apply BitVec.eq_of_toNat_eq
    simp only [fld, encBody, encVBody, SizeType.code, BitVec.toNat_ofNat]
    omega
  have b2 : zeroAt (encHead true s op + (encBody sub d.toNat a.toNat 1)) 1 1 = true := by
    clear hE e0 e1 hB b0 b1
    rw [zeroAt_head _ _ _ _ _ _ (by decide)]
    simp only [zeroAt, encBody, encVBody, SizeType.code, beq_iff_eq]
    omega
  have b3 : bitAt (encHead true s op + (encBody sub d.toNat a.toNat 1)) 0 = true := by
    clear hE e0 e1 hB b0 b1 b2
    rw [bitAt_head _ _ _ _ _ (by decide)]
    simp only [bitAt, encBody, encVBody, beq_eq_false_iff_ne, beq_iff_eq, ne_eq]
    omega
  have hsub : (fD (encHead true s op + (encBody sub d.toNat a.toNat 1))).toNat = sub := by
    rw [fD, fld_head _ _ _ _ _ _ (by decide)]
    simp only [fld, encBody, BitVec.toNat_ofNat]
    omega
  have he2 : (Instr.ctxS2mapBead s d a b).encode = some (encHead true s op + (encBody sub d.toNat a.toNat 1), some (b.toNat * 2 ^ 26)) := by
    rw [he]
    simp only [encAL, encBC0]
  refine encodes_long he2 ho hB hE fun _ => ?_
  rw [hd _ _ (opField_head _ _ ho hB) hsub]
  simp only [longOnly, show ((3#2 : BitVec 2) == 3) = true from rfl, show ((0#6 : BitVec 6) == 0) = true from rfl, withScope_code, AmoOp.ofCode_code, shortOnly, longOnly, need, xBit_head _ _ ho hB, fS_head _ _ ho hB, fD, fA, fB, fT, fMode, fM, fImm, fDisp, fSizeType, Bool.not_false, Bool.not_true, Bool.true_or, Bool.false_or, Bool.or_true, Bool.and_true, Bool.true_and, if_true, if_false, Bool.false_eq_true, beq_self_eq_true, e0, e1, b0, b1, b2, b3]

theorem fmtCsrr {op sub : Nat} (ho : op < 256) 
    (hd : ∀ w y, opField w = op → (fD w).toNat = sub → decodeOp w y = (longOnly w (need (zeroAt w 0 8 && zeroAt y 12 20) .reserved (.ok (.csrr (fS w) (fA w) (fld y 0 12)))))) (s : Stall) (d : Reg) (n : BitVec 12) (hs : sub < 64)
    (he : (Instr.csrr s d n).encode = encAL s op sub d.toNat 0 0 n.toNat) : Encodes (Instr.csrr s d n) := by
  have := d.isLt
  have := n.isLt
  have hE : (n.toNat) < 2 ^ 32 := by
    try simp only [encBC, VExt.word, Nat.reducePow]
    omega
  have e0 : zeroAt (n.toNat) 12 20 = true := by
    clear hE
    simp only [zeroAt, encBC, VExt.word, Nat.reducePow, beq_iff_eq]
    first | omega | rfl
  have e1 : fld (n.toNat) 0 12 = n := by
    clear hE e0
    apply BitVec.eq_of_toNat_eq
    simp only [fld, encBC, VExt.word, Nat.reducePow, BitVec.toNat_ofNat]
    omega
  have hB : (encBody sub d.toNat 0 0) < 2 ^ 20 := by
    clear hE e0 e1
    first
    | decide
    | (try simp only [encBody, encVBody, SizeType.code]
       omega)
  have b0 : fld (encHead true s op + (encBody sub d.toNat 0 0)) 8 6 = d := by
    clear hE e0 e1 hB
    rw [fld_head _ _ _ _ _ _ (by decide)]
    apply BitVec.eq_of_toNat_eq
    simp only [fld, encBody, encVBody, SizeType.code, BitVec.toNat_ofNat]
    omega
  have b1 : zeroAt (encHead true s op + (encBody sub d.toNat 0 0)) 0 8 = true := by
    clear hE e0 e1 hB b0
    rw [zeroAt_head _ _ _ _ _ _ (by decide)]
    simp only [zeroAt, encBody, encVBody, SizeType.code, beq_iff_eq]
    omega
  have hsub : (fD (encHead true s op + (encBody sub d.toNat 0 0))).toNat = sub := by
    rw [fD, fld_head _ _ _ _ _ _ (by decide)]
    simp only [fld, encBody, BitVec.toNat_ofNat]
    omega
  have he2 : (Instr.csrr s d n).encode = some (encHead true s op + (encBody sub d.toNat 0 0), some (n.toNat)) := by
    rw [he]
    rfl
  refine encodes_long he2 ho hB hE fun _ => ?_
  rw [hd _ _ (opField_head _ _ ho hB) hsub]
  simp only [longOnly, show ((3#2 : BitVec 2) == 3) = true from rfl, show ((0#6 : BitVec 6) == 0) = true from rfl, withScope_code, AmoOp.ofCode_code, shortOnly, longOnly, need, xBit_head _ _ ho hB, fS_head _ _ ho hB, fD, fA, fB, fT, fMode, fM, fImm, fDisp, fSizeType, Bool.not_false, Bool.not_true, Bool.true_or, Bool.false_or, Bool.or_true, Bool.and_true, Bool.true_and, if_true, if_false, Bool.false_eq_true, beq_self_eq_true, e0, e1, b0, b1]

theorem fmtCsrw {op sub : Nat} (ho : op < 256) {k : Instr}
    (hd : ∀ w y, opField w = op → (fD w).toNat = sub → decodeOp w y = (longOnly w (need (zeroAt w 8 6 && zeroAt w 0 2 && zeroAt y 12 20) .reserved (decCsrw (fS w) (fB w) (fld y 0 12))))) (s : Stall) (a : Reg) (n : BitVec 12) (hs : sub < 64)
    (hk : (k).wf = true → decCsrw s a n = .ok k) (he : (k).encode = encAL s op sub 0 a.toNat 0 n.toNat) : Encodes (k) := by
  have := a.isLt
  have := n.isLt
  have hE : (n.toNat) < 2 ^ 32 := by
    try simp only [encBC, VExt.word, Nat.reducePow]
    omega
  have e0 : zeroAt (n.toNat) 12 20 = true := by
    clear hE
    simp only [zeroAt, encBC, VExt.word, Nat.reducePow, beq_iff_eq]
    first | omega | rfl
  have e1 : fld (n.toNat) 0 12 = n := by
    clear hE e0
    apply BitVec.eq_of_toNat_eq
    simp only [fld, encBC, VExt.word, Nat.reducePow, BitVec.toNat_ofNat]
    omega
  have hB : (encBody sub 0 a.toNat 0) < 2 ^ 20 := by
    clear hE e0 e1
    first
    | decide
    | (try simp only [encBody, encVBody, SizeType.code]
       omega)
  have b0 : fld (encHead true s op + (encBody sub 0 a.toNat 0)) 2 6 = a := by
    clear hE e0 e1 hB
    rw [fld_head _ _ _ _ _ _ (by decide)]
    apply BitVec.eq_of_toNat_eq
    simp only [fld, encBody, encVBody, SizeType.code, BitVec.toNat_ofNat]
    omega
  have b1 : zeroAt (encHead true s op + (encBody sub 0 a.toNat 0)) 8 6 = true := by
    clear hE e0 e1 hB b0
    rw [zeroAt_head _ _ _ _ _ _ (by decide)]
    simp only [zeroAt, encBody, encVBody, SizeType.code, beq_iff_eq]
    omega
  have b2 : zeroAt (encHead true s op + (encBody sub 0 a.toNat 0)) 0 2 = true := by
    clear hE e0 e1 hB b0 b1
    rw [zeroAt_head _ _ _ _ _ _ (by decide)]
    simp only [zeroAt, encBody, encVBody, SizeType.code, beq_iff_eq]
    omega
  have hsub : (fD (encHead true s op + (encBody sub 0 a.toNat 0))).toNat = sub := by
    rw [fD, fld_head _ _ _ _ _ _ (by decide)]
    simp only [fld, encBody, BitVec.toNat_ofNat]
    omega
  have he2 : (k).encode = some (encHead true s op + (encBody sub 0 a.toNat 0), some (n.toNat)) := by
    rw [he]
    rfl
  refine encodes_long he2 ho hB hE fun hw => ?_
  rw [hd _ _ (opField_head _ _ ho hB) hsub]
  simp only [longOnly, hk hw, show ((3#2 : BitVec 2) == 3) = true from rfl, show ((0#6 : BitVec 6) == 0) = true from rfl, withScope_code, AmoOp.ofCode_code, shortOnly, longOnly, need, xBit_head _ _ ho hB, fS_head _ _ ho hB, fD, fA, fB, fT, fMode, fM, fImm, fDisp, fSizeType, Bool.not_false, Bool.not_true, Bool.true_or, Bool.false_or, Bool.or_true, Bool.and_true, Bool.true_and, if_true, if_false, Bool.false_eq_true, beq_self_eq_true, e0, e1, b0, b1, b2]

theorem fmtTrap {op sub : Nat} (ho : op < 256) 
    (hd : ∀ w y, opField w = op → (fD w).toNat = sub → decodeOp w y = (longOnly w (need (zeroAt w 0 14 && zeroAt y 16 16) .reserved (.ok (.trap (fS w) (fld y 0 16)))))) (s : Stall) (n : BitVec 16) (hs : sub < 64)
    (he : (Instr.trap s n).encode = encAL s op sub 0 0 0 n.toNat) : Encodes (Instr.trap s n) := by
  have := n.isLt
  have hE : (n.toNat) < 2 ^ 32 := by
    try simp only [encBC, VExt.word, Nat.reducePow]
    omega
  have e0 : zeroAt (n.toNat) 16 16 = true := by
    clear hE
    simp only [zeroAt, encBC, VExt.word, Nat.reducePow, beq_iff_eq]
    first | omega | rfl
  have e1 : fld (n.toNat) 0 16 = n := by
    clear hE e0
    apply BitVec.eq_of_toNat_eq
    simp only [fld, encBC, VExt.word, Nat.reducePow, BitVec.toNat_ofNat]
    omega
  have hB : (encBody sub 0 0 0) < 2 ^ 20 := by
    clear hE e0 e1
    first
    | decide
    | (try simp only [encBody, encVBody, SizeType.code]
       omega)
  have b0 : zeroAt (encHead true s op + (encBody sub 0 0 0)) 0 14 = true := by
    clear hE e0 e1 hB
    rw [zeroAt_head _ _ _ _ _ _ (by decide)]
    simp only [zeroAt, encBody, encVBody, SizeType.code, beq_iff_eq]
    omega
  have hsub : (fD (encHead true s op + (encBody sub 0 0 0))).toNat = sub := by
    rw [fD, fld_head _ _ _ _ _ _ (by decide)]
    simp only [fld, encBody, BitVec.toNat_ofNat]
    omega
  have he2 : (Instr.trap s n).encode = some (encHead true s op + (encBody sub 0 0 0), some (n.toNat)) := by
    rw [he]
    rfl
  refine encodes_long he2 ho hB hE fun _ => ?_
  rw [hd _ _ (opField_head _ _ ho hB) hsub]
  simp only [longOnly, show ((3#2 : BitVec 2) == 3) = true from rfl, show ((0#6 : BitVec 6) == 0) = true from rfl, withScope_code, AmoOp.ofCode_code, shortOnly, longOnly, need, xBit_head _ _ ho hB, fS_head _ _ ho hB, fD, fA, fB, fT, fMode, fM, fImm, fDisp, fSizeType, Bool.not_false, Bool.not_true, Bool.true_or, Bool.false_or, Bool.or_true, Bool.and_true, Bool.true_and, if_true, if_false, Bool.false_eq_true, beq_self_eq_true, e0, e1, b0]

theorem fmtBrk {op sub : Nat} (ho : op < 256) 
    (hd : ∀ w y, opField w = op → (fD w).toNat = sub → decodeOp w y = (longOnly w (need (zeroAt w 0 14 && zeroAt y 16 16) .reserved (.ok (.brk (fS w) (fld y 0 16)))))) (s : Stall) (n : BitVec 16) (hs : sub < 64)
    (he : (Instr.brk s n).encode = encAL s op sub 0 0 0 n.toNat) : Encodes (Instr.brk s n) := by
  have := n.isLt
  have hE : (n.toNat) < 2 ^ 32 := by
    try simp only [encBC, VExt.word, Nat.reducePow]
    omega
  have e0 : zeroAt (n.toNat) 16 16 = true := by
    clear hE
    simp only [zeroAt, encBC, VExt.word, Nat.reducePow, beq_iff_eq]
    first | omega | rfl
  have e1 : fld (n.toNat) 0 16 = n := by
    clear hE e0
    apply BitVec.eq_of_toNat_eq
    simp only [fld, encBC, VExt.word, Nat.reducePow, BitVec.toNat_ofNat]
    omega
  have hB : (encBody sub 0 0 0) < 2 ^ 20 := by
    clear hE e0 e1
    first
    | decide
    | (try simp only [encBody, encVBody, SizeType.code]
       omega)
  have b0 : zeroAt (encHead true s op + (encBody sub 0 0 0)) 0 14 = true := by
    clear hE e0 e1 hB
    rw [zeroAt_head _ _ _ _ _ _ (by decide)]
    simp only [zeroAt, encBody, encVBody, SizeType.code, beq_iff_eq]
    omega
  have hsub : (fD (encHead true s op + (encBody sub 0 0 0))).toNat = sub := by
    rw [fD, fld_head _ _ _ _ _ _ (by decide)]
    simp only [fld, encBody, BitVec.toNat_ofNat]
    omega
  have he2 : (Instr.brk s n).encode = some (encHead true s op + (encBody sub 0 0 0), some (n.toNat)) := by
    rw [he]
    rfl
  refine encodes_long he2 ho hB hE fun _ => ?_
  rw [hd _ _ (opField_head _ _ ho hB) hsub]
  simp only [longOnly, show ((3#2 : BitVec 2) == 3) = true from rfl, show ((0#6 : BitVec 6) == 0) = true from rfl, withScope_code, AmoOp.ofCode_code, shortOnly, longOnly, need, xBit_head _ _ ho hB, fS_head _ _ ho hB, fD, fA, fB, fT, fMode, fM, fImm, fDisp, fSizeType, Bool.not_false, Bool.not_true, Bool.true_or, Bool.false_or, Bool.or_true, Bool.and_true, Bool.true_and, if_true, if_false, Bool.false_eq_true, beq_self_eq_true, e0, e1, b0]

theorem fmtUpret {op sub : Nat} (ho : op < 256) 
    (hd : ∀ w y, opField w = op → (fD w).toNat = sub → decodeOp w y = (longOnly w (need (zeroAt w 8 6 && zeroAt w 0 2 && zeroAt y 0 26) .reserved (.ok (.upret (fS w) (fB w) (fld y 26 6)))))) (s : Stall) (a : Reg) (b : Reg) (hs : sub < 64)
    (he : (Instr.upret s a b).encode = encAL s op sub 0 a.toNat 0 (encBC b 0)) : Encodes (Instr.upret s a b) := by
  have := a.isLt
  have := b.isLt
  have hE : (b.toNat * 2 ^ 26) < 2 ^ 32 := by
    try simp only [encBC, VExt.word, Nat.reducePow]
    omega
  have e0 : zeroAt (b.toNat * 2 ^ 26) 0 26 = true := by
    clear hE
    simp only [zeroAt, encBC, VExt.word, Nat.reducePow, beq_iff_eq]
    first | omega | rfl
  have e1 : fld (b.toNat * 2 ^ 26) 26 6 = b := by
    clear hE e0
    apply BitVec.eq_of_toNat_eq
    simp only [fld, encBC, VExt.word, Nat.reducePow, BitVec.toNat_ofNat]
    omega
  have hB : (encBody sub 0 a.toNat 0) < 2 ^ 20 := by
    clear hE e0 e1
    first
    | decide
    | (try simp only [encBody, encVBody, SizeType.code]
       omega)
  have b0 : fld (encHead true s op + (encBody sub 0 a.toNat 0)) 2 6 = a := by
    clear hE e0 e1 hB
    rw [fld_head _ _ _ _ _ _ (by decide)]
    apply BitVec.eq_of_toNat_eq
    simp only [fld, encBody, encVBody, SizeType.code, BitVec.toNat_ofNat]
    omega
  have b1 : zeroAt (encHead true s op + (encBody sub 0 a.toNat 0)) 8 6 = true := by
    clear hE e0 e1 hB b0
    rw [zeroAt_head _ _ _ _ _ _ (by decide)]
    simp only [zeroAt, encBody, encVBody, SizeType.code, beq_iff_eq]
    omega
  have b2 : zeroAt (encHead true s op + (encBody sub 0 a.toNat 0)) 0 2 = true := by
    clear hE e0 e1 hB b0 b1
    rw [zeroAt_head _ _ _ _ _ _ (by decide)]
    simp only [zeroAt, encBody, encVBody, SizeType.code, beq_iff_eq]
    omega
  have hsub : (fD (encHead true s op + (encBody sub 0 a.toNat 0))).toNat = sub := by
    rw [fD, fld_head _ _ _ _ _ _ (by decide)]
    simp only [fld, encBody, BitVec.toNat_ofNat]
    omega
  have he2 : (Instr.upret s a b).encode = some (encHead true s op + (encBody sub 0 a.toNat 0), some (b.toNat * 2 ^ 26)) := by
    rw [he]
    simp only [encAL, encBC0]
  refine encodes_long he2 ho hB hE fun _ => ?_
  rw [hd _ _ (opField_head _ _ ho hB) hsub]
  simp only [longOnly, show ((3#2 : BitVec 2) == 3) = true from rfl, show ((0#6 : BitVec 6) == 0) = true from rfl, withScope_code, AmoOp.ofCode_code, shortOnly, longOnly, need, xBit_head _ _ ho hB, fS_head _ _ ho hB, fD, fA, fB, fT, fMode, fM, fImm, fDisp, fSizeType, Bool.not_false, Bool.not_true, Bool.true_or, Bool.false_or, Bool.or_true, Bool.and_true, Bool.true_and, if_true, if_false, Bool.false_eq_true, beq_self_eq_true, e0, e1, b0, b1, b2]

theorem fmtTlbinv {op sub : Nat} (ho : op < 256) 
    (hd : ∀ w y, opField w = op → (fD w).toNat = sub → decodeOp w y = (longOnly w (need (zeroAt w 8 6 && zeroAt w 0 2 && zeroAt y 3 29) .reserved (withScope (y % 8) fun sc => .ok (.tlbinv (fS w) (fB w) sc))))) (s : Stall) (a : Reg) (sc : Scope) (hs : sub < 64)
    (he : (Instr.tlbinv s a sc).encode = encAL s op sub 0 a.toNat 0 sc.code) : Encodes (Instr.tlbinv s a sc) := by
  have := a.isLt
  have := Scope.code_lt sc
  have hE : (sc.code) < 2 ^ 32 := by
    try simp only [encBC, VExt.word, Nat.reducePow]
    omega
  have e0 : zeroAt (sc.code) 3 29 = true := by
    clear hE
    simp only [zeroAt, encBC, VExt.word, Nat.reducePow, beq_iff_eq]
    first | omega | rfl
  have e1 : (sc.code) % 8 = sc.code := by
    clear hE e0
    try simp only [Nat.reducePow]
    omega
  have hB : (encBody sub 0 a.toNat 0) < 2 ^ 20 := by
    clear hE e0 e1
    first
    | decide
    | (try simp only [encBody, encVBody, SizeType.code]
       omega)
  have b0 : fld (encHead true s op + (encBody sub 0 a.toNat 0)) 2 6 = a := by
    clear hE e0 e1 hB
    rw [fld_head _ _ _ _ _ _ (by decide)]
    apply BitVec.eq_of_toNat_eq
    simp only [fld, encBody, encVBody, SizeType.code, BitVec.toNat_ofNat]
    omega
  have b1 : zeroAt (encHead true s op + (encBody sub 0 a.toNat 0)) 8 6 = true := by
    clear hE e0 e1 hB b0
    rw [zeroAt_head _ _ _ _ _ _ (by decide)]
    simp only [zeroAt, encBody, encVBody, SizeType.code, beq_iff_eq]
    omega
  have b2 : zeroAt (encHead true s op + (encBody sub 0 a.toNat 0)) 0 2 = true := by
    clear hE e0 e1 hB b0 b1
    rw [zeroAt_head _ _ _ _ _ _ (by decide)]
    simp only [zeroAt, encBody, encVBody, SizeType.code, beq_iff_eq]
    omega
  have hsub : (fD (encHead true s op + (encBody sub 0 a.toNat 0))).toNat = sub := by
    rw [fD, fld_head _ _ _ _ _ _ (by decide)]
    simp only [fld, encBody, BitVec.toNat_ofNat]
    omega
  have he2 : (Instr.tlbinv s a sc).encode = some (encHead true s op + (encBody sub 0 a.toNat 0), some (sc.code)) := by
    rw [he]
    rfl
  refine encodes_long he2 ho hB hE fun _ => ?_
  rw [hd _ _ (opField_head _ _ ho hB) hsub]
  simp only [longOnly, show ((3#2 : BitVec 2) == 3) = true from rfl, show ((0#6 : BitVec 6) == 0) = true from rfl, withScope_code, AmoOp.ofCode_code, shortOnly, longOnly, need, xBit_head _ _ ho hB, fS_head _ _ ho hB, fD, fA, fB, fT, fMode, fM, fImm, fDisp, fSizeType, Bool.not_false, Bool.not_true, Bool.true_or, Bool.false_or, Bool.or_true, Bool.and_true, Bool.true_and, if_true, if_false, Bool.false_eq_true, beq_self_eq_true, e0, e1, b0, b1, b2]

theorem fmtIcinv {op sub : Nat} (ho : op < 256) 
    (hd : ∀ w y, opField w = op → (fD w).toNat = sub → decodeOp w y = (longOnly w (need (zeroAt w 8 6 && zeroAt w 0 2 && zeroAt y 3 29) .reserved (withScope (y % 8) fun sc => .ok (.icinv (fS w) (fB w) sc))))) (s : Stall) (a : Reg) (sc : Scope) (hs : sub < 64)
    (he : (Instr.icinv s a sc).encode = encAL s op sub 0 a.toNat 0 sc.code) : Encodes (Instr.icinv s a sc) := by
  have := a.isLt
  have := Scope.code_lt sc
  have hE : (sc.code) < 2 ^ 32 := by
    try simp only [encBC, VExt.word, Nat.reducePow]
    omega
  have e0 : zeroAt (sc.code) 3 29 = true := by
    clear hE
    simp only [zeroAt, encBC, VExt.word, Nat.reducePow, beq_iff_eq]
    first | omega | rfl
  have e1 : (sc.code) % 8 = sc.code := by
    clear hE e0
    try simp only [Nat.reducePow]
    omega
  have hB : (encBody sub 0 a.toNat 0) < 2 ^ 20 := by
    clear hE e0 e1
    first
    | decide
    | (try simp only [encBody, encVBody, SizeType.code]
       omega)
  have b0 : fld (encHead true s op + (encBody sub 0 a.toNat 0)) 2 6 = a := by
    clear hE e0 e1 hB
    rw [fld_head _ _ _ _ _ _ (by decide)]
    apply BitVec.eq_of_toNat_eq
    simp only [fld, encBody, encVBody, SizeType.code, BitVec.toNat_ofNat]
    omega
  have b1 : zeroAt (encHead true s op + (encBody sub 0 a.toNat 0)) 8 6 = true := by
    clear hE e0 e1 hB b0
    rw [zeroAt_head _ _ _ _ _ _ (by decide)]
    simp only [zeroAt, encBody, encVBody, SizeType.code, beq_iff_eq]
    omega
  have b2 : zeroAt (encHead true s op + (encBody sub 0 a.toNat 0)) 0 2 = true := by
    clear hE e0 e1 hB b0 b1
    rw [zeroAt_head _ _ _ _ _ _ (by decide)]
    simp only [zeroAt, encBody, encVBody, SizeType.code, beq_iff_eq]
    omega
  have hsub : (fD (encHead true s op + (encBody sub 0 a.toNat 0))).toNat = sub := by
    rw [fD, fld_head _ _ _ _ _ _ (by decide)]
    simp only [fld, encBody, BitVec.toNat_ofNat]
    omega
  have he2 : (Instr.icinv s a sc).encode = some (encHead true s op + (encBody sub 0 a.toNat 0), some (sc.code)) := by
    rw [he]
    rfl
  refine encodes_long he2 ho hB hE fun _ => ?_
  rw [hd _ _ (opField_head _ _ ho hB) hsub]
  simp only [longOnly, show ((3#2 : BitVec 2) == 3) = true from rfl, show ((0#6 : BitVec 6) == 0) = true from rfl, withScope_code, AmoOp.ofCode_code, shortOnly, longOnly, need, xBit_head _ _ ho hB, fS_head _ _ ho hB, fD, fA, fB, fT, fMode, fM, fImm, fDisp, fSizeType, Bool.not_false, Bool.not_true, Bool.true_or, Bool.false_or, Bool.or_true, Bool.and_true, Bool.true_and, if_true, if_false, Bool.false_eq_true, beq_self_eq_true, e0, e1, b0, b1, b2]

end Sys2Proof
end

