-- ==== Sys2Proof/Laws/PerInstr.lean ====
section
/-!
SUPPORT. One lemma per constructor of `Instr`: decoding its encoding gives it back (R240 to R273).
-/

set_option linter.unusedSimpArgs false

namespace Sys2Proof.Laws.Enc

/-- Decoding the encoding of an instruction gives it back, with every operand at every value it admits. -/
def Statement (i : Instr) : Prop := Encodes i

theorem add (st : Stall) (d : Reg) (a : Reg) (b : Reg) (t : BitVec 2) : Statement (.add st d a b t) :=
  fmtA (by decide) (fun w y h => by simp only [decodeOp, decodeOp0, h]) st d a b t rfl

theorem sub (st : Stall) (d : Reg) (a : Reg) (b : Reg) (t : BitVec 2) : Statement (.sub st d a b t) :=
  fmtA (by decide) (fun w y h => by simp only [decodeOp, decodeOp0, h]) st d a b t rfl

theorem addi (st : Stall) (d : Reg) (a : Reg) (i : BitVec 8) : Statement (.addi st d a i) :=
  fmtAddi (by decide) (fun w y h => by simp only [decodeOp, decodeOp0, h]) st d a i rfl

theorem addiLong (st : Stall) (d : Reg) (a : Reg) (i : BitVec 32) : Statement (.addiLong st d a i) :=
  fmtAddiLong (by decide) (fun w y h => by simp only [decodeOp, decodeOp0, h]) st d a i rfl

theorem mul (st : Stall) (d : Reg) (a : Reg) (b : Reg) (t : BitVec 2) : Statement (.mul st d a b t) :=
  fmtA (by decide) (fun w y h => by simp only [decodeOp, decodeOp0, h]) st d a b t rfl

theorem mulh (st : Stall) (d : Reg) (a : Reg) (b : Reg) (t : BitVec 2) : Statement (.mulh st d a b t) :=
  fmtA (by decide) (fun w y h => by simp only [decodeOp, decodeOp0, h]) st d a b t rfl

theorem mulhu (st : Stall) (d : Reg) (a : Reg) (b : Reg) (t : BitVec 2) : Statement (.mulhu st d a b t) :=
  fmtA (by decide) (fun w y h => by simp only [decodeOp, decodeOp0, h]) st d a b t rfl

theorem div (st : Stall) (d : Reg) (a : Reg) (b : Reg) (t : BitVec 2) : Statement (.div st d a b t) :=
  fmtA (by decide) (fun w y h => by simp only [decodeOp, decodeOp0, h]) st d a b t rfl

theorem divu (st : Stall) (d : Reg) (a : Reg) (b : Reg) (t : BitVec 2) : Statement (.divu st d a b t) :=
  fmtA (by decide) (fun w y h => by simp only [decodeOp, decodeOp0, h]) st d a b t rfl

theorem rem (st : Stall) (d : Reg) (a : Reg) (b : Reg) (t : BitVec 2) : Statement (.rem st d a b t) :=
  fmtA (by decide) (fun w y h => by simp only [decodeOp, decodeOp0, h]) st d a b t rfl

theorem remu (st : Stall) (d : Reg) (a : Reg) (b : Reg) (t : BitVec 2) : Statement (.remu st d a b t) :=
  fmtA (by decide) (fun w y h => by simp only [decodeOp, decodeOp0, h]) st d a b t rfl

theorem and (st : Stall) (d : Reg) (a : Reg) (b : Reg) : Statement (.and st d a b) :=
  fmtDAB (by decide) (fun w y h => by simp only [decodeOp, decodeOp0, h]) st d a b rfl

theorem or (st : Stall) (d : Reg) (a : Reg) (b : Reg) : Statement (.or st d a b) :=
  fmtDAB (by decide) (fun w y h => by simp only [decodeOp, decodeOp0, h]) st d a b rfl

theorem xor (st : Stall) (d : Reg) (a : Reg) (b : Reg) : Statement (.xor st d a b) :=
  fmtDAB (by decide) (fun w y h => by simp only [decodeOp, decodeOp0, h]) st d a b rfl

theorem andn (st : Stall) (d : Reg) (a : Reg) (b : Reg) : Statement (.andn st d a b) :=
  fmtDAB (by decide) (fun w y h => by simp only [decodeOp, decodeOp0, h]) st d a b rfl

theorem andi (st : Stall) (d : Reg) (a : Reg) (i : Imm) : Statement (.andi st d a i) := by
  cases i with
  | short v => exact fmtIs (by decide) (fun w y h => by simp only [decodeOp, decodeOp0, h]) st d a v rfl
  | long v => exact fmtIl (by decide) (fun w y h => by simp only [decodeOp, decodeOp0, h]) st d a v rfl

theorem ori (st : Stall) (d : Reg) (a : Reg) (i : Imm) : Statement (.ori st d a i) := by
  cases i with
  | short v => exact fmtIs (by decide) (fun w y h => by simp only [decodeOp, decodeOp1, h]) st d a v rfl
  | long v => exact fmtIl (by decide) (fun w y h => by simp only [decodeOp, decodeOp1, h]) st d a v rfl

theorem xori (st : Stall) (d : Reg) (a : Reg) (i : Imm) : Statement (.xori st d a i) := by
  cases i with
  | short v => exact fmtIs (by decide) (fun w y h => by simp only [decodeOp, decodeOp1, h]) st d a v rfl
  | long v => exact fmtIl (by decide) (fun w y h => by simp only [decodeOp, decodeOp1, h]) st d a v rfl

theorem shl (st : Stall) (d : Reg) (a : Reg) (b : Reg) (t : BitVec 2) : Statement (.shl st d a b t) :=
  fmtA (by decide) (fun w y h => by simp only [decodeOp, decodeOp1, h]) st d a b t rfl

theorem shr (st : Stall) (d : Reg) (a : Reg) (b : Reg) (t : BitVec 2) : Statement (.shr st d a b t) :=
  fmtA (by decide) (fun w y h => by simp only [decodeOp, decodeOp1, h]) st d a b t rfl

theorem sar (st : Stall) (d : Reg) (a : Reg) (b : Reg) (t : BitVec 2) : Statement (.sar st d a b t) :=
  fmtA (by decide) (fun w y h => by simp only [decodeOp, decodeOp1, h]) st d a b t rfl

theorem shli (st : Stall) (d : Reg) (a : Reg) (i : Imm) : Statement (.shli st d a i) := by
  cases i with
  | short v => exact fmtIs (by decide) (fun w y h => by simp only [decodeOp, decodeOp1, h]) st d a v rfl
  | long v => exact fmtIl (by decide) (fun w y h => by simp only [decodeOp, decodeOp1, h]) st d a v rfl

theorem shri (st : Stall) (d : Reg) (a : Reg) (i : Imm) : Statement (.shri st d a i) := by
  cases i with
  | short v => exact fmtIs (by decide) (fun w y h => by simp only [decodeOp, decodeOp1, h]) st d a v rfl
  | long v => exact fmtIl (by decide) (fun w y h => by simp only [decodeOp, decodeOp1, h]) st d a v rfl

theorem sari (st : Stall) (d : Reg) (a : Reg) (i : Imm) : Statement (.sari st d a i) := by
  cases i with
  | short v => exact fmtIs (by decide) (fun w y h => by simp only [decodeOp, decodeOp1, h]) st d a v rfl
  | long v => exact fmtIl (by decide) (fun w y h => by simp only [decodeOp, decodeOp1, h]) st d a v rfl

theorem rotl (st : Stall) (d : Reg) (a : Reg) (b : Reg) (t : BitVec 2) : Statement (.rotl st d a b t) :=
  fmtA (by decide) (fun w y h => by simp only [decodeOp, decodeOp1, h]) st d a b t rfl

theorem min (st : Stall) (d : Reg) (a : Reg) (b : Reg) (t : BitVec 2) : Statement (.min st d a b t) :=
  fmtA (by decide) (fun w y h => by simp only [decodeOp, decodeOp1, h]) st d a b t rfl

theorem max (st : Stall) (d : Reg) (a : Reg) (b : Reg) (t : BitVec 2) : Statement (.max st d a b t) :=
  fmtA (by decide) (fun w y h => by simp only [decodeOp, decodeOp1, h]) st d a b t rfl

theorem minu (st : Stall) (d : Reg) (a : Reg) (b : Reg) (t : BitVec 2) : Statement (.minu st d a b t) :=
  fmtA (by decide) (fun w y h => by simp only [decodeOp, decodeOp1, h]) st d a b t rfl

theorem maxu (st : Stall) (d : Reg) (a : Reg) (b : Reg) (t : BitVec 2) : Statement (.maxu st d a b t) :=
  fmtA (by decide) (fun w y h => by simp only [decodeOp, decodeOp1, h]) st d a b t rfl

theorem seq (st : Stall) (d : Reg) (a : Reg) (b : Reg) (t : BitVec 2) : Statement (.seq st d a b t) :=
  fmtA (by decide) (fun w y h => by simp only [decodeOp, decodeOp1, h]) st d a b t rfl

theorem sne (st : Stall) (d : Reg) (a : Reg) (b : Reg) (t : BitVec 2) : Statement (.sne st d a b t) :=
  fmtA (by decide) (fun w y h => by simp only [decodeOp, decodeOp1, h]) st d a b t rfl

theorem slt (st : Stall) (d : Reg) (a : Reg) (b : Reg) (t : BitVec 2) : Statement (.slt st d a b t) :=
  fmtA (by decide) (fun w y h => by simp only [decodeOp, decodeOp1, h]) st d a b t rfl

theorem sltu (st : Stall) (d : Reg) (a : Reg) (b : Reg) (t : BitVec 2) : Statement (.sltu st d a b t) :=
  fmtA (by decide) (fun w y h => by simp only [decodeOp, decodeOp2, h]) st d a b t rfl

theorem slti (st : Stall) (d : Reg) (a : Reg) (i : Imm) : Statement (.slti st d a i) := by
  cases i with
  | short v => exact fmtIs (by decide) (fun w y h => by simp only [decodeOp, decodeOp2, h]) st d a v rfl
  | long v => exact fmtIl (by decide) (fun w y h => by simp only [decodeOp, decodeOp2, h]) st d a v rfl

theorem clz (st : Stall) (d : Reg) (a : Reg) (t : BitVec 2) : Statement (.clz st d a t) :=
  fmtDAT (by decide) (fun w y h => by simp only [decodeOp, decodeOp2, h]) st d a t rfl

theorem ctz (st : Stall) (d : Reg) (a : Reg) (t : BitVec 2) : Statement (.ctz st d a t) :=
  fmtDAT (by decide) (fun w y h => by simp only [decodeOp, decodeOp2, h]) st d a t rfl

theorem popc (st : Stall) (d : Reg) (a : Reg) (t : BitVec 2) : Statement (.popc st d a t) :=
  fmtDAT (by decide) (fun w y h => by simp only [decodeOp, decodeOp2, h]) st d a t rfl

theorem bext (st : Stall) (d : Reg) (a : Reg) (b : Reg) : Statement (.bext st d a b) :=
  fmtDAB (by decide) (fun w y h => by simp only [decodeOp, decodeOp2, h]) st d a b rfl

theorem bins (st : Stall) (d : Reg) (a : Reg) (b : Reg) : Statement (.bins st d a b) :=
  fmtDAB (by decide) (fun w y h => by simp only [decodeOp, decodeOp2, h]) st d a b rfl

theorem sel (st : Stall) (d : Reg) (a : Reg) (b : Reg) : Statement (.sel st d a b) :=
  fmtDAB (by decide) (fun w y h => by simp only [decodeOp, decodeOp2, h]) st d a b rfl

theorem movi (st : Stall) (d : Reg) (i : BitVec 32) : Statement (.movi st d i) :=
  fmtMovi (by decide) (fun w y h => by simp only [decodeOp, decodeOp2, h]) st d i rfl

theorem lea (st : Stall) (d : Reg) (b : Reg) (m : BitVec 2) (x : BitVec 6) : Statement (.lea st d b m x) :=
  fmtM2s (by decide) (fun w y h => by simp only [decodeOp, decodeOp2, h]; rfl) st d b m x rfl

theorem leaLong (st : Stall) (d : Reg) (b : Reg) (m : BitVec 2) (ty : SizeType) (x : BitVec 32) : Statement (.leaLong st d b m ty x) :=
  fmtM2l (by decide) (fun w y h => by simp only [decodeOp, decodeOp2, h]; rfl) st d b m ty x rfl

theorem leam (st : Stall) (d : Reg) (a : Reg) (mf : BitVec 17) (off : BitVec 15) : Statement (.leam st d a mf off) :=
  fmtLeam (by decide) (fun w y h => by simp only [decodeOp, decodeOp2, h]) st d a mf off rfl

theorem clmul (st : Stall) (d : Reg) (a : Reg) (b : Reg) : Statement (.clmul st d a b) :=
  fmtDAB (by decide) (fun w y h => by simp only [decodeOp, decodeOp2, h]) st d a b rfl

theorem clmulh (st : Stall) (d : Reg) (a : Reg) (b : Reg) : Statement (.clmulh st d a b) :=
  fmtDAB (by decide) (fun w y h => by simp only [decodeOp, decodeOp2, h]) st d a b rfl

theorem fadd (st : Stall) (d : Reg) (a : Reg) (b : Reg) : Statement (.fadd st d a b) :=
  fmtDAB (by decide) (fun w y h => by simp only [decodeOp, decodeOp4, h]) st d a b rfl

theorem fsub (st : Stall) (d : Reg) (a : Reg) (b : Reg) : Statement (.fsub st d a b) :=
  fmtDAB (by decide) (fun w y h => by simp only [decodeOp, decodeOp4, h]) st d a b rfl

theorem fmul (st : Stall) (d : Reg) (a : Reg) (b : Reg) : Statement (.fmul st d a b) :=
  fmtDAB (by decide) (fun w y h => by simp only [decodeOp, decodeOp4, h]) st d a b rfl

theorem fma (st : Stall) (d : Reg) (a : Reg) (b : Reg) : Statement (.fma st d a b) :=
  fmtDAB (by decide) (fun w y h => by simp only [decodeOp, decodeOp4, h]) st d a b rfl

theorem fmin (st : Stall) (d : Reg) (a : Reg) (b : Reg) : Statement (.fmin st d a b) :=
  fmtDAB (by decide) (fun w y h => by simp only [decodeOp, decodeOp4, h]) st d a b rfl

theorem fmax (st : Stall) (d : Reg) (a : Reg) (b : Reg) : Statement (.fmax st d a b) :=
  fmtDAB (by decide) (fun w y h => by simp only [decodeOp, decodeOp4, h]) st d a b rfl

theorem feq (st : Stall) (d : Reg) (a : Reg) (b : Reg) : Statement (.feq st d a b) :=
  fmtDAB (by decide) (fun w y h => by simp only [decodeOp, decodeOp4, h]) st d a b rfl

theorem flt (st : Stall) (d : Reg) (a : Reg) (b : Reg) : Statement (.flt st d a b) :=
  fmtDAB (by decide) (fun w y h => by simp only [decodeOp, decodeOp4, h]) st d a b rfl

theorem fle (st : Stall) (d : Reg) (a : Reg) (b : Reg) : Statement (.fle st d a b) :=
  fmtDAB (by decide) (fun w y h => by simp only [decodeOp, decodeOp4, h]) st d a b rfl

theorem fcls (st : Stall) (d : Reg) (a : Reg) : Statement (.fcls st d a) :=
  fmtDA (by decide) (fun w y h => by simp only [decodeOp, decodeOp4, h]) st d a rfl

theorem fcvt (st : Stall) (d : Reg) (a : Reg) (pair : BitVec 4) (sat : Bool) (rm : BitVec 2) : Statement (.fcvt st d a pair sat rm) :=
  fmtFcvt (by decide) (fun w y h => by simp only [decodeOp, decodeOp4, h]) st d a pair sat rm rfl

theorem beq (st : Stall) (a : Reg) (b : Reg) (p : BitVec 8) : Statement (.beq st a b p) :=
  fmtBs (by decide) (fun w y h => by simp only [decodeOp, decodeOp5, h]; rfl) st a b p rfl

theorem bne (st : Stall) (a : Reg) (b : Reg) (p : BitVec 8) : Statement (.bne st a b p) :=
  fmtBs (by decide) (fun w y h => by simp only [decodeOp, decodeOp5, h]; rfl) st a b p rfl

theorem blt (st : Stall) (a : Reg) (b : Reg) (p : BitVec 8) : Statement (.blt st a b p) :=
  fmtBs (by decide) (fun w y h => by simp only [decodeOp, decodeOp5, h]; rfl) st a b p rfl

theorem bge (st : Stall) (a : Reg) (b : Reg) (p : BitVec 8) : Statement (.bge st a b p) :=
  fmtBs (by decide) (fun w y h => by simp only [decodeOp, decodeOp5, h]; rfl) st a b p rfl

theorem blo (st : Stall) (a : Reg) (b : Reg) (p : BitVec 8) : Statement (.blo st a b p) :=
  fmtBs (by decide) (fun w y h => by simp only [decodeOp, decodeOp5, h]; rfl) st a b p rfl

theorem bhs (st : Stall) (a : Reg) (b : Reg) (p : BitVec 8) : Statement (.bhs st a b p) :=
  fmtBs (by decide) (fun w y h => by simp only [decodeOp, decodeOp5, h]; rfl) st a b p rfl

theorem branchLong (st : Stall) (op : BranchOp) (a : Reg) (b : Reg) (p : BitVec 32) : Statement (.branchLong st op a b p) := by
  cases op
  · exact fmtBl (op := 0x50) (by decide) (fun w y h => by simp only [decodeOp, decodeOp5, h]; rfl) st a b p rfl
  · exact fmtBl (op := 0x51) (by decide) (fun w y h => by simp only [decodeOp, decodeOp5, h]; rfl) st a b p rfl
  · exact fmtBl (op := 0x52) (by decide) (fun w y h => by simp only [decodeOp, decodeOp5, h]; rfl) st a b p rfl
  · exact fmtBl (op := 0x53) (by decide) (fun w y h => by simp only [decodeOp, decodeOp5, h]; rfl) st a b p rfl
  · exact fmtBl (op := 0x54) (by decide) (fun w y h => by simp only [decodeOp, decodeOp5, h]; rfl) st a b p rfl
  · exact fmtBl (op := 0x55) (by decide) (fun w y h => by simp only [decodeOp, decodeOp5, h]; rfl) st a b p rfl

theorem jmp (st : Stall) (p : Disp) : Statement (.jmp st p) := by
  cases p with
  | short v => exact fmtJmps (by decide) (fun w y h => by simp only [decodeOp, decodeOp5, h]) st v rfl
  | long v => exact fmtJmpl (by decide) (fun w y h => by simp only [decodeOp, decodeOp5, h]) st v rfl

theorem jal (st : Stall) (d : Reg) (p : Disp) : Statement (.jal st d p) := by
  cases p with
  | short v => exact fmtJals (by decide) (fun w y h => by simp only [decodeOp, decodeOp5, h]) st d v rfl
  | long v => exact fmtJall (by decide) (fun w y h => by simp only [decodeOp, decodeOp5, h]) st d v rfl

theorem jalr (st : Stall) (d : Reg) (a : Reg) (i : Imm) : Statement (.jalr st d a i) := by
  cases i with
  | short v => exact fmtIs (by decide) (fun w y h => by simp only [decodeOp, decodeOp5, h]) st d a v rfl
  | long v => exact fmtIl (by decide) (fun w y h => by simp only [decodeOp, decodeOp5, h]) st d a v rfl

theorem loop (st : Stall) (n : BitVec 2) (i : BitVec 8) (count : BitVec 32) : Statement (.loop st n i count) :=
  fmtLoop (by decide) (fun w y h => by simp only [decodeOp, decodeOp5, h]) st n i count rfl

theorem loopr (st : Stall) (n : BitVec 2) (a : Reg) (i : BitVec 8) : Statement (.loopr st n a i) :=
  fmtLoopr (by decide) (fun w y h => by simp only [decodeOp, decodeOp5, h]) st n a i rfl

theorem loopm (st : Stall) (n : BitVec 2) (m : BitVec 3) (i : BitVec 8) : Statement (.loopm st n m i) :=
  fmtLoopm (by decide) (fun w y h => by simp only [decodeOp, decodeOp5, h]) st n m i rfl

theorem rpt (st : Stall) (len : BitVec 4) (n : BitVec 12) (sd : BitVec 4) (sa : BitVec 4) (sb : BitVec 4) (sc : BitVec 4) : Statement (.rpt st len n sd sa sb sc) :=
  fmtRpt (by decide) (fun w y h => by simp only [decodeOp, decodeOp5, h]) st len n sd sa sb sc rfl

theorem exit (st : Stall) (a : Reg) : Statement (.exit st a) :=
  fmtA1 (by decide) (fun w y h => by simp only [decodeOp, decodeOp5, h]) st a rfl

theorem nop (st : Stall) : Statement (.nop st) :=
  fmtNone (by decide) (fun w y h => by simp only [decodeOp, decodeOp5, h]) st rfl

theorem yield (st : Stall) : Statement (.yield st) :=
  fmtNone (by decide) (fun w y h => by simp only [decodeOp, decodeOp5, h]) st rfl

theorem ld (st : Stall) (d : Reg) (b : Reg) (m : BitVec 2) (x : BitVec 6) : Statement (.ld st d b m x) :=
  fmtM2s (by decide) (fun w y h => by simp only [decodeOp, decodeOp6, h]; rfl) st d b m x rfl

theorem ldLong (st : Stall) (d : Reg) (b : Reg) (m : BitVec 2) (ty : SizeType) (x : BitVec 32) : Statement (.ldLong st d b m ty x) :=
  fmtM2l (by decide) (fun w y h => by simp only [decodeOp, decodeOp6, h]; rfl) st d b m ty x rfl

theorem st (st : Stall) (d : Reg) (b : Reg) (m : BitVec 2) (x : BitVec 6) : Statement (.st st d b m x) :=
  fmtM2s (by decide) (fun w y h => by simp only [decodeOp, decodeOp6, h]; rfl) st d b m x rfl

theorem stLong (st : Stall) (d : Reg) (b : Reg) (m : BitVec 2) (ty : SizeType) (x : BitVec 32) : Statement (.stLong st d b m ty x) :=
  fmtM2l (by decide) (fun w y h => by simp only [decodeOp, decodeOp6, h]; rfl) st d b m ty x rfl

theorem ldx (st : Stall) (d : Reg) (b : Reg) (f : MForm) : Statement (.ldx st d b f) := by
  cases f with
  | short x => exact fmtMXs (by decide) (fun w y h => by simp only [decodeOp, decodeOp6, h]) st d b x rfl
  | long ty x => exact fmtMXl (by decide) (fun w y h => by simp only [decodeOp, decodeOp6, h]) st d b ty x rfl

theorem stx (st : Stall) (d : Reg) (b : Reg) (f : MForm) : Statement (.stx st d b f) := by
  cases f with
  | short x => exact fmtMXs (by decide) (fun w y h => by simp only [decodeOp, decodeOp6, h]) st d b x rfl
  | long ty x => exact fmtMXl (by decide) (fun w y h => by simp only [decodeOp, decodeOp6, h]) st d b ty x rfl

theorem lds (st : Stall) (d : Reg) (b : Reg) (m : BitVec 2) (f : MForm) : Statement (.lds st d b m f) := by
  cases f with
  | short x => exact fmtMs (by decide) (fun w y h => by simp only [decodeOp, decodeOp6, h]) st d b m x rfl
  | long ty x => exact fmtMl (by decide) (fun w y h => by simp only [decodeOp, decodeOp6, h]) st d b m ty x rfl

theorem pref (st : Stall) (b : Reg) (m : BitVec 2) (f : MForm) : Statement (.pref st b m f) := by
  cases f with
  | short x => exact fmtM0s (by decide) (fun w y h => by simp only [decodeOp, decodeOp6, h]) st b m x rfl
  | long ty x => exact fmtM0l (by decide) (fun w y h => by simp only [decodeOp, decodeOp6, h]) st b m ty x rfl

theorem ldf (st : Stall) (d : Reg) (b : Reg) (m : BitVec 2) (f : MForm) : Statement (.ldf st d b m f) := by
  cases f with
  | short x => exact fmtMs (by decide) (fun w y h => by simp only [decodeOp, decodeOp6, h]) st d b m x rfl
  | long ty x => exact fmtMl (by decide) (fun w y h => by simp only [decodeOp, decodeOp6, h]) st d b m ty x rfl

theorem ldfe (st : Stall) (d : Reg) (b : Reg) (m : BitVec 2) (f : MForm) : Statement (.ldfe st d b m f) := by
  cases f with
  | short x => exact fmtMs (by decide) (fun w y h => by simp only [decodeOp, decodeOp6, h]) st d b m x rfl
  | long ty x => exact fmtMl (by decide) (fun w y h => by simp only [decodeOp, decodeOp6, h]) st d b m ty x rfl

theorem ste (st : Stall) (d : Reg) (b : Reg) (m : BitVec 2) (f : MForm) : Statement (.ste st d b m f) := by
  cases f with
  | short x => exact fmtMs (by decide) (fun w y h => by simp only [decodeOp, decodeOp6, h]) st d b m x rfl
  | long ty x => exact fmtMl (by decide) (fun w y h => by simp only [decodeOp, decodeOp6, h]) st d b m ty x rfl

theorem stf (st : Stall) (d : Reg) (b : Reg) (m : BitVec 2) (f : MForm) : Statement (.stf st d b m f) := by
  cases f with
  | short x => exact fmtMs (by decide) (fun w y h => by simp only [decodeOp, decodeOp6, h]) st d b m x rfl
  | long ty x => exact fmtMl (by decide) (fun w y h => by simp only [decodeOp, decodeOp6, h]) st d b m ty x rfl

theorem feset (st : Stall) (b : Reg) (m : BitVec 2) (f : MForm) : Statement (.feset st b m f) := by
  cases f with
  | short x => exact fmtM0s (by decide) (fun w y h => by simp only [decodeOp, decodeOp6, h]) st b m x rfl
  | long ty x => exact fmtM0l (by decide) (fun w y h => by simp only [decodeOp, decodeOp6, h]) st b m ty x rfl

theorem feclr (st : Stall) (b : Reg) (m : BitVec 2) (f : MForm) : Statement (.feclr st b m f) := by
  cases f with
  | short x => exact fmtM0s (by decide) (fun w y h => by simp only [decodeOp, decodeOp6, h]) st b m x rfl
  | long ty x => exact fmtM0l (by decide) (fun w y h => by simp only [decodeOp, decodeOp6, h]) st b m ty x rfl

theorem feqry (st : Stall) (d : Reg) (b : Reg) (m : BitVec 2) (f : MForm) : Statement (.feqry st d b m f) := by
  cases f with
  | short x => exact fmtMs (by decide) (fun w y h => by simp only [decodeOp, decodeOp6, h]) st d b m x rfl
  | long ty x => exact fmtMl (by decide) (fun w y h => by simp only [decodeOp, decodeOp6, h]) st d b m ty x rfl

theorem ldv (st : Stall) (d : VReg) (b : Reg) (m : BitVec 2) (f : MForm) : Statement (.ldv st d b m f) := by
  cases f with
  | short x => exact fmtMVs (by decide) (fun w y h => by simp only [decodeOp, decodeOp6, h]) st d b m x rfl
  | long ty x => exact fmtMVl (by decide) (fun w y h => by simp only [decodeOp, decodeOp6, h]) st d b m ty x rfl

theorem stv (st : Stall) (d : VReg) (b : Reg) (m : BitVec 2) (f : MForm) : Statement (.stv st d b m f) := by
  cases f with
  | short x => exact fmtMVs (by decide) (fun w y h => by simp only [decodeOp, decodeOp6, h]) st d b m x rfl
  | long ty x => exact fmtMVl (by decide) (fun w y h => by simp only [decodeOp, decodeOp6, h]) st d b m ty x rfl

theorem ldvx (st : Stall) (d : VReg) (b : Reg) (f : MForm) : Statement (.ldvx st d b f) := by
  cases f with
  | short x => exact fmtMVXs (by decide) (fun w y h => by simp only [decodeOp, decodeOp6, h]) st d b x rfl
  | long ty x => exact fmtMVXl (by decide) (fun w y h => by simp only [decodeOp, decodeOp6, h]) st d b ty x rfl

theorem stvx (st : Stall) (d : VReg) (b : Reg) (f : MForm) : Statement (.stvx st d b f) := by
  cases f with
  | short x => exact fmtMVXs (by decide) (fun w y h => by simp only [decodeOp, decodeOp7, h]) st d b x rfl
  | long ty x => exact fmtMVXl (by decide) (fun w y h => by simp only [decodeOp, decodeOp7, h]) st d b ty x rfl

theorem ldvb (st : Stall) (d : VReg) (b : Reg) (m : BitVec 2) (f : MForm) : Statement (.ldvb st d b m f) := by
  cases f with
  | short x => exact fmtMVs (by decide) (fun w y h => by simp only [decodeOp, decodeOp7, h]) st d b m x rfl
  | long ty x => exact fmtMVl (by decide) (fun w y h => by simp only [decodeOp, decodeOp7, h]) st d b m ty x rfl

theorem ldAcq (st : Stall) (d : Reg) (b : Reg) (m : BitVec 2) (f : MForm) : Statement (.ldAcq st d b m f) := by
  cases f with
  | short x => exact fmtMs (by decide) (fun w y h => by simp only [decodeOp, decodeOp7, h]) st d b m x rfl
  | long ty x => exact fmtMl (by decide) (fun w y h => by simp only [decodeOp, decodeOp7, h]) st d b m ty x rfl

theorem stRel (st : Stall) (d : Reg) (b : Reg) (m : BitVec 2) (scope : Scope) (sz : BitVec 2) (x : BitVec 32) : Statement (.stRel st d b m scope sz x) :=
  fmtStRel (by decide) (fun w y h => by simp only [decodeOp, decodeOp7, h]) st d b m scope sz x rfl

theorem amo (st : Stall) (op : AmoOp) (d : Reg) (a : Reg) (b : Reg) (acq : Bool) (rel : Bool) (scope : Scope) : Statement (.amo st op d a b acq rel scope) :=
  fmtAmo (by decide) (fun w y h => by simp only [decodeOp, decodeOp7, h] <;> rfl) st op d a b acq rel scope rfl

theorem cas (st : Stall) (d : Reg) (a : Reg) (b : Reg) (c : Reg) (acq : Bool) (rel : Bool) (scope : Scope) : Statement (.cas st d a b c acq rel scope) :=
  fmtCas (by decide) (fun w y h => by simp only [decodeOp, decodeOp7, h]) st d a b c acq rel scope rfl

theorem rsv (st : Stall) (d : Reg) (a : Reg) : Statement (.rsv st d a) :=
  fmtDA (by decide) (fun w y h => by simp only [decodeOp, decodeOp7, h]) st d a rfl

theorem rwb (st : Stall) (d : Reg) (a : Reg) (b : Reg) : Statement (.rwb st d a b) :=
  fmtDAB (by decide) (fun w y h => by simp only [decodeOp, decodeOp7, h]) st d a b rfl

theorem rlsn (st : Stall) (d : Reg) (a : Reg) : Statement (.rlsn st d a) :=
  fmtDA (by decide) (fun w y h => by simp only [decodeOp, decodeOp7, h]) st d a rfl

theorem redF32 (st : Stall) (a : Reg) (b : Reg) : Statement (.redF32 st a b) :=
  fmtAB (by decide) (fun w y h => by simp only [decodeOp, decodeOp7, h]) st a b rfl

theorem fence (st : Stall) (scope : Scope) : Statement (.fence st scope) :=
  fmtFence (by decide) (fun w y h => by simp only [decodeOp, decodeOp7, h]) st scope rfl

theorem fenceE (st : Stall) (scope : Scope) : Statement (.fenceE st scope) :=
  fmtFenceE (by decide) (fun w y h => by simp only [decodeOp, decodeOp7, h]) st scope rfl

theorem mon (st : Stall) (line : BitVec 2) (a : Reg) : Statement (.mon st line a) :=
  fmtMon (by decide) (fun w y h => by simp only [decodeOp, decodeOp7, h]) st line a rfl

theorem moff (st : Stall) (line : BitVec 2) : Statement (.moff st line) :=
  fmtMoff (by decide) (fun w y h => by simp only [decodeOp, decodeOp8, h]) st line rfl

theorem waitm (st : Stall) (d : Reg) (a : Reg) : Statement (.waitm st d a) :=
  fmtDA (by decide) (fun w y h => by simp only [decodeOp, decodeOp8, h]) st d a rfl

theorem barClu (st : Stall) : Statement (.barClu st) :=
  fmtBarClu (by decide) (fun w y h => by simp only [decodeOp, decodeOp8, h] <;> rfl) st rfl

theorem barGang (st : Stall) : Statement (.barGang st) :=
  fmtBarGang (by decide) (fun w y h => by simp only [decodeOp, decodeOp8, h] <;> rfl) st rfl

theorem sigdec (st : Stall) (a : Reg) (b : Reg) : Statement (.sigdec st a b) :=
  fmtAB (by decide) (fun w y h => by simp only [decodeOp, decodeOp8, h]) st a b rfl

theorem sigwait (st : Stall) (d : Reg) (a : Reg) (b : Reg) : Statement (.sigwait st d a b) :=
  fmtDAB (by decide) (fun w y h => by simp only [decodeOp, decodeOp8, h]) st d a b rfl

theorem vadd (st : Stall) (d : VReg) (a : VReg) (b : VReg) (k : KReg) (t : BitVec 2) : Statement (.vadd st d a b k t) :=
  fmtV (by decide) (fun w y h => by simp only [decodeOp, decodeOp8, h]; rfl) st d a b k t rfl

theorem vsub (st : Stall) (d : VReg) (a : VReg) (b : VReg) (k : KReg) (t : BitVec 2) : Statement (.vsub st d a b k t) :=
  fmtV (by decide) (fun w y h => by simp only [decodeOp, decodeOp8, h]; rfl) st d a b k t rfl

theorem vmul (st : Stall) (d : VReg) (a : VReg) (b : VReg) (k : KReg) (t : BitVec 2) : Statement (.vmul st d a b k t) :=
  fmtV (by decide) (fun w y h => by simp only [decodeOp, decodeOp8, h]; rfl) st d a b k t rfl

theorem vfma (st : Stall) (d : VReg) (a : VReg) (b : VReg) (k : KReg) (t : BitVec 2) : Statement (.vfma st d a b k t) :=
  fmtV (by decide) (fun w y h => by simp only [decodeOp, decodeOp8, h]; rfl) st d a b k t rfl

theorem vmin (st : Stall) (d : VReg) (a : VReg) (b : VReg) (k : KReg) (t : BitVec 2) : Statement (.vmin st d a b k t) :=
  fmtV (by decide) (fun w y h => by simp only [decodeOp, decodeOp8, h]; rfl) st d a b k t rfl

theorem vmax (st : Stall) (d : VReg) (a : VReg) (b : VReg) (k : KReg) (t : BitVec 2) : Statement (.vmax st d a b k t) :=
  fmtV (by decide) (fun w y h => by simp only [decodeOp, decodeOp8, h]; rfl) st d a b k t rfl

theorem vabs (st : Stall) (d : VReg) (a : VReg) (k : KReg) (t : BitVec 2) : Statement (.vabs st d a k t) :=
  fmtV1 (by decide) (fun w y h => by simp only [decodeOp, decodeOp8, h]; rfl) st d a k t rfl

theorem vneg (st : Stall) (d : VReg) (a : VReg) (k : KReg) (t : BitVec 2) : Statement (.vneg st d a k t) :=
  fmtV1 (by decide) (fun w y h => by simp only [decodeOp, decodeOp8, h]; rfl) st d a k t rfl

theorem vand (st : Stall) (d : VReg) (a : VReg) (b : VReg) (k : KReg) (t : BitVec 2) : Statement (.vand st d a b k t) :=
  fmtV (by decide) (fun w y h => by simp only [decodeOp, decodeOp9, h]; rfl) st d a b k t rfl

theorem vor (st : Stall) (d : VReg) (a : VReg) (b : VReg) (k : KReg) (t : BitVec 2) : Statement (.vor st d a b k t) :=
  fmtV (by decide) (fun w y h => by simp only [decodeOp, decodeOp9, h]; rfl) st d a b k t rfl

theorem vxor (st : Stall) (d : VReg) (a : VReg) (b : VReg) (k : KReg) (t : BitVec 2) : Statement (.vxor st d a b k t) :=
  fmtV (by decide) (fun w y h => by simp only [decodeOp, decodeOp9, h]; rfl) st d a b k t rfl

theorem vshl (st : Stall) (d : VReg) (a : VReg) (b : VReg) (k : KReg) (t : BitVec 2) : Statement (.vshl st d a b k t) :=
  fmtV (by decide) (fun w y h => by simp only [decodeOp, decodeOp9, h]; rfl) st d a b k t rfl

theorem vshr (st : Stall) (d : VReg) (a : VReg) (b : VReg) (k : KReg) (t : BitVec 2) : Statement (.vshr st d a b k t) :=
  fmtV (by decide) (fun w y h => by simp only [decodeOp, decodeOp9, h]; rfl) st d a b k t rfl

theorem vsar (st : Stall) (d : VReg) (a : VReg) (b : VReg) (k : KReg) (t : BitVec 2) : Statement (.vsar st d a b k t) :=
  fmtV (by decide) (fun w y h => by simp only [decodeOp, decodeOp9, h]; rfl) st d a b k t rfl

theorem vcmpeq (st : Stall) (d : KReg) (a : VReg) (b : VReg) (k : KReg) (t : BitVec 2) : Statement (.vcmpeq st d a b k t) :=
  fmtVK (by decide) (fun w y h => by simp only [decodeOp, decodeOp9, h]; rfl) st d a b k t rfl

theorem vcmplt (st : Stall) (d : KReg) (a : VReg) (b : VReg) (k : KReg) (t : BitVec 2) : Statement (.vcmplt st d a b k t) :=
  fmtVK (by decide) (fun w y h => by simp only [decodeOp, decodeOp9, h]; rfl) st d a b k t rfl

theorem vcmple (st : Stall) (d : KReg) (a : VReg) (b : VReg) (k : KReg) (t : BitVec 2) : Statement (.vcmple st d a b k t) :=
  fmtVK (by decide) (fun w y h => by simp only [decodeOp, decodeOp9, h]; rfl) st d a b k t rfl

theorem vsel (st : Stall) (d : VReg) (a : VReg) (b : VReg) (k : KReg) (t : BitVec 2) : Statement (.vsel st d a b k t) :=
  fmtV (by decide) (fun w y h => by simp only [decodeOp, decodeOp9, h]; rfl) st d a b k t rfl

theorem vmov (st : Stall) (d : VReg) (a : VReg) (k : KReg) (t : BitVec 2) : Statement (.vmov st d a k t) :=
  fmtV1 (by decide) (fun w y h => by simp only [decodeOp, decodeOp9, h]; rfl) st d a k t rfl

theorem vperm (st : Stall) (d : VReg) (a : VReg) (b : VReg) (k : KReg) (t : BitVec 2) : Statement (.vperm st d a b k t) :=
  fmtV (by decide) (fun w y h => by simp only [decodeOp, decodeOp9, h]; rfl) st d a b k t rfl

theorem vslide (st : Stall) (d : VReg) (a : VReg) (b : VReg) (k : KReg) (t : BitVec 2) : Statement (.vslide st d a b k t) :=
  fmtV (by decide) (fun w y h => by simp only [decodeOp, decodeOp9, h]; rfl) st d a b k t rfl

theorem vredadd (st : Stall) (d : VReg) (a : VReg) (k : KReg) (t : BitVec 2) : Statement (.vredadd st d a k t) :=
  fmtV1 (by decide) (fun w y h => by simp only [decodeOp, decodeOp9, h]; rfl) st d a k t rfl

theorem vredmax (st : Stall) (d : VReg) (a : VReg) (k : KReg) (t : BitVec 2) : Statement (.vredmax st d a k t) :=
  fmtV1 (by decide) (fun w y h => by simp only [decodeOp, decodeOp9, h]; rfl) st d a k t rfl

theorem vredmin (st : Stall) (d : VReg) (a : VReg) (k : KReg) (t : BitVec 2) : Statement (.vredmin st d a k t) :=
  fmtV1 (by decide) (fun w y h => by simp only [decodeOp, decodeOp9, h]; rfl) st d a k t rfl

theorem vscan (st : Stall) (d : VReg) (a : VReg) (b : VReg) (k : KReg) (t : BitVec 2) : Statement (.vscan st d a b k t) :=
  fmtV (by decide) (fun w y h => by simp only [decodeOp, decodeOpA, h]; rfl) st d a b k t rfl

theorem vcnt (st : Stall) (d : VReg) (k : KReg) (t : BitVec 2) : Statement (.vcnt st d k t) :=
  fmtV0 (by decide) (fun w y h => by simp only [decodeOp, decodeOpA, h]; rfl) st d k t rfl

theorem vcmpr (st : Stall) (d : VReg) (a : VReg) (k : KReg) (t : BitVec 2) : Statement (.vcmpr st d a k t) :=
  fmtV1 (by decide) (fun w y h => by simp only [decodeOp, decodeOpA, h]; rfl) st d a k t rfl

theorem vidx (st : Stall) (d : VReg) (k : KReg) (t : BitVec 2) : Statement (.vidx st d k t) :=
  fmtV0 (by decide) (fun w y h => by simp only [decodeOp, decodeOpA, h]; rfl) st d k t rfl

theorem vkey (st : Stall) (d : VReg) (a : VReg) (k : KReg) (t : BitVec 2) : Statement (.vkey st d a k t) :=
  fmtV1 (by decide) (fun w y h => by simp only [decodeOp, decodeOpA, h]; rfl) st d a k t rfl

theorem vhist (st : Stall) (d : VReg) (a : VReg) (k : KReg) (t : BitVec 2) : Statement (.vhist st d a k t) :=
  fmtV1 (by decide) (fun w y h => by simp only [decodeOp, decodeOpA, h]; rfl) st d a k t rfl

theorem vsumgt (st : Stall) (d : VReg) (a : VReg) (k : KReg) (t : BitVec 2) : Statement (.vsumgt st d a k t) :=
  fmtV1 (by decide) (fun w y h => by simp only [decodeOp, decodeOpA, h]; rfl) st d a k t rfl

theorem vectorLong (st : Stall) (op : VecOp) (d : VReg) (a : VReg) (b : VReg) (k : KReg) (t : BitVec 2) (x : VExt) : Statement (.vectorLong st op d a b k t x) := by
  cases op <;>
    exact fmtVL (by decide) (fun w y h hx => by simp only [VecOp.code] at h; simp only [decodeOp, decodeOp8, decodeOp9, decodeOpA, decodeOpC, decodeOpD, decV, decV1, decV0, decVK, decVC, decVS, h, hx, if_true]) st d a b k t x rfl

theorem setvl (st : Stall) (d : Reg) (a : Reg) : Statement (.setvl st d a) :=
  fmtDA (by decide) (fun w y h => by simp only [decodeOp, decodeOpA, h]) st d a rfl

theorem vcvtB16F32 (st : Stall) (d : VReg) (a : VReg) (p : BitVec 5) (k : KReg) : Statement (.vcvtB16F32 st d a p k) :=
  fmtVC (by decide) (fun w y h => by simp only [decodeOp, decodeOpC, h]; rfl) st d a p k rfl

theorem vcvtF16F32 (st : Stall) (d : VReg) (a : VReg) (p : BitVec 5) (k : KReg) : Statement (.vcvtF16F32 st d a p k) :=
  fmtVC (by decide) (fun w y h => by simp only [decodeOp, decodeOpC, h]; rfl) st d a p k rfl

theorem vcvtF32B16 (st : Stall) (d : VReg) (a : VReg) (p : BitVec 5) (k : KReg) : Statement (.vcvtF32B16 st d a p k) :=
  fmtVC (by decide) (fun w y h => by simp only [decodeOp, decodeOpC, h]; rfl) st d a p k rfl

theorem vcvtF32F16 (st : Stall) (d : VReg) (a : VReg) (p : BitVec 5) (k : KReg) : Statement (.vcvtF32F16 st d a p k) :=
  fmtVC (by decide) (fun w y h => by simp only [decodeOp, decodeOpC, h]; rfl) st d a p k rfl

theorem vcvtE4F32 (st : Stall) (d : VReg) (a : VReg) (p : BitVec 5) (k : KReg) : Statement (.vcvtE4F32 st d a p k) :=
  fmtVC (by decide) (fun w y h => by simp only [decodeOp, decodeOpC, h]; rfl) st d a p k rfl

theorem vcvtE5F32 (st : Stall) (d : VReg) (a : VReg) (p : BitVec 5) (k : KReg) : Statement (.vcvtE5F32 st d a p k) :=
  fmtVC (by decide) (fun w y h => by simp only [decodeOp, decodeOpC, h]; rfl) st d a p k rfl

theorem vcvtF32E4 (st : Stall) (d : VReg) (a : VReg) (p : BitVec 5) (k : KReg) : Statement (.vcvtF32E4 st d a p k) :=
  fmtVC (by decide) (fun w y h => by simp only [decodeOp, decodeOpC, h]; rfl) st d a p k rfl

theorem vcvtF32E5 (st : Stall) (d : VReg) (a : VReg) (p : BitVec 5) (k : KReg) : Statement (.vcvtF32E5 st d a p k) :=
  fmtVC (by decide) (fun w y h => by simp only [decodeOp, decodeOpC, h]; rfl) st d a p k rfl

theorem vcvtM8F32 (st : Stall) (d : VReg) (a : VReg) (p : BitVec 5) (k : KReg) : Statement (.vcvtM8F32 st d a p k) :=
  fmtVC (by decide) (fun w y h => by simp only [decodeOp, decodeOpD, h]; rfl) st d a p k rfl

theorem vcvtF32M8 (st : Stall) (d : VReg) (a : VReg) (p : BitVec 5) (k : KReg) : Statement (.vcvtF32M8 st d a p k) :=
  fmtVC (by decide) (fun w y h => by simp only [decodeOp, decodeOpD, h]; rfl) st d a p k rfl

theorem vcvtF4F32 (st : Stall) (d : VReg) (a : VReg) (p : BitVec 5) (k : KReg) : Statement (.vcvtF4F32 st d a p k) :=
  fmtVC (by decide) (fun w y h => by simp only [decodeOp, decodeOpD, h]; rfl) st d a p k rfl

theorem vcvtF32F4 (st : Stall) (d : VReg) (a : VReg) (p : BitVec 5) (k : KReg) : Statement (.vcvtF32F4 st d a p k) :=
  fmtVC (by decide) (fun w y h => by simp only [decodeOp, decodeOpD, h]; rfl) st d a p k rfl

theorem vcvtF32S32 (st : Stall) (d : VReg) (a : VReg) (p : BitVec 5) (k : KReg) : Statement (.vcvtF32S32 st d a p k) :=
  fmtVC (by decide) (fun w y h => by simp only [decodeOp, decodeOpD, h]; rfl) st d a p k rfl

theorem vcvtS32F32 (st : Stall) (d : VReg) (a : VReg) (p : BitVec 5) (k : KReg) : Statement (.vcvtS32F32 st d a p k) :=
  fmtVC (by decide) (fun w y h => by simp only [decodeOp, decodeOpD, h]; rfl) st d a p k rfl

theorem vexp (st : Stall) (d : VReg) (a : VReg) (k : KReg) : Statement (.vexp st d a k) :=
  fmtVS (by decide) (fun w y h => by simp only [decodeOp, decodeOpD, h]; rfl) st d a k rfl

theorem vlog2 (st : Stall) (d : VReg) (a : VReg) (k : KReg) : Statement (.vlog2 st d a k) :=
  fmtVS (by decide) (fun w y h => by simp only [decodeOp, decodeOpD, h]; rfl) st d a k rfl

theorem vrcp (st : Stall) (d : VReg) (a : VReg) (k : KReg) : Statement (.vrcp st d a k) :=
  fmtVS (by decide) (fun w y h => by simp only [decodeOp, decodeOpD, h]; rfl) st d a k rfl

theorem vrsq (st : Stall) (d : VReg) (a : VReg) (k : KReg) : Statement (.vrsq st d a k) :=
  fmtVS (by decide) (fun w y h => by simp only [decodeOp, decodeOpD, h]; rfl) st d a k rfl

theorem vtli (st : Stall) (d : VReg) (a : VReg) (f : BitVec 5) (k : KReg) : Statement (.vtli st d a f k) :=
  fmtVC (by decide) (fun w y h => by simp only [decodeOp, decodeOpD, h]; rfl) st d a f k rfl

theorem tblset (st : Stall) (a : Reg) : Statement (.tblset st a) :=
  fmtA1 (by decide) (fun w y h => by simp only [decodeOp, decodeOpD, h]) st a rfl

theorem mmaBB (st : Stall) (a : Reg) (b : Reg) (q : Reg) (set : Bool) (ia : Bool) (ib : Bool) (sk : Bool) (te : Bool) : Statement (.mmaBB st a b q set ia ib sk te) :=
  fmtMma (by decide) (fun w y h => by simp only [decodeOp, decodeOpE, h]) st a b q set ia ib sk te rfl

theorem mmaEE (st : Stall) (a : Reg) (b : Reg) (q : Reg) (set : Bool) (ia : Bool) (ib : Bool) (sk : Bool) (te : Bool) : Statement (.mmaEE st a b q set ia ib sk te) :=
  fmtMma (by decide) (fun w y h => by simp only [decodeOp, decodeOpE, h]) st a b q set ia ib sk te rfl

theorem mmaEF (st : Stall) (a : Reg) (b : Reg) (q : Reg) (set : Bool) (ia : Bool) (ib : Bool) (sk : Bool) (te : Bool) : Statement (.mmaEF st a b q set ia ib sk te) :=
  fmtMma (by decide) (fun w y h => by simp only [decodeOp, decodeOpE, h]) st a b q set ia ib sk te rfl

theorem mmaMM (st : Stall) (a : Reg) (b : Reg) (q : Reg) (set : Bool) (ia : Bool) (ib : Bool) (sk : Bool) (te : Bool) : Statement (.mmaMM st a b q set ia ib sk te) :=
  fmtMma (by decide) (fun w y h => by simp only [decodeOp, decodeOpE, h]) st a b q set ia ib sk te rfl

theorem mmaBF (st : Stall) (a : Reg) (b : Reg) (q : Reg) (set : Bool) (ia : Bool) (ib : Bool) (sk : Bool) (te : Bool) : Statement (.mmaBF st a b q set ia ib sk te) :=
  fmtMma (by decide) (fun w y h => by simp only [decodeOp, decodeOpE, h]) st a b q set ia ib sk te rfl

theorem mmaFF (st : Stall) (a : Reg) (b : Reg) (q : Reg) (set : Bool) (ia : Bool) (ib : Bool) (sk : Bool) (te : Bool) : Statement (.mmaFF st a b q set ia ib sk te) :=
  fmtMma (by decide) (fun w y h => by simp only [decodeOp, decodeOpE, h]) st a b q set ia ib sk te rfl

theorem mzero (st : Stall) (set : Bool) : Statement (.mzero st set) :=
  fmtMzero (by decide) (fun w y h => by simp only [decodeOp, decodeOpE, h]) st set rfl

theorem mout (st : Stall) (d : Reg) (q : Reg) (set : Bool) (ot : BitVec 3) (rm : BitVec 2) (sat : Bool) (incd : Bool) : Statement (.mout st d q set ot rm sat incd) :=
  fmtMout (by decide) (fun w y h => by simp only [decodeOp, decodeOpE, h]) st d q set ot rm sat incd rfl

theorem gang (st : Stall) : Statement (.gang st) :=
  fmtGang (by decide) (fun w y h => by simp only [decodeOp, decodeOpE, h]) st rfl

theorem skset (st : Stall) (base : BitVec 9) (len : BitVec 10) : Statement (.skset st base len) :=
  fmtSkset (by decide) (fun w y h => by simp only [decodeOp, decodeOpE, h]) st base len rfl

theorem push (st : Stall) (d : Reg) (dir : BitVec 3) (m : Bool) : Statement (.push st d dir m) :=
  fmtPush (by decide) (fun w y h => by simp only [decodeOp, decodeOpE, h]) st d dir m rfl

theorem pushv (st : Stall) (d : VReg) (dir : BitVec 3) (m : Bool) : Statement (.pushv st d dir m) :=
  fmtPushv (by decide) (fun w y h => by simp only [decodeOp, decodeOpE, h]) st d dir m rfl

theorem pop (st : Stall) (d : Reg) (dir : BitVec 3) (b : Reg) : Statement (.pop st d dir b) :=
  fmtPop (by decide) (fun w y h => by simp only [decodeOp, decodeOpE, h]) st d dir b rfl

theorem popv (st : Stall) (d : VReg) (dir : BitVec 3) (b : Reg) : Statement (.popv st d dir b) :=
  fmtPopv (by decide) (fun w y h => by simp only [decodeOp, decodeOpE, h]) st d dir b rfl

theorem peek (st : Stall) (d : Reg) (dir : BitVec 3) (b : Reg) : Statement (.peek st d dir b) :=
  fmtPeek (by decide) (fun w y h => by simp only [decodeOp, decodeOpE, h]) st d dir b rfl

theorem pcfg (st : Stall) (d : Reg) (a : Reg) : Statement (.pcfg st d a) :=
  fmtDA (by decide) (fun w y h => by simp only [decodeOp, decodeOpE, h]) st d a rfl

theorem snewBead (st : Stall) (d : Reg) (a : Reg) (b : Reg) (c : Reg) : Statement (.snewBead st d a b c) :=
  fmtYL3 (sub := 0) (by decide) (fun w y h hs => by simp only [decodeOp, decodeOpF, h, hs]) st d a b c (by decide) rfl

theorem snewDesc (st : Stall) (d : Reg) (a : Reg) : Statement (.snewDesc st d a) :=
  fmtYS (sub := 1) (by decide) (fun w y h hs => by simp only [decodeOp, decodeOpF, h, hs]) st d a (by decide) rfl

theorem scat (st : Stall) (d : Reg) (a : Reg) (b : Reg) : Statement (.scat st d a b) :=
  fmtYL2 (sub := 0) (by decide) (fun w y h hs => by simp only [decodeOp, decodeOpF, h, hs, zeroAt_fD hs, need, if_true]) st d a b (by decide) rfl

theorem ssplit (st : Stall) (d : Reg) (a : Reg) (b : Reg) : Statement (.ssplit st d a b) :=
  fmtYL2 (sub := 0) (by decide) (fun w y h hs => by simp only [decodeOp, decodeOpF, h, hs, zeroAt_fD hs, need, if_true]) st d a b (by decide) rfl

theorem ssplice (st : Stall) (d : Reg) (a : Reg) (b : Reg) (c : Reg) : Statement (.ssplice st d a b c) :=
  fmtYL3 (sub := 0) (by decide) (fun w y h hs => by simp only [decodeOp, decodeOpF, h, hs, zeroAt_fD hs, need, if_true]) st d a b c (by decide) rfl

theorem ssum (st : Stall) (d : VReg) (a : Reg) (b : Reg) (c : Reg) (f : BitVec 2) : Statement (.ssum st d a b c f) :=
  fmtSsum (sub := 0) (by decide) (fun w y h hs => by simp only [decodeOp, decodeOpF, h, hs, zeroAt_fD hs, need, if_true]) st d a b c f (by decide) rfl

theorem sloc (st : Stall) (d : Reg) (a : Reg) (b : Reg) : Statement (.sloc st d a b) :=
  fmtYL2 (sub := 0) (by decide) (fun w y h hs => by simp only [decodeOp, decodeOpF, h, hs, zeroAt_fD hs, need, if_true]) st d a b (by decide) rfl

theorem sstep (st : Stall) (d : Reg) (a : Reg) (b : Reg) : Statement (.sstep st d a b) :=
  fmtYL2 (sub := 0) (by decide) (fun w y h hs => by simp only [decodeOp, decodeOpF, h, hs, zeroAt_fD hs, need, if_true]) st d a b (by decide) rfl

theorem srefHold (st : Stall) (d : Reg) (a : Reg) : Statement (.srefHold st d a) :=
  fmtYS (sub := 0) (by decide) (fun w y h hs => by simp only [decodeOp, decodeOpF, h, hs]) st d a (by decide) rfl

theorem srefRel (st : Stall) (d : Reg) (a : Reg) : Statement (.srefRel st d a) :=
  fmtYS (sub := 1) (by decide) (fun w y h hs => by simp only [decodeOp, decodeOpF, h, hs]) st d a (by decide) rfl

theorem scommit (st : Stall) (d : Reg) (a : Reg) (b : Reg) (c : Reg) : Statement (.scommit st d a b c) :=
  fmtYL3 (sub := 0) (by decide) (fun w y h hs => by simp only [decodeOp, decodeOpF, h, hs, zeroAt_fD hs, need, if_true]) st d a b c (by decide) rfl

theorem strandFree (x0 : Nat) : Statement (.strandFree x0) := encodes_event rfl

theorem kvpgAlloc (st : Stall) (d : Reg) (a : Reg) : Statement (.kvpgAlloc st d a) :=
  fmtYS (sub := 0) (by decide) (fun w y h hs => by simp only [decodeOp, decodeOpF, decodeSubMem, h, hs]) st d a (by decide) rfl

theorem kvpgFree (st : Stall) (d : Reg) (a : Reg) (b : Reg) : Statement (.kvpgFree st d a b) :=
  fmtYL2 (sub := 1) (by decide) (fun w y h hs => by simp only [decodeOp, decodeOpF, decodeSubMem, h, hs]) st d a b (by decide) rfl

theorem kvpgSlot (st : Stall) (d : Reg) (a : Reg) (b : Reg) : Statement (.kvpgSlot st d a b) :=
  fmtYL2 (sub := 2) (by decide) (fun w y h hs => by simp only [decodeOp, decodeOpF, decodeSubMem, h, hs]) st d a b (by decide) rfl

theorem viewRegMst (st : Stall) (d : Reg) (a : Reg) : Statement (.viewRegMst st d a) :=
  fmtViewMst (sub := 0) (by decide) (fun w y h hs => by simp only [decodeOp, decodeOpF, decodeSubMem, h, hs] <;> rfl) st d a (by decide) rfl

theorem viewRegDrv (st : Stall) (d : Reg) (a : Reg) : Statement (.viewRegDrv st d a) :=
  fmtViewDrv (sub := 0) (by decide) (fun w y h hs => by simp only [decodeOp, decodeOpF, decodeSubMem, h, hs] <;> rfl) st d a (by decide) rfl

theorem viewDrop (st : Stall) (d : Reg) (a : Reg) : Statement (.viewDrop st d a) :=
  fmtYS (sub := 1) (by decide) (fun w y h hs => by simp only [decodeOp, decodeOpF, decodeSubMem, h, hs]) st d a (by decide) rfl

theorem viewLd (st : Stall) (d : Reg) (a : Reg) (b : Reg) (c : Reg) : Statement (.viewLd st d a b c) :=
  fmtYL3 (sub := 2) (by decide) (fun w y h hs => by simp only [decodeOp, decodeOpF, decodeSubMem, h, hs]) st d a b c (by decide) rfl

theorem viewWait (st : Stall) (d : Reg) (a : Reg) (b : Reg) : Statement (.viewWait st d a b) :=
  fmtYL2 (sub := 3) (by decide) (fun w y h hs => by simp only [decodeOp, decodeOpF, decodeSubMem, h, hs]) st d a b (by decide) rfl

theorem churnRefresh (x0 : Nat) : Statement (.churnRefresh x0) := encodes_event rfl

theorem pendTake (x0 : Nat) : Statement (.pendTake x0) := encodes_event rfl

theorem engCpy (st : Stall) (d : Reg) (a : Reg) (b : Reg) (c : Reg) : Statement (.engCpy st d a b c) :=
  fmtYL3 (sub := 0) (by decide) (fun w y h hs => by simp only [decodeOp, decodeOpF, decodeSubMem, h, hs]) st d a b c (by decide) rfl

theorem engPoolrd (st : Stall) (d : Reg) (a : Reg) (b : Reg) (c : Reg) : Statement (.engPoolrd st d a b c) :=
  fmtYL3 (sub := 1) (by decide) (fun w y h hs => by simp only [decodeOp, decodeOpF, decodeSubMem, h, hs]) st d a b c (by decide) rfl

theorem engPoolwr (st : Stall) (d : Reg) (a : Reg) (b : Reg) (c : Reg) : Statement (.engPoolwr st d a b c) :=
  fmtYL3 (sub := 2) (by decide) (fun w y h hs => by simp only [decodeOp, decodeOpF, decodeSubMem, h, hs]) st d a b c (by decide) rfl

theorem engSleepu (st : Stall) (a : Reg) : Statement (.engSleepu st a) :=
  fmtYSa (sub := 3) (by decide) (fun w y h hs => by simp only [decodeOp, decodeOpF, decodeSubMem, h, hs]) st a (by decide) rfl

theorem copyStart (x0 : Nat) : Statement (.copyStart x0) := encodes_event rfl

theorem copyComplete (x0 : Nat) : Statement (.copyComplete x0) := encodes_event rfl

theorem promiseMiss (x0 : Nat) (x1 : Nat) : Statement (.promiseMiss x0 x1) := encodes_event rfl

theorem sleepuWake (x0 : Nat) (x1 : Nat) : Statement (.sleepuWake x0 x1) := encodes_event rfl

theorem poolTimeout (x0 : Nat) : Statement (.poolTimeout x0) := encodes_event rfl

theorem poolLineAccept (x0 : Nat) : Statement (.poolLineAccept x0) := encodes_event rfl

theorem ownershipMove (x0 : Nat) (x1 : Nat) (x2 : Nat) : Statement (.ownershipMove x0 x1 x2) := encodes_event rfl

theorem start (st : Stall) (d : Reg) (a : Reg) (b : Reg) (c : Reg) : Statement (.start st d a b c) :=
  fmtYL3 (sub := 0) (by decide) (fun w y h hs => by simp only [decodeOp, decodeOpF, decodeSubCtx, h, hs]) st d a b c (by decide) rfl

theorem join (st : Stall) (d : Reg) (a : Reg) : Statement (.join st d a) :=
  fmtYS (sub := 1) (by decide) (fun w y h hs => by simp only [decodeOp, decodeOpF, decodeSubCtx, h, hs]) st d a (by decide) rfl

theorem launch (st : Stall) (d : Reg) (a : Reg) : Statement (.launch st d a) :=
  fmtYS (sub := 2) (by decide) (fun w y h hs => by simp only [decodeOp, decodeOpF, decodeSubCtx, h, hs]) st d a (by decide) rfl

theorem ctxNew (st : Stall) (d : Reg) (a : Reg) : Statement (.ctxNew st d a) :=
  fmtYS (sub := 0) (by decide) (fun w y h hs => by simp only [decodeOp, decodeOpF, decodeSubCtx, h, hs]) st d a (by decide) rfl

theorem ctxGive (st : Stall) (d : Reg) (a : Reg) (b : Reg) : Statement (.ctxGive st d a b) :=
  fmtYL2 (sub := 1) (by decide) (fun w y h hs => by simp only [decodeOp, decodeOpF, decodeSubCtx, h, hs]) st d a b (by decide) rfl

theorem ctxRevoke (st : Stall) (d : Reg) (a : Reg) (b : Reg) : Statement (.ctxRevoke st d a b) :=
  fmtYL2 (sub := 2) (by decide) (fun w y h hs => by simp only [decodeOp, decodeOpF, decodeSubCtx, h, hs]) st d a b (by decide) rfl

theorem ctxRun (st : Stall) (d : Reg) (a : Reg) : Statement (.ctxRun st d a) :=
  fmtYS (sub := 3) (by decide) (fun w y h hs => by simp only [decodeOp, decodeOpF, decodeSubCtx, h, hs]) st d a (by decide) rfl

theorem ctxStop (st : Stall) (d : Reg) (a : Reg) : Statement (.ctxStop st d a) :=
  fmtYS (sub := 4) (by decide) (fun w y h hs => by simp only [decodeOp, decodeOpF, decodeSubCtx, h, hs]) st d a (by decide) rfl

theorem ctxSave (st : Stall) (d : Reg) (a : Reg) (b : Reg) : Statement (.ctxSave st d a b) :=
  fmtYL2 (sub := 5) (by decide) (fun w y h hs => by simp only [decodeOp, decodeOpF, decodeSubCtx, h, hs]) st d a b (by decide) rfl

theorem ctxLoad (st : Stall) (d : Reg) (a : Reg) (b : Reg) : Statement (.ctxLoad st d a b) :=
  fmtYL2 (sub := 6) (by decide) (fun w y h hs => by simp only [decodeOp, decodeOpF, decodeSubCtx, h, hs]) st d a b (by decide) rfl

theorem ctxDirty (st : Stall) (d : Reg) (a : Reg) (b : Reg) (c : Reg) : Statement (.ctxDirty st d a b c) :=
  fmtYL3 (sub := 7) (by decide) (fun w y h hs => by simp only [decodeOp, decodeOpF, decodeSubCtx, h, hs]) st d a b c (by decide) rfl

theorem ctxS2map (st : Stall) (d : Reg) (a : Reg) (b : Reg) : Statement (.ctxS2map st d a b) :=
  fmtS2map (sub := 8) (by decide) (fun w y h hs => by simp only [decodeOp, decodeOpF, decodeSubCtx, h, hs]) st d a b (by decide) rfl

theorem ctxS2mapBead (st : Stall) (d : Reg) (a : Reg) (b : Reg) : Statement (.ctxS2mapBead st d a b) :=
  fmtS2mapBead (sub := 8) (by decide) (fun w y h hs => by simp only [decodeOp, decodeOpF, decodeSubCtx, h, hs]) st d a b (by decide) rfl

theorem csrr (st : Stall) (d : Reg) (csr : BitVec 12) : Statement (.csrr st d csr) :=
  fmtCsrr (sub := 0) (by decide) (fun w y h hs => by simp only [decodeOp, decodeOpF, decodeSubSys, h, hs]) st d csr (by decide) rfl

theorem csrw (st : Stall) (a : Reg) (csr : BitVec 12) : Statement (.csrw st a csr) := by
  refine fmtCsrw (sub := 1) (n := csr) (by decide) (fun w y h hs => by simp only [decodeOp, decodeOpF, decodeSubSys, h, hs]) st a (by decide) (fun h => ?_) rfl
  simp only [Instr.wf, csrwPlain, Bool.and_eq_true, bne_iff_ne, ne_eq] at h
  obtain ⟨⟨⟨⟨⟨_, h1⟩, h2⟩, h3⟩, h4⟩, h5⟩ := h
  simp only [decCsrw, beq_iff_eq, h1, h2, h3, h4, h5, if_false]

theorem arenaInit (st : Stall) (a : Reg) : Statement (.arenaInit st a) :=
  fmtCsrw (sub := 1) (n := 0x110) (by decide) (fun w y h hs => by simp only [decodeOp, decodeOpF, decodeSubSys, h, hs]) st a (by decide) (fun _ => rfl) rfl

theorem redrgnWrite (st : Stall) (a : Reg) : Statement (.redrgnWrite st a) :=
  fmtCsrw (sub := 1) (n := 0x111) (by decide) (fun w y h hs => by simp only [decodeOp, decodeOpF, decodeSubSys, h, hs]) st a (by decide) (fun _ => rfl) rfl

theorem xsplitWrite (st : Stall) (a : Reg) : Statement (.xsplitWrite st a) :=
  fmtCsrw (sub := 1) (n := 0x103) (by decide) (fun w y h hs => by simp only [decodeOp, decodeOpF, decodeSubSys, h, hs]) st a (by decide) (fun _ => rfl) rfl

theorem featWrite (st : Stall) (a : Reg) (hi : Bool) : Statement (.featWrite st a hi) := by
  cases hi
  · exact fmtCsrw (sub := 1) (n := 0x106) (by decide) (fun w y h hs => by simp only [decodeOp, decodeOpF, decodeSubSys, h, hs]) st a (by decide) (fun _ => rfl) rfl
  · exact fmtCsrw (sub := 1) (n := 0x107) (by decide) (fun w y h hs => by simp only [decodeOp, decodeOpF, decodeSubSys, h, hs]) st a (by decide) (fun _ => rfl) rfl

theorem trap (st : Stall) (n : BitVec 16) : Statement (.trap st n) :=
  fmtTrap (sub := 2) (by decide) (fun w y h hs => by simp only [decodeOp, decodeOpF, decodeSubSys, h, hs]) st n (by decide) rfl

theorem brk (st : Stall) (n : BitVec 16) : Statement (.brk st n) :=
  fmtBrk (sub := 6) (by decide) (fun w y h hs => by simp only [decodeOp, decodeOpF, decodeSubSys, h, hs]) st n (by decide) rfl

theorem upret (st : Stall) (a : Reg) (b : Reg) : Statement (.upret st a b) :=
  fmtUpret (sub := 3) (by decide) (fun w y h hs => by simp only [decodeOp, decodeOpF, decodeSubSys, h, hs]) st a b (by decide) rfl

theorem tlbinv (st : Stall) (a : Reg) (scope : Scope) : Statement (.tlbinv st a scope) :=
  fmtTlbinv (sub := 4) (by decide) (fun w y h hs => by simp only [decodeOp, decodeOpF, decodeSubSys, h, hs]) st a scope (by decide) rfl

theorem inth (st : Stall) (a : Reg) : Statement (.inth st a) :=
  fmtYSa (sub := 5) (by decide) (fun w y h hs => by simp only [decodeOp, decodeOpF, decodeSubSys, h, hs]) st a (by decide) rfl

theorem icinv (st : Stall) (a : Reg) (scope : Scope) : Statement (.icinv st a scope) :=
  fmtIcinv (sub := 7) (by decide) (fun w y h hs => by simp only [decodeOp, decodeOpF, decodeSubSys, h, hs]) st a scope (by decide) rfl

theorem resultLand (x0 : Nat) (x1 : Nat) : Statement (.resultLand x0 x1) := encodes_event rfl

theorem missRepresent (x0 : Nat) (x1 : Nat) : Statement (.missRepresent x0 x1) := encodes_event rfl

theorem walkComplete (x0 : Nat) : Statement (.walkComplete x0) := encodes_event rfl

theorem shootdownEcho (x0 : Nat) (x1 : Nat) (x2 : Nat) : Statement (.shootdownEcho x0 x1 x2) := encodes_event rfl

theorem sliceRequest (x0 : Nat) : Statement (.sliceRequest x0) := encodes_event rfl

theorem bufferRequest (x0 : Nat) : Statement (.bufferRequest x0) := encodes_event rfl

theorem syncRequest (x0 : Nat) : Statement (.syncRequest x0) := encodes_event rfl

theorem syncRepresent (x0 : Nat) (x1 : Nat) : Statement (.syncRepresent x0 x1) := encodes_event rfl

theorem syncTimeout (x0 : Nat) (x1 : Nat) : Statement (.syncTimeout x0 x1) := encodes_event rfl

theorem probeEcho (x0 : Nat) (x1 : Nat) (x2 : Nat) : Statement (.probeEcho x0 x1 x2) := encodes_event rfl

theorem reservationExpiry (x0 : Nat) : Statement (.reservationExpiry x0) := encodes_event rfl

theorem waitmDeadline (x0 : Nat) (x1 : Nat) : Statement (.waitmDeadline x0 x1) := encodes_event rfl

theorem portTimeout (x0 : Nat) (x1 : Nat) : Statement (.portTimeout x0 x1) := encodes_event rfl

theorem barTimeout (x0 : Nat) (x1 : Nat) : Statement (.barTimeout x0 x1) := encodes_event rfl

theorem gangTimeout (x0 : Nat) (x1 : Nat) : Statement (.gangTimeout x0 x1) := encodes_event rfl

theorem viewWaitTimeout (x0 : Nat) (x1 : Nat) : Statement (.viewWaitTimeout x0 x1) := encodes_event rfl

theorem sigwaitTimeout (x0 : Nat) (x1 : Nat) : Statement (.sigwaitTimeout x0 x1) := encodes_event rfl

theorem matrixQueueRun (x0 : Nat) : Statement (.matrixQueueRun x0) := encodes_event rfl

theorem mmaStepStart (x0 : Nat) : Statement (.mmaStepStart x0) := encodes_event rfl

theorem mmaStepEnd (x0 : Nat) : Statement (.mmaStepEnd x0) := encodes_event rfl

theorem freeze (x0 : Nat) : Statement (.freeze x0) := encodes_event rfl

theorem gangStepTimeout (x0 : Nat) : Statement (.gangStepTimeout x0) := encodes_event rfl

theorem mzeroDone (x0 : Nat) : Statement (.mzeroDone x0) := encodes_event rfl

theorem moutDone (x0 : Nat) : Statement (.moutDone x0) := encodes_event rfl

theorem sequencerChoose (x0 : Nat) : Statement (.sequencerChoose x0) := encodes_event rfl

theorem agePromotion (x0 : Nat) : Statement (.agePromotion x0) := encodes_event rfl

theorem iterationEnd (x0 : Nat) : Statement (.iterationEnd x0) := encodes_event rfl

theorem haltComplete (x0 : Nat) : Statement (.haltComplete x0) := encodes_event rfl

theorem replyArrival (x0 : Nat) : Statement (.replyArrival x0) := encodes_event rfl

theorem scrub (x0 : Nat) : Statement (.scrub x0) := encodes_event rfl

theorem sliceFailure (x0 : Nat) : Statement (.sliceFailure x0) := encodes_event rfl

theorem hostWindowRead (x0 : Nat) (x1 : Nat) (x2 : Nat) : Statement (.hostWindowRead x0 x1 x2) := encodes_event rfl

theorem hostWindowWrite (x0 : Nat) (x1 : Nat) (x2 : List (BitVec 8)) (x3 : Bool) : Statement (.hostWindowWrite x0 x1 x2 x3) := encodes_event rfl

theorem wbaseWrite (x0 : Nat) (x1 : BitVec 64) : Statement (.wbaseWrite x0 x1) := encodes_event rfl

theorem hvClear (x0 : Nat) : Statement (.hvClear x0) := encodes_event rfl

theorem doorbell (x0 : Nat) (x1 : BitVec 64) : Statement (.doorbell x0 x1) := encodes_event rfl

theorem dblostClear (x0 : Nat) : Statement (.dblostClear x0) := encodes_event rfl

theorem pfDoorbell (x0 : BitVec 64) : Statement (.pfDoorbell x0) := encodes_event rfl

theorem vfBind (x0 : Nat) (x1 : Nat) : Statement (.vfBind x0 x1) := encodes_event rfl

theorem fwload (x0 : BitVec 64) (x1 : BitVec 64) (x2 : List (BitVec 8)) : Statement (.fwload x0 x1 x2) := encodes_event rfl

theorem quote (x0 : BitVec 64) (x1 : BitVec 64) (x2 : List (BitVec 8)) : Statement (.quote x0 x1 x2) := encodes_event rfl

theorem ownmove (x0 : BitVec 64) (x1 : BitVec 64) (x2 : BitVec 64) : Statement (.ownmove x0 x1 x2) := encodes_event rfl

theorem logread (x0 : BitVec 64) : Statement (.logread x0) := encodes_event rfl

theorem mailboxUnknown (x0 : List (Nat × BitVec 64)) : Statement (.mailboxUnknown x0) := encodes_event rfl

theorem doneClear : Statement .doneClear := encodes_event rfl

theorem plimWrite (x0 : BitVec 16) : Statement (.plimWrite x0) := encodes_event rfl

theorem plimEffect : Statement (.plimEffect ) := encodes_event rfl

theorem korxoFrame (x0 : KorxoFrame) : Statement (.korxoFrame x0) := encodes_event rfl

theorem linkRetry (x0 : Nat) : Statement (.linkRetry x0) := encodes_event rfl

theorem linkError (x0 : Nat) (x1 : LinkFault) : Statement (.linkError x0 x1) := encodes_event rfl

theorem linkRetire (x0 : Nat) : Statement (.linkRetire x0) := encodes_event rfl

theorem powerOn : Statement (.powerOn ) := encodes_event rfl

theorem imageJudge (x0 : List (BitVec 8)) : Statement (.imageJudge x0) := encodes_event rfl

theorem memoryInit (x0 : Option Nat) : Statement (.memoryInit x0) := encodes_event rfl

theorem diePowerUp (x0 : Nat) : Statement (.diePowerUp x0) := encodes_event rfl

theorem rowRelease (x0 : Nat) (x1 : Nat) : Statement (.rowRelease x0 x1) := encodes_event rfl

theorem bootProgramStart (x0 : BootImage) : Statement (.bootProgramStart x0) := encodes_event rfl

theorem diesIntoService : Statement (.diesIntoService ) := encodes_event rfl

theorem spentTurn (x0 : Nat) (x1 : Nat) : Statement (.spentTurn x0 x1) := encodes_event rfl

theorem illegalInstruction (x0 : BitVec 32) : Statement (.illegalInstruction x0) := encodes_event rfl

theorem churnServe (x0 : Nat) (x1 : Nat) : Statement (.churnServe x0 x1) := encodes_event rfl

theorem mailboxAnswer : Statement (.mailboxAnswer ) := encodes_event rfl

theorem linkTrained (x0 : Nat) (x1 : Bool) : Statement (.linkTrained x0 x1) := encodes_event rfl

theorem numvfsWrite (x0 : Nat) : Statement (.numvfsWrite x0) := encodes_event rfl

end Sys2Proof.Laws.Enc
end

