-- ==== Sys2Proof/Certificates/Slice0/Obligations.lean ====
section
/-!
DEFINITION. The statements for the provers: what the numbered rules of the spec say that instructions and the machine do. Words
shared by several statements, and the parts of the statements that have several, stand under Sys2Proof.Spec.
-/

set_option autoImplicit false

open Sys2Proof Sys2Proof.Machine

namespace Sys2Proof.Spec

open Sys2Proof.Machine

/-! ### Numbers, as the rules count them -/

/-- Is this width code 32 bits (R244)? -/
def width (t : BitVec 2) : Nat := if t = 0 then 64 else 32

/-- The unsigned value of a source at a width (R275). -/
def uval (W : Nat) (x : Word) : Nat := x.toNat % 2 ^ W

/-- The signed value of a source at a width (R275). -/
def sval (W : Nat) (x : Word) : Int := if 2 * uval W x < 2 ^ W then (uval W x : Int) else (uval W x : Int) - 2 ^ W

/-- A result at the width of t: its low bits, zero-extended under .Z32 and sign-extended otherwise (R244). -/
def extend (t : BitVec 2) (v : Int) : Word :=
  BitVec.ofInt 64 (if t = 2 then v % 2 ^ 32 else if t = 1 then v.bmod (2 ^ 32) else v)

/-- The number of one bits below bit `W` that satisfy a test of their index. -/
def countBits (W : Nat) (p : Nat → Bool) : Nat := ((List.range W).filter p).length

/-! ### Floating-point codes, by their fields (R87) -/

/-- The canonical NaN of F32 (R87). -/
def nan32 : Nat := 0x7FC00000

/-- The exponent field of a code of a format with `eb` exponent and `fb` fraction bits. -/
def expOf (eb fb c : Nat) : Nat := c / 2 ^ fb % 2 ^ eb

/-- Is the code finite: an exponent field that is not all ones? -/
def finite (eb fb c : Nat) : Bool := expOf eb fb c != 2 ^ eb - 1

/-- Is the code a NaN? -/
def isNan (eb fb c : Nat) : Bool := !finite eb fb c && c % 2 ^ fb != 0

/-- The sign bit of a code. -/
def negative (eb fb c : Nat) : Bool := c / 2 ^ (eb + fb) % 2 == 1

/-- The exact value of a finite code. -/
def value (eb fb c : Nat) : ℚ :=
  let e := expOf eb fb c
  let m : ℚ := if e = 0 then (c % 2 ^ fb : Nat) * 2 else (2 ^ fb + c % 2 ^ fb : Nat) * 2 ^ e
  (if negative eb fb c then -1 else 1) * m / 2 ^ (fb + 2 ^ (eb - 1) - 1)

/-- The value of a finite F32 code. -/
def value32 (c : Nat) : ℚ := value 8 23 c

/-- The order of codes that are no NaN: −0 and +0 are equal. -/
def order (eb fb c : Nat) : Int := if negative eb fb c then -(c % 2 ^ (eb + fb) : Nat) else (c % 2 ^ (eb + fb) : Nat)

/-- The order of F32 codes. -/
def order32 (c : Nat) : Int := order 8 23 c

/-- The code of an infinity, by its magnitude. -/
def infOf (eb fb : Nat) : Nat := (2 ^ eb - 1) * 2 ^ fb

/-- The canonical NaN of a format (R87). -/
def nanOf (eb fb : Nat) : Nat := infOf eb fb + 2 ^ (fb - 1)

/-- The F32 code in a register (R280). -/
def code32 (x : Word) : Nat := x.toNat % 2 ^ 32

/-- A number rounds out of a format: its magnitude is at least halfway from the largest finite value to the next power of two. -/
def overflows (eb fb : Nat) (q : ℚ) : Bool :=
  decide ((2 : ℚ) ^ (2 ^ (eb - 1)) - (2 : ℚ) ^ (2 ^ (eb - 1) - 2 - fb) ≤ |q|)

/-- A number rounds out of F32. -/
def overflows32 (q : ℚ) : Bool := overflows 8 23 q

/-- A code is a number rounded to a format, to nearest, ties to even (R92): an infinity where the number overflows, else a finite
code that no other is nearer than, and an even one where another is as near. -/
def RoundedTo (eb fb : Nat) (q : ℚ) (c : Nat) : Prop :=
  c < 2 ^ (1 + eb + fb) ∧ (q ≠ 0 → (negative eb fb c = true ↔ q < 0))
  ∧ (if overflows eb fb q then c % 2 ^ (eb + fb) = infOf eb fb
     else finite eb fb c = true
      ∧ ∀ c' < 2 ^ (1 + eb + fb), finite eb fb c' = true → |value eb fb c - q| ≤ |value eb fb c' - q|
        ∧ (value eb fb c' ≠ value eb fb c → |value eb fb c - q| = |value eb fb c' - q| → c % 2 = 0))

/-- A code is a number rounded to F32. -/
def RoundedTo32 (q : ℚ) (c : Nat) : Prop := RoundedTo 8 23 q c

/-- The flags of a result rounded from an exact value (R93). -/
def RoundingFlags (eb fb : Nat) (q : ℚ) (c : Nat) (fl : Flags) : Prop :=
  fl.nv = false ∧ fl.of_ = overflows eb fb q
  ∧ (fl.nx = true ↔ overflows eb fb q = true ∨ value eb fb c ≠ q)
  ∧ (fl.uf = true ↔ overflows eb fb q = false ∧ value eb fb c ≠ q ∧ |value eb fb c| < 2 / (2 : ℚ) ^ (2 ^ (eb - 1) - 1))

/-- The flags of a result rounded to F32. -/
def RoundingFlags32 (q : ℚ) (c : Nat) (fl : Flags) : Prop := RoundingFlags 8 23 q c fl

/-- Is the code an infinity? -/
def isInf (eb fb c : Nat) : Prop := c % 2 ^ (eb + fb) = infOf eb fb

/-- The code with its sign inverted. -/
def minusOf (eb fb c : Nat) : Nat := (c + 2 ^ (eb + fb)) % 2 ^ (1 + eb + fb)

/-- What the sum of two codes gives (R92, R93, R280). -/
def SumGives (eb fb x y r : Nat) (fl : Flags) : Prop :=
  (isNan eb fb x = true ∨ isNan eb fb y = true → r = nanOf eb fb ∧ fl = .none)
  ∧ (isInf eb fb x → y = minusOf eb fb x → r = nanOf eb fb ∧ fl = .invalid)
  ∧ (isInf eb fb x → finite eb fb y = true ∨ y = x → r = x ∧ fl = .none)
  ∧ (finite eb fb x = true → isInf eb fb y → r = y ∧ fl = .none)
  ∧ (finite eb fb x = true → finite eb fb y = true →
      RoundedTo eb fb (value eb fb x + value eb fb y) r ∧ RoundingFlags eb fb (value eb fb x + value eb fb y) r fl)

/-- The infinity of the signs of a product. -/
def infProduct (eb fb x y : Nat) : Nat :=
  infOf eb fb + if negative eb fb x = negative eb fb y then 0 else 2 ^ (eb + fb)

/-- A product of zero and an infinity. -/
def zeroTimesInf (eb fb x y : Nat) : Prop :=
  (x % 2 ^ (eb + fb) = 0 ∧ isInf eb fb y) ∨ (isInf eb fb x ∧ y % 2 ^ (eb + fb) = 0)

/-- A product of an infinity and a number that is not zero. -/
def timesInf (eb fb x y : Nat) : Prop :=
  (isInf eb fb x ∨ isInf eb fb y) ∧ isNan eb fb x = false ∧ isNan eb fb y = false ∧ ¬ zeroTimesInf eb fb x y

/-- What the product of two codes gives (R92, R93, R280). -/
def ProductGives (eb fb x y r : Nat) (fl : Flags) : Prop :=
  (isNan eb fb x = true ∨ isNan eb fb y = true → r = nanOf eb fb ∧ fl = .none)
  ∧ (zeroTimesInf eb fb x y → r = nanOf eb fb ∧ fl = .invalid)
  ∧ (timesInf eb fb x y → r = infProduct eb fb x y ∧ fl = .none)
  ∧ (finite eb fb x = true → finite eb fb y = true →
      RoundedTo eb fb (value eb fb x * value eb fb y) r ∧ RoundingFlags eb fb (value eb fb x * value eb fb y) r fl)

/-- What x × y + z gives, rounded once (R92, R93, R280). -/
def FmaGives (eb fb x y z r : Nat) (fl : Flags) : Prop :=
  let q := value eb fb x * value eb fb y + value eb fb z
  (isNan eb fb x = true ∨ isNan eb fb y = true → r = nanOf eb fb ∧ fl = .none)
  ∧ (zeroTimesInf eb fb x y → r = nanOf eb fb ∧ fl = .invalid)
  ∧ (timesInf eb fb x y →
      (isNan eb fb z = true → r = nanOf eb fb ∧ fl = .none)
      ∧ (z = minusOf eb fb (infProduct eb fb x y) → r = nanOf eb fb ∧ fl = .invalid)
      ∧ (finite eb fb z = true ∨ z = infProduct eb fb x y → r = infProduct eb fb x y ∧ fl = .none))
  ∧ (finite eb fb x = true → finite eb fb y = true →
      (isNan eb fb z = true → r = nanOf eb fb ∧ fl = .none) ∧ (isInf eb fb z → r = z ∧ fl = .none)
      ∧ (finite eb fb z = true → RoundedTo eb fb q r ∧ RoundingFlags eb fb q r fl))

/-- The order of minima and maxima, in which −0 is below +0 (R280). -/
def below (eb fb x y : Nat) : Bool :=
  decide (order eb fb x < order eb fb y) || (order eb fb x == order eb fb y && negative eb fb x && !negative eb fb y)

/-- The value of a magnitude code of a format; the codes past its largest go on as if its exponents did (R87, R93). -/
def magnitude (eb fb c : Nat) : ℚ :=
  (if c / 2 ^ fb = 0 then c * 2 else (2 ^ fb + c % 2 ^ fb) * 2 ^ (c / 2 ^ fb) : Nat) / 2 ^ (fb + 2 ^ (eb - 1) - 1)

/-- The code that a magnitude rounds to in the direction RM names: its own, or one of the two whose values enclose it, the even one
where both are as near (R91, R95). `v` gives the values of the codes. -/
def Chosen (v : Nat → ℚ) (rm : BitVec 2) (neg : Bool) (m : ℚ) (c : Nat) : Prop :=
  v c = m ∨ ∃ lo, v lo < m ∧ m < v (lo + 1) ∧ (c = lo ∨ c = lo + 1)
    ∧ (c = lo + 1 ↔ (rm = 0 ∧ (v lo + v (lo + 1) < 2 * m ∨ v lo + v (lo + 1) = 2 * m ∧ lo % 2 = 1))
        ∨ (rm = 2 ∧ neg = true) ∨ (rm = 3 ∧ neg = false))

/-- A finite number of a sign and magnitude, converted to a format with its largest finite code and its infinity, if it has one
(R93, R95, R96). -/
def Narrowed (eb fb top : Nat) (inf : Option Nat) (rm : BitVec 2) (sat neg : Bool) (m : ℚ) (r : Nat) (fl : Flags) : Prop :=
  let code (c : Nat) : Nat := (if neg then 2 ^ (eb + fb) else 0) + c
  let away : Bool := rm == 0 || (rm == 2 && neg) || (rm == 3 && !neg)
  ∃ c, Chosen (magnitude eb fb) rm neg m c
    ∧ (c ≤ top → r = code c ∧ fl.nv = false ∧ fl.of_ = false ∧ (fl.nx = true ↔ magnitude eb fb c ≠ m)
        ∧ (fl.uf = true ↔ magnitude eb fb c ≠ m ∧ c < 2 ^ fb))
    ∧ (top < c → fl = ⟨false, true, false, true⟩
        ∧ r = code (match inf with | some i => if sat || !away then top else i | none => top))

/-- A number rounded to an integer in the direction RM names (R95). -/
def roundTo (rm : BitVec 2) (q : ℚ) : Int :=
  if rm = 1 then (if 0 ≤ q then ⌊q⌋ else ⌈q⌉)
  else if rm = 2 then ⌊q⌋
  else if rm = 3 then ⌈q⌉
  else if q - ⌊q⌋ < 1 / 2 then ⌊q⌋ else if 1 / 2 < q - ⌊q⌋ then ⌊q⌋ + 1
  else if ⌊q⌋ % 2 = 0 then ⌊q⌋ else ⌊q⌋ + 1

/-- The value of an M8 code: the run of equal bits from bit 6 gives the exponent, the bits below its marker the fraction
(R90). -/
def valueM8 (c : Nat) : ℚ :=
  let n := ((List.range 7).takeWhile fun j => c.testBit (6 - j) == c.testBit 6).length
  let k : Int := if c.testBit 6 then n - 1 else -n
  if c = 0 then 0 else (if 128 ≤ c then -1 else 1) * (2 : ℚ) ^ k * (1 + (c % 2 ^ (6 - n) : Nat) / 2 ^ (6 - n))

/-- The formats that a conversion names, with the codes of MOUT's OT (R345): 0 F32, 1 B16, 2 F16, 3 E4, 4 E5, 5 M8, and 6 for F4. -/
def formatBits (ty : Nat) : Nat × Nat :=
  match ty with
  | 0 => (8, 23) | 1 => (8, 7) | 2 => (5, 10) | 3 => (4, 3) | 4 => (5, 2) | 5 => (0, 7) | _ => (2, 1)

/-- An F32 code, divided by 2^z, converted to a format (R91, R93, R95, R96, R97). -/
def ConvertsTo (ty : Nat) (rm : BitVec 2) (sat : Bool) (z : Int) (x r : Nat) (fl : Flags) : Prop :=
  let neg := negative 8 23 x
  let saturated : Flags := ⟨false, true, false, true⟩
  let m : ℚ := |value32 x| / (2 : ℚ) ^ z
  let into (eb fb top : Nat) (inf : Option Nat) (nan : Nat) (nanFlags : Flags) (sat : Bool) : Prop :=
    let code (c : Nat) : Nat := (if neg then 2 ^ (eb + fb) else 0) + c
    (isNan 8 23 x = true → r = nan ∧ fl = nanFlags)
    ∧ (x % 2 ^ 31 = 0x7F800000 → match inf with
        | some i => if sat then r = code top ∧ fl = saturated else r = code i ∧ fl = .none
        | none => r = code top ∧ fl = saturated)
    ∧ (finite 8 23 x = true → Narrowed eb fb top inf rm sat neg m r fl)
  match ty with
  | 0 => into 8 23 0x7F7FFFFF (some 0x7F800000) nan32 .none false
  | 1 => into 8 7 0x7F7F (some 0x7F80) 0x7FC0 .none sat
  | 2 => into 5 10 0x7BFF (some 0x7C00) 0x7E00 .none sat
  | 3 => into 4 3 0x7E none 0x7F .none sat
  | 4 => into 5 2 0x7B (some 0x7C) 0x7E .none sat
  | 5 => (isNan 8 23 x = true → r = 0x80 ∧ fl = .none)
      ∧ (isNan 8 23 x = false → (finite 8 23 x = false ∨ 64 < m) → r = (if neg then 0xFF else 0x7F) ∧ fl = saturated)
      ∧ (finite 8 23 x = true → m ≤ 64 → ∃ c, c < 128 ∧ Chosen valueM8 rm neg m c
          ∧ r = (if c = 0 then 0 else (if neg then 128 else 0) + c)
          ∧ fl.nv = false ∧ fl.of_ = false ∧ (fl.nx = true ↔ valueM8 c ≠ m) ∧ (fl.uf = true ↔ valueM8 c ≠ m ∧ c = 0))
  | _ => into 2 1 7 none 0 .invalid sat

/-- An integer converted to F32 (R95, R96). -/
def IntConverts (rm : BitVec 2) (i : Int) (r : Nat) (fl : Flags) : Prop :=
  ∃ c, Chosen (magnitude 8 23) rm (decide (i < 0)) (i.natAbs : ℚ) c ∧ r = (if i < 0 then 2 ^ 31 else 0) + c
    ∧ fl = ⟨false, false, false, decide (magnitude 8 23 c ≠ (i.natAbs : ℚ))⟩

/-- A code of a format converted to F32, exactly (R96): `z` scales an element of F4 by 2^z, whose product beyond F32 becomes an
infinity with FOF and FNX, the model's choice, log entry 36. -/
def Widened (ty : Nat) (z : Int) (c r : Nat) (fl : Flags) : Prop :=
  let (eb, fb) := formatBits ty
  let same (v : ℚ) (neg : Bool) : Prop := finite 8 23 r = true ∧ value32 r = v ∧ negative 8 23 r = neg ∧ fl = .none
  match ty with
  | 3 => if c % 128 = 127 then r = nan32 ∧ fl = .none else same (value 4 3 c) (negative 4 3 c)
  | 5 => if c = 128 then r = nan32 ∧ fl = .none else same (valueM8 c) (decide (128 ≤ c))
  | 6 => let q := value 2 1 c * (2 : ℚ) ^ z
      if overflows32 q then r = (if negative 2 1 c then 0xFF800000 else 0x7F800000) ∧ fl = ⟨false, true, false, true⟩
      else same q (negative 2 1 c)
  | _ => (isNan eb fb c = true → r = nan32 ∧ fl = .none)
      ∧ (c % 2 ^ (eb + fb) = infOf eb fb → r = (if negative eb fb c then 0xFF800000 else 0x7F800000) ∧ fl = .none)
      ∧ (finite eb fb c = true → same (value eb fb c) (negative eb fb c))

/-- A result of several lanes has a flag where one of them has it (R93, R302). -/
def FlagsOver (l : List Nat) (g : Nat → Flags) (fl : Flags) : Prop :=
  (fl.nv = true ↔ ∃ i ∈ l, (g i).nv = true) ∧ (fl.of_ = true ↔ ∃ i ∈ l, (g i).of_ = true)
  ∧ (fl.uf = true ↔ ∃ i ∈ l, (g i).uf = true) ∧ (fl.nx = true ↔ ∃ i ∈ l, (g i).nx = true)

/-- Vexp of an F32 code, step by step; t is the table's 2^(j/64) rounded to F32 (R101). -/
def ExpGives (x r : Nat) (fl : Flags) : Prop :=
  (isNan 8 23 x = true → r = nan32 ∧ fl = .none) ∧ (x = 0x7F800000 → r = x ∧ fl = .none) ∧ (x = 0xFF800000 → r = 0 ∧ fl = .none)
  ∧ (finite 8 23 x = true → ∃ y, RoundedTo32 (value32 x * value32 0x3FB8AA3B) y
    ∧ (y = 0x7F800000 ∨ (finite 8 23 y = true ∧ 128 ≤ value32 y) → r = 0x7F800000 ∧ fl = ⟨false, true, false, true⟩)
    ∧ (y = 0xFF800000 ∨ (finite 8 23 y = true ∧ value32 y < -150) → r = 0 ∧ fl = ⟨false, false, true, true⟩)
    ∧ (finite 8 23 y = true → -150 ≤ value32 y → value32 y < 128 →
      let k := roundTo 0 (value32 y * 64)
      let f : ℚ := (value32 y * 64 - k) / 64
      let j := (k % 64).toNat
      ∃ p₁ p₂ p₃ t m,
        RoundedTo32 (value32 0x3D635847 * f + value32 0x3E75FDF0) p₁
        ∧ RoundedTo32 (value32 p₁ * f + value32 0x3F317218) p₂ ∧ RoundedTo32 (value32 p₂ * f) p₃
        ∧ 1 ≤ value32 t ∧ value32 t < 2 ∧ (value32 t - 1 / 2 ^ 24) ^ 64 ≤ 2 ^ j ∧ 2 ^ j ≤ (value32 t + 1 / 2 ^ 24) ^ 64
        ∧ RoundedTo32 (value32 t * value32 p₃ + value32 t) m ∧ RoundedTo32 (value32 m * (2 : ℚ) ^ (k / 64)) r
        ∧ fl = if r = 0x7F800000 then ⟨false, true, false, true⟩ else if r < 0x800000 then ⟨false, false, true, true⟩ else .none))

/-! ### Control -/

/-- The short form of a compare-branch. -/
def shortBranch (op : BranchOp) (st : Stall) (a b : Reg) (p : BitVec 8) : Instr :=
  match op with
  | .beq => .beq st a b p | .bne => .bne st a b p | .blt => .blt st a b p
  | .bge => .bge st a b p | .blo => .blo st a b p | .bhs => .bhs st a b p

/-- Is a compare-branch taken (R283)? -/
def taken (op : BranchOp) (x y : Word) : Prop :=
  match op with
  | .beq => x = y | .bne => x ≠ y | .blt => x.toInt < y.toInt
  | .bge => y.toInt ≤ x.toInt | .blo => x.toNat < y.toNat | .bhs => y.toNat ≤ x.toNat

/-- Only the issuing slot differs: no memory, no other slot and no other state of its core (R162). -/
def OnlySlot (s t : State) : Prop :=
  t = { s with cores := t.cores } ∧ (∀ c i, (c, i) ≠ s.cur → t.slot c i = s.slot c i)
  ∧ ∀ c, t.core c = { s.core c with slots := (t.core c).slots }

/-- Does loop n of a slot end at an address (R289)? -/
def endsAt (sl : Slot) (n : Nat) (e : Word) : Bool := sl.lc n != 0 && sl.cbWord (cbLe + n) == e

/-! ### Accesses (R247, R248, R293) -/

/-- The length in bytes of a form M instruction. -/
def formLen : MForm → Nat
  | .short _ => 4
  | .long .. => 8

/-- The index register of mode 0b11. -/
def indexOf : MForm → Reg
  | .short x => x
  | .long _ e => e.setWidth 6

/-- The displacement in bytes: disp6 counts accesses, disp32 bytes. -/
def dispOf (size : Nat) : MForm → Int
  | .short x => size * x.toInt
  | .long _ e => e.toInt

/-- The effective address of a form with an access size and an index scale (R293). -/
def address (s : State) (b : Reg) (m : BitVec 2) (f : MForm) (size scale : Nat) : Word :=
  if m = 3 then (s.reg b).val + (s.reg (indexOf f)).val * BitVec.ofNat 64 scale
  else (s.reg b).val + BitVec.ofInt 64 (dispOf size f)

/-- The registers that form the address. -/
def addressRegs (b : Reg) (m : BitVec 2) (f : MForm) : List Reg := if m = 3 then [b, indexOf f] else [b]

/-- The base update: by the size in mode 0b01, by w63 with its poison in mode 0b10 (R247, R293). -/
def baseUpdate (s : State) (b : Reg) (m : BitVec 2) (size : Nat) : List WordWrite :=
  if m = 1 then s.wr b ((s.reg b).val + BitVec.ofNat 64 size) false
  else if m = 2 then s.wr b ((s.reg b).val + (s.reg 63).val) (s.reg 63).poison
  else []

/-- The little-endian value of `n` bytes of memory (R11). -/
def leValue (m : List Host.Cell) (a n : Nat) : Nat := ((List.range n).map fun j => (mget m (a + j)).toNat * 256 ^ j).sum

/-- The `n` little-endian bytes of a value (R11). -/
def leBytesOf (n v : Nat) : List Byte := (List.range n).map fun j => BitVec.ofNat 8 (v / 256 ^ j)

/-- A loaded value of `n` bytes extended to 64 bits (R248). -/
def loaded (n : Nat) (signed : Bool) (v : Nat) : Word :=
  BitVec.ofInt 64 (if signed then (v : Int).bmod (2 ^ (8 * n)) else v)

/-- Is any word that `n` bytes lie in poisoned (R54)? -/
def poisonedAt (s : State) (a n : Nat) : Bool := (List.range n).any fun j => s.poison.contains ((a + j) / 8)

/-- Nothing but plain memory answers at the banks: no uncorrectable word, no held reduction, no failed slice. -/
def PlainMemory (s : State) : Prop := s.uncorr = [] ∧ s.redSlots = [] ∧ s.pkg.failed = []

/-- Does a wait end when a word is written: WAITM or SIGWAIT? -/
def watches : Wait → Bool
  | .waitm .. | .signal .. => true
  | _ => false

/-- No slot waits for a word to be written. -/
def NoWatcher (s : State) : Prop := ∀ c i w, (s.slot c i).wait = some w → watches w = false

/-- The issuing slot has nothing in flight nor kept from a wait, no access is unaccepted and no matrix operation is queued. -/
def Settled (s : State) : Prop :=
  s.me.pend = [] ∧ s.me.asIssued = [] ∧ s.reqs = [] ∧ (s.core s.cur.1).matrix = []

/-- Two states differ in nothing but slots of cores. -/
def SameButSlots (s t : State) : Prop :=
  t = { s with cores := t.cores } ∧ ∀ c, t.core c = { s.core c with slots := (t.core c).slots }

/-- What AMO writes from the old value and its operand (R366). -/
def amoResult (op : AmoOp) (old b : Word) : Word :=
  match op with
  | .add => BitVec.ofNat 64 (old.toNat + b.toNat)
  | .and => old &&& b
  | .or => old ||| b
  | .xor => old ^^^ b
  | .min => if old.toInt ≤ b.toInt then old else b
  | .max => if old.toInt ≤ b.toInt then b else old
  | .minu => if old.toNat ≤ b.toNat then old else b
  | .maxu => if old.toNat ≤ b.toNat then b else old
  | .swap => b

/-- No word is reserved, no slot waits for a reservation, and no host write is held by one that ended. -/
def NoReservation (s : State) : Prop := s.reservations = [] ∧ s.resQueue = [] ∧ ∀ h ∈ s.pkg.hostWrites, h.heldBy = []

/-- The issuing slot after a release at a scope that nothing holds up: its results have landed and its earlier accesses in the scope
are accepted (R175, R178). -/
def released (s : State) (sc : Scope) : State := (s.landUnder s.cur.1 s.cur.2).settleScope s.cur.1 s.cur.2 sc

/-- Only the issuing slot differs, and the traffic that the links between dies carry (R162, R430). -/
def OnlySlotAndLinks (s t : State) : Prop :=
  OnlySlot s { t with pkg := s.pkg } ∧ t.pkg = { s.pkg with links := t.pkg.links }

/-- A slot but for its monitor lines. -/
def sansMonitors (sl : Slot) : Slot := { sl with monitors := [] }

/-- POISON at a workspace word (R227). -/
def poisonAt (off : Nat) : Trap := ⟨6, 0, BitVec.ofNat 64 off, 0, .own, 3, false, false⟩

/-- Every byte but those of one word reads alike. -/
def SameBytesBut (s t : State) (p : Nat) : Prop := ∀ x, (x < p ∨ p + 8 ≤ x) → mget t.mem x = mget s.mem x

end Sys2Proof.Spec

open Sys2Proof.Spec


namespace Sys2Proof.Spec

open Sys2Proof.Machine

/-! ### Vector operands (R249, R250, R300 to R304) -/

/-- A vector instruction by its operation: the short form, or the long form where an extension word is given (R249, R250). The
fields it does not name are left out of the short form; b is the PART of a conversion and the FORM of VTLI. -/
def vecInstr (st : Stall) (op : VecOp) (d a b : VReg) (k : KReg) (t : BitVec 2) : Option VExt → Instr
  | some x => .vectorLong st op d a b k t x
  | none => match op with
    | .vadd => .vadd st d a b k t | .vsub => .vsub st d a b k t | .vmul => .vmul st d a b k t | .vfma => .vfma st d a b k t
    | .vmin => .vmin st d a b k t | .vmax => .vmax st d a b k t | .vabs => .vabs st d a k t | .vneg => .vneg st d a k t
    | .vand => .vand st d a b k t | .vor => .vor st d a b k t | .vxor => .vxor st d a b k t | .vshl => .vshl st d a b k t
    | .vshr => .vshr st d a b k t | .vsar => .vsar st d a b k t
    | .vcmpeq => .vcmpeq st (d.setWidth 3) a b k t | .vcmplt => .vcmplt st (d.setWidth 3) a b k t
    | .vcmple => .vcmple st (d.setWidth 3) a b k t
    | .vsel => .vsel st d a b k t | .vmov => .vmov st d a k t | .vperm => .vperm st d a b k t | .vslide => .vslide st d a b k t
    | .vredadd => .vredadd st d a k t | .vredmax => .vredmax st d a k t | .vredmin => .vredmin st d a k t
    | .vscan => .vscan st d a b k t | .vcnt => .vcnt st d k t | .vcmpr => .vcmpr st d a k t | .vidx => .vidx st d k t
    | .vkey => .vkey st d a k t | .vhist => .vhist st d a k t | .vsumgt => .vsumgt st d a k t
    | .cvtB16F32 => .vcvtB16F32 st d a b k | .cvtF16F32 => .vcvtF16F32 st d a b k | .cvtF32B16 => .vcvtF32B16 st d a b k
    | .cvtF32F16 => .vcvtF32F16 st d a b k | .cvtE4F32 => .vcvtE4F32 st d a b k | .cvtE5F32 => .vcvtE5F32 st d a b k
    | .cvtF32E4 => .vcvtF32E4 st d a b k | .cvtF32E5 => .vcvtF32E5 st d a b k | .cvtM8F32 => .vcvtM8F32 st d a b k
    | .cvtF32M8 => .vcvtF32M8 st d a b k | .cvtF4F32 => .vcvtF4F32 st d a b k | .cvtF32F4 => .vcvtF32F4 st d a b k
    | .cvtF32S32 => .vcvtF32S32 st d a b k | .cvtS32F32 => .vcvtS32F32 st d a b k
    | .vexp => .vexp st d a k | .vlog2 => .vlog2 st d a k | .vrcp => .vrcp st d a k | .vrsq => .vrsq st d a k
    | .vtli => .vtli st d a b k

/-- The length of the instruction. -/
def vecLen : Option VExt → Nat
  | none => 4
  | some _ => 8

/-- The element type code VT: TX × 4 + t (R249). -/
def vecType (t : BitVec 2) : Option VExt → Nat
  | none => t.toNat
  | some x => x.tx.toNat * 4 + t.toNat

/-- The scalar source q, with w0 in the short form (R303). -/
def vecQ : Option VExt → Reg
  | none => 0
  | some x => x.q

/-- No operand is a pointer (R250). -/
def NoPointers : Option VExt → Prop
  | none => True
  | some x => x.pd = false ∧ x.pa = false ∧ x.pb = false

/-- The lane width of an element type (R300). -/
def laneSize (vt : Nat) : Nat := if vt = 0 ∨ vt = 2 ∨ vt = 5 then 32 else if vt = 7 ∨ vt = 8 then 8 else 16

/-- Is the element type a signed integer, or an unsigned one (R249)? -/
def signedType (vt : Nat) : Bool := vt = 2 || vt = 3 || vt = 7

/-- Lane i of width w of a vector register (R243, R300). -/
def lane (s : State) (v : VReg) (w i : Nat) : Nat :=
  ((s.vreg v).getD (i * w / 64) ⟨0, false⟩).val.toNat / 2 ^ (i * w % 64) % 2 ^ w

/-- A lane read as a signed number. -/
def asSigned (w x : Nat) : Int := if 2 * x < 2 ^ w then x else (x : Int) - 2 ^ w

/-- A lane read by its element type. -/
def asTyped (vt w x : Nat) : Int := if signedType vt then asSigned w x else x

/-- Is lane i of width w active (R301)? -/
def active (s : State) (k : KReg) (w i : Nat) : Bool :=
  decide (i < s.me.vl) && (s.me.kmask k.toNat).getLsbD (if w = 8 then i / 2 else i)

/-- The poison of word j of a vector register. -/
def wordPoison (s : State) (v : VReg) (j : Nat) : Bool := ((s.vreg v).getD j ⟨0, false⟩).poison

/-- Is any word of a vector register poisoned? -/
def anyPoison (s : State) (v : VReg) : Bool := (List.range 8).any (wordPoison s v)

/-- The poison that q and the mask give every result word (R304, R310). -/
def vecTaint (s : State) (k : KReg) (x : Option VExt) : Bool := (s.reg (vecQ x)).poison || s.me.kpoison k.toNat

/-- The writes of a vector result (R302): in each word of the register, the bits of the lanes that `on` names, with a value
that R allows, and the word's poison; every other bit keeps its value. -/
def Lanes (s : State) (d : VReg) (w : Nat) (on : Nat → Bool) (R : Nat → Nat → Prop) (p : Nat → Bool) (ws : List WordWrite) :
    Prop :=
  ws.length = 8 ∧ ∀ i, i < 512 / w → ∃ x, ws[i * w / 64]? = some x
    ∧ x.dest = .word (s.vregAddr s.cur.1 s.cur.2 d + 8 * (i * w / 64)) ∧ x.data.poison = p (i * w / 64)
    ∧ fieldOf x.bits (i * w % 64) w = (if on i then 2 ^ w - 1 else 0)
    ∧ (on i = true → R i (fieldOf x.data.val (i * w % 64) w))

/-- An instruction completes with lanes at a distance, and flags that F allows. -/
def GivesLanes (s : State) (i : Instr) (len D : Nat) (F : Flags → Prop) (L : List WordWrite → Prop) (st : Stall) : Prop :=
  ∃ ws fl, exec i s = .next (s.issued st len fl [(D, ws)]) ∧ F fl ∧ L ws

/-- The numbers at the lanes that are active. -/
def activeOf (s : State) (k : KReg) (w : Nat) : List Nat := (List.range (512 / w)).filter (active s k w)

/-! ### Matrix -/

/-- A descriptor pair with its reserved fields zero, its offsets and pitches multiples of 64, and rows of at least `bytes` bytes
(R331, R333). -/
def PairInOrder (d : Word × Word) (bytes : Nat) : Prop :=
  d.1.toNat < 2 ^ 20 ∧ d.2.toNat < 2 ^ 50 ∧ d.2.toNat / 2 ^ 16 % 2 ^ 16 = 0
  ∧ d.1.toNat % 64 = 0 ∧ d.2.toNat % 2 ^ 16 % 64 = 0 ∧ d.2.toNat / 2 ^ 32 % 2 ^ 16 % 64 = 0 ∧ bytes ≤ d.2.toNat % 2 ^ 16

/-- The k positions of a format pair, and the element types of its sides with the codes of `formatBits` (R329, R346). -/
def pairK (pair : Nat) : Nat := if pair = 0 then 32 else if pair = 5 then 128 else 64

/-- The element type of A. -/
def pairA (pair : Nat) (te : Bool) : Nat :=
  match pair with
  | 0 | 4 => 1
  | 1 | 2 => if te then 4 else 3
  | 3 => 5
  | _ => 6

/-- The element type of W. -/
def pairW (pair : Nat) (te : Bool) : Nat :=
  match pair with
  | 0 => 1
  | 1 => if te then 4 else 3
  | 3 => 5
  | _ => 6

/-- The code of the element at a k position of a line (R88, R330). -/
def lineCode (ty : Nat) (l : MLine) (p : Nat) : Nat :=
  let w := if ty = 1 then 16 else if ty = 6 then 4 else 8
  l.raw / 2 ^ (w * p) % 2 ^ w

/-- The value of the element there with its group's scale; none where it is no number (R87, R89). -/
def lineValue (ty : Nat) (l : MLine) (p : Nat) : Option ℚ :=
  let c := lineCode ty l p
  let v : Option ℚ := match ty with
    | 1 => if finite 8 7 c then some (value 8 7 c) else none
    | 3 => if c % 128 = 127 then none else some (value 4 3 c)
    | 4 => if finite 5 2 c then some (value 5 2 c) else none
    | 5 => if c = 128 then none else some (valueM8 c)
    | _ => some (value 2 1 c)
  match l.scale with
  | none => v
  | some q =>
    let e := q / 2 ^ (8 * (p / 32)) % 256
    if e = 255 then none else v.map fun v => v * (2 : ℚ) ^ ((e : Int) - 127)

/-- Is the element there a NaN, by its code or by its group's scale (R89, R99)? -/
def lineNan (ty : Nat) (l : MLine) (p : Nat) : Bool :=
  let c := lineCode ty l p
  l.scale.any (fun q => q / 2 ^ (8 * (p / 32)) % 256 == 255) ||
    match ty with
    | 1 => isNan 8 7 c
    | 3 => c % 128 == 127
    | 4 => isNan 5 2 c
    | 5 => c == 128
    | _ => false

/-- The increment of a pair: TPITCH added to BASE modulo 2^20 (R331). -/
def inc (d : Word × Word) (r : Reg) (on : Bool) (s : State) : List WordWrite :=
  if on then s.wr r (BitVec.ofNat 64 ((d.1.toNat % 2 ^ 20 + d.2.toNat / 2 ^ 32 % 2 ^ 16) % 2 ^ 20)) false else []

end Sys2Proof.Spec

open Sys2Proof.Spec

namespace Sys2Proof.Spec

open Sys2Proof.Machine

/-! ### Strands -/

/-- A word that the issuing slot's context reads at a virtual address, with the state unchanged. -/
def Reads (s : State) (a : Nat) (t : Tagged) : Prop :=
  State.isMesh (wordOf a) = false ∧ ∃ p v, s.translateDirect s.me.ctx (wordOf a) .read = .ok (p, v, s) ∧ s.word p = t

/-- Words that it reads from an address upward, without poison. -/
def Holds (s : State) (a : Nat) (ws : List Word) : Prop := ∀ j, j < ws.length → Reads s (a + 8 * j) ⟨ws.getD j 0, false⟩

/-- The same as the strand unit reads it: a page of the context's arena may be written too (R127). -/
def UnitReads (s : State) (a : Nat) (t : Tagged) : Prop :=
  Reads s a t ∧ (SM.onArena s.myCtx (wordOf a).toNat = true → ∃ x, s.translateDirect s.me.ctx (wordOf a) .write = .ok x)

/-- Words that the strand unit reads from an address upward, without poison. -/
def UnitHolds (s : State) (a : Nat) (ws : List Word) : Prop := ∀ j, j < ws.length → UnitReads s (a + 8 * j) ⟨ws.getD j 0, false⟩

/-- A word that it writes at a virtual address, with the state unchanged by the translation; a page of the context's arena may be read
too (R127). -/
def Writes (s : State) (a p : Nat) : Prop :=
  State.isMesh (wordOf a) = false ∧ s.translateDirect s.me.ctx (wordOf a) .write = .ok (p, false, s)
  ∧ (SM.onArena s.myCtx (wordOf a).toNat = true → ∃ x, s.translateDirect s.me.ctx (wordOf a) .read = .ok x)

/-- The ARENA number of the issuing slot's context (R127). -/
def arenaOf (s : State) : Nat := fieldOf s.myCtx.arena1 52 12

/-- A bead node of n positions at an address of the arena, with its descriptor and payload address (R122 to R125, R131). -/
def BeadAt (s : State) (a r n : Nat) (pay : Word) (d : SDesc) : Prop :=
  SM.inArena s.myCtx a = true ∧ a ≠ 0 ∧ 0 < r ∧ r < 0x3FFFFD ∧ 1 ≤ n ∧ n ≤ 64 ∧ SM.inArena s.myCtx d.addr = true
  ∧ UnitHolds s a [mkHdr 2 0 r 0 (arenaOf s), pay, 0, wordOf n, 0, wordOf d.addr, 0, 0]
  ∧ ∃ ws r', ws.length = 8 ∧ UnitHolds s d.addr ws ∧ ws.getD 0 0 = mkHdr 3 0 r' 0 (arenaOf s) ∧ 0 < r' ∧ r' < 2 ^ 22
      ∧ SDesc.parse d.addr ws = some d

/-- A number of 4 bytes within one word that it reads. -/
def Reads4 (s : State) (a v : Nat) : Prop :=
  a % 4 = 0 ∧ a < 2 ^ 48 ∧ ∃ t, UnitReads s (a / 8 * 8) ⟨t, false⟩ ∧ t.toNat / 2 ^ (8 * (a % 8)) % 2 ^ 32 = v

/-- A strand instruction can be carried out now: its context has an arena that is not lost, nothing of the slot is
outstanding, and no word is reserved (R127, R200, R354, R357). -/
def StrandReady (s : State) : Prop :=
  s.me.pend = [] ∧ s.reqs = [] ∧ NoReservation s ∧ s.myCtx.arena1.getLsbD 51 = false ∧ arenaOf s ≠ 0

/-- An operation that releases the roots it pinned at its end (R145). -/
def pinned {α : Type} (op : SM α) : SM α := do
  let a ← op
  SM.unpin
  return a

/-- The header of a bead with a count, as the strand unit reads and writes it at an address (R122, R143). -/
def Counter (s : State) (a p m : Nat) : Prop :=
  PlainMemory s ∧ s.reservations = [] ∧ Writes s a p ∧ s.translateDirect s.me.ctx (wordOf a) .read = .ok (p, false, s)
  ∧ s.word p = ⟨mkHdr 2 0 m 0 (arenaOf s), false⟩

/-- Height-balanced shapes: of the nodes an operation builds, each is one higher than its higher child, its children differ by
at most one, and it counts their positions (R138, R139). -/
def Balanced : SM.Tree → Prop
  | .old _ | .bead .. => True
  | .clasp _ _ l r h n => Balanced l ∧ Balanced r ∧ h = 1 + max l.h r.h ∧ l.h ≤ r.h + 1 ∧ r.h ≤ l.h + 1 ∧ n = l.n + r.n

/-- The positions of a strand, which may be empty. -/
def positions : Option SM.Tree → Nat
  | none => 0
  | some t => t.n

/-- Every tree of a strand is balanced. -/
def BalancedStrand (t : Option SM.Tree) : Prop := ∀ x, t = some x → Balanced x

end Sys2Proof.Spec

open Sys2Proof.Spec

/-! ### Encoding -/

/-- Words written out from the spec's encodings decode to the instructions they stand for (R240 to R255, R269, R270). -/
def Obligations.WordsDecode : Prop :=
  decodeWords 0x00104208 0 = .ok (.add 0 1 2 2 0)
  ∧ decodeWords 0x05E00000 0 = .ok (.nop 0)
  ∧ decodeWords 0x82804000 0xFFFFFFFF = .ok (.movi 0 1 0xFFFFFFFF)
  ∧ decodeWords 0x06008483 0 = .ok (.ld 0 2 4 2 3)
  ∧ decodeWords 0x2880C440 0 = .ok (.vadd 2 1 17 2 0 0)
  ∧ decodeWords 0x8FE08000 0x00000012 = .ok (.trap 0 0x12)
  ∧ decodeWords 0x0FF00000 0 = .error .unassigned

/-- Decoding the bytes of a well-formed instruction gives the instruction back and leaves what follows, with every operand at
every value its encoding admits (R11, R240 to R273). -/
def Obligations.EncodeThenDecode : Prop :=
  ∀ i : Instr, i.wf = true → i.isEvent = false → ∀ rest : List Byte, decodeBytes (i.bytes ++ rest) = .ok (i, rest)

/-- What decoding answers is a well-formed instruction, never an event of the part (R271). -/
def Obligations.DecodeIsWellFormed : Prop :=
  ∀ w e : Nat, ∀ i : Instr, decodeWords w e = .ok i → i.wf = true ∧ i.isEvent = false

/-! ### Steps -/

/-- Where the words at a READY slot's program counter, fetched, decode to an instruction whose features are accepted, `step`
is `exec` of it at the state after the fetch, with the acts after it still to come (R229, R241, R271, R273). -/
def Sys2Proof.Spec.StepRunsDecoded : Prop :=
  ∀ (s t : State) (c i w e : Nat) (x : Instr) (rest : List Act),
    s.agenda = .issue c i :: rest → c < 4096 → i < 11 →
    (s.slot c i).state = .ready → (s.slot c i).kept = [] → (s.slot c i).gangTrap = none → (s.slot c i).act = false →
    ({ s with cur := (c, i) }).fetchInstr c i (s.slot c i).pc = .ok w e t →
    decodeWords w e = .ok x → x.featuresOk t.pkg.feat = true →
    step s = match exec x t with
      | .next u => .next { u with agenda := rest }
      | .fault f => .fault f
      | .refused r => .refused r

/-- A word fetched through an instruction TLB entry that hits, with no cached line, is the one in memory at the entry's
target, once reductions held there are added and an error there is logged; of plain memory, fetching leaves memory, contexts and the
slot's registers as they were. That the bytes of a poisoned word come back as they stand, and so execute, is the model's choice, log
entry 33 (R11, R78, R193, R241, R286). -/
def Sys2Proof.Spec.FetchReadsMemory : Prop :=
  ∀ (s : State) (c i : Nat) (va : Word) (e : TlbEntry),
    State.isMesh va = false → State.canonical va = true →
    State.cachedLine ((s.core c).icache ++ (s.cluster (Site.cluster c)).icache) (s.slot c i).ctx (s.slot c i).gen va.toNat = none →
    (s.core c).itlb.find? (fun e => e.slot == i && State.tlbHit e (s.slot c i).ctx (s.slot c i).gen va.toNat .fetch) = some e →
    va.toNat % 4 = 0 →
    let a := s.targetAddr e.target (va.toNat / 64 * 64 - e.page)
    let u := s.touchWords a 64
    (∃ t, s.fetchWord c i va = .ok (bytesNat (mread u.mem (a + va.toNat % 64) 4)) 0 t
      ∧ t.mem = u.mem ∧ t.poison = u.poison ∧ t.ctxs = u.ctxs ∧ ∀ j, t.slot c j = u.slot c j)
    ∧ (PlainMemory s → u = s)

/-- From every legal state the machine goes on, and stays legal: no instruction, trap or event of the part stops it. -/
def Obligations.StepProceedsAndStaysLegal : Prop :=
  ∀ s : State, s.Legal → ∃ t, step s = .next t ∧ t.Legal

/-- The machine is legal after reset. -/
def Sys2Proof.Spec.ResetIsLegal : Prop := State.reset.Legal ∧ State.reset.CanStep

/-- After reset every word of a buffer reads zero without poison, every full-empty bit is full, and CYC is 0 (R54). That no slot is in
use, and that device memory too reads zero without poison before MEMORY_INIT, is the model's choice: log entry 1. -/
def Sys2Proof.Spec.ResetLeaves : Prop :=
  (∀ a, State.reset.word a = ⟨0, false⟩ ∧ State.reset.isFull a = true)
  ∧ (∀ c i, (State.reset.slot c i).state = .free) ∧ State.reset.cyc = 0
  ∧ Memory.wf State.reset.mem = true

/-! ### Memory -/

/-- Every way of writing memory keeps its canonical form: bytes, words, tagged bytes, landing results, a bank's accepted
access. -/
def Sys2Proof.Spec.MemoryWritesKeepForm : Prop :=
  ∀ s : State, Memory.wf s.mem = true →
    (∀ a b, Memory.wf (mset s.mem a b) = true) ∧ (∀ a bs, Memory.wf (mwrite s.mem a bs) = true)
    ∧ (∀ a t, Memory.wf (s.setWord a t).mem = true) ∧ (∀ a bs p, Memory.wf (s.setBytes a bs p).mem = true)
    ∧ (∀ a bs p, Memory.wf (s.bankWrite a bs p).mem = true)
    ∧ (∀ c i ws, Memory.wf (s.landAll c i ws).mem = true)
    ∧ (∀ c i, Memory.wf (s.landDue c i).mem = true) ∧ (∀ c i, Memory.wf (s.drainResults c i).mem = true)

/-- Memory is little-endian and byte-addressed: a word written whole reads back with its tag, its bytes are its value's from
the least significant upward, and every other byte is as before (R11, R54). -/
def Sys2Proof.Spec.WordWrittenReadsBack : Prop :=
  ∀ (s : State) (a : Nat) (t : Tagged), a % 8 = 0 →
    (s.setWord a t).word a = t
    ∧ (∀ j, j < 8 → mget (s.setWord a t).mem (a + j) = BitVec.ofNat 8 (t.val.toNat / 2 ^ (8 * j)))
    ∧ (∀ b, (b < a ∨ a + 8 ≤ b) → mget (s.setWord a t).mem b = mget s.mem b)
    ∧ (∀ b, b / 8 ≠ a / 8 → (s.setWord a t).poison.contains (b / 8) = s.poison.contains (b / 8))

/-! ### Issuing and landing -/

/-- What issuing an instruction of the register file changes, beside results that are still to land: the slot's program
counter, STAT's RESID and flags, its loop counts, RPTST and repeat frame, and nothing else of the machine (R93, R204, R205,
R242, R289, R291). Flags only ever go up, and the stall count of an instruction that has parked has no effect. -/
def Obligations.IssuingChangesOnly : Prop :=
  ∀ (s : State) (st : Stall) (len : Nat) (fl : Flags) (rs : List (Nat × List WordWrite)),
    let t := s.issued st len fl rs
    t = { s with cores := t.cores }
    ∧ (∀ c i, (c, i) ≠ s.cur → t.slot c i = s.slot c i)
    ∧ (∀ c, t.core c = { s.core c with slots := (t.core c).slots })
    ∧ t.me.pend = s.me.pend ++ (rs.filter fun r => !r.2.isEmpty).map (fun r => ⟨r.1, r.2⟩)
    ∧ (∀ j, j ≠ cbPc → j ≠ cbStat → j ≠ cbLc → j ≠ cbLc + 1 → j ≠ cbRptst → t.me.cbWord j = s.me.cbWord j)
    ∧ (s.me.parkedSince = none → t.me.statField 24 3 = st.toNat)
    ∧ (s.me.parkedSince ≠ none → t.me.statField 24 3 = 0)
    ∧ (∀ j, j < 64 → (j < 4 ∨ 8 ≤ j) → (j < 24 ∨ 27 ≤ j) → t.me.stat.getLsbD j = s.me.stat.getLsbD j)
    ∧ (∀ j, 4 ≤ j → j < 8 → s.me.stat.getLsbD j = true → t.me.stat.getLsbD j = true)
    ∧ { t.me with cb := s.me.cb, pend := s.me.pend, frame := s.me.frame, waitSince := s.me.waitSince,
                  walkFault := s.me.walkFault, lanes := s.me.lanes, asIssued := s.me.asIssued } = s.me

/-- A result issued at distance D lands at the D-th turn after issue: a turn earlier the register still reads as before,
and from that turn on it reads the result (R162, R205). -/
def Sys2Proof.Spec.ResultLandsAtItsDistance : Prop :=
  ∀ (s : State) (st : Stall) (len D : Nat) (d : Reg) (v : Word) (p : Bool),
    d ≠ 0 → 0 < D → s.me.pend = [] → s.me.asIssued = [] →
    let t := s.results st len [(D, s.wr d v p)]
    (∀ k, k < D → (State.passTurns k t s.cur.1 s.cur.2).regAt s.cur.1 s.cur.2 d = s.reg d)
    ∧ (State.passTurns D t s.cur.1 s.cur.2).regAt s.cur.1 s.cur.2 d = ⟨v, p⟩

/-- Register w0 reads as zero without poison whatever its word holds, and a result for it is discarded (R164). -/
def Sys2Proof.Spec.RegisterZero : Prop :=
  ∀ (s : State) (c i : Nat) (v : Word) (p : Bool),
    s.regAt c i 0 = ⟨0, false⟩ ∧ s.regWrite c i 0 ⟨v, p⟩ = []
    ∧ ∀ st len D, s.results st len [(D, s.wr 0 v p)] = s.retire st len

/-- With the checking scoreboard on, an instruction that reads a register with a result in flight raises STALL_SHORT with the
turns left, instead of issuing; and so does one whose own result to the register would land before that one (R206, R234). Where it
would not, both are in flight. -/
def Obligations.ScoreboardStopsEarlyReads : Prop :=
  ∀ (s : State) (st : Stall) (d a b : Reg) (t : BitVec 2) (v : BitVec 8) (p : BitVec 8) (im : Imm) (x6 : BitVec 6) (l : Landing),
    s.me.chk = true → s.me.pend = [l] →
    let raised (r : Reg) : Out := .next (s.raise ⟨7, 0, wordOf (8 * r.toNat), wordOf l.turns, .own, 3, false, false⟩)
    (a ≠ 0 → (∃ w ∈ l.writes, w.dest = .word (s.regAddr s.cur.1 s.cur.2 a)) →
      ∀ i ∈ ([.add st d a b t, .mul st d a b t, .addi st d a v, .fadd st d a b, .fcls st d a, .beq st a b p, .jalr st d a im,
          .ld st d a 0 x6] : List Instr), exec i s = raised a)
    ∧ (d ≠ 0 → d ≠ a → d ≠ b → l.writes ≠ [] → (∀ w ∈ l.writes, w.dest = .word (s.regAddr s.cur.1 s.cur.2 d)) →
      ∀ x ∈ ([(.add st d a b t, 1), (.addi st d a v, 1), (.mul st d a b t, 2), (.fadd st d a b, 2)] : List (Instr × Nat)),
        (x.2 < l.turns → exec x.1 s = raised d)
        ∧ (l.turns ≤ x.2 → ∃ u, exec x.1 s = .next u ∧ u.me.pend.map (·.turns) = [l.turns, x.2]))

/-! ### Integer instructions -/

/-- Every format-A integer instruction with a width writes, at its distance, the result of its table row, extended as t says,
with the poison of its sources, and changes nothing else that R204 does not give (R205, R226, R244, R275, R276). -/
def Obligations.IntegerResults : Prop :=
  ∀ (s : State) (st : Stall) (d a b : Reg) (t : BitVec 2), s.Quiet → t ≠ 3 →
    let W := width t
    let x := uval W (s.reg a).val
    let y := uval W (s.reg b).val
    let xs := sval W (s.reg a).val
    let ys := sval W (s.reg b).val
    let gives (D : Nat) (v : Int) : Out := .next (s.results st 4 [(D, s.wr d (extend t v) (s.tainted [a, b]))])
    let gives1 (v : Int) : Out := .next (s.results st 4 [(1, s.wr d (extend t v) (s.tainted [a]))])
    exec (.add st d a b t) s = gives 1 (x + y)
    ∧ exec (.sub st d a b t) s = gives 1 (x - y)
    ∧ exec (.mul st d a b t) s = gives 2 (x * y)
    ∧ exec (.mulh st d a b t) s = gives 2 (xs * ys / 2 ^ W)
    ∧ exec (.mulhu st d a b t) s = gives 2 (x * y / 2 ^ W)
    ∧ exec (.div st d a b t) s = gives 5 (if y = 0 then -1 else xs.tdiv ys)
    ∧ exec (.divu st d a b t) s = gives 5 (if y = 0 then -1 else x / y)
    ∧ exec (.rem st d a b t) s = gives 5 (if y = 0 then xs else xs - xs.tdiv ys * ys)
    ∧ exec (.remu st d a b t) s = gives 5 (if y = 0 then x else x - x / y * y)
    ∧ exec (.shl st d a b t) s = gives 1 (x * 2 ^ (y % W))
    ∧ exec (.shr st d a b t) s = gives 1 (x / 2 ^ (y % W))
    ∧ exec (.sar st d a b t) s = gives 1 (xs / 2 ^ (y % W))
    ∧ exec (.rotl st d a b t) s = gives 1 (x * 2 ^ (y % W) + x / 2 ^ (W - y % W))
    ∧ exec (.min st d a b t) s = gives 1 (if xs ≤ ys then xs else ys)
    ∧ exec (.max st d a b t) s = gives 1 (if ys ≤ xs then xs else ys)
    ∧ exec (.minu st d a b t) s = gives 1 (if x ≤ y then x else y)
    ∧ exec (.maxu st d a b t) s = gives 1 (if y ≤ x then x else y)
    ∧ exec (.seq st d a b t) s = gives 1 (if x = y then 1 else 0)
    ∧ exec (.sne st d a b t) s = gives 1 (if x = y then 0 else 1)
    ∧ exec (.slt st d a b t) s = gives 1 (if xs < ys then 1 else 0)
    ∧ exec (.sltu st d a b t) s = gives 1 (if x < y then 1 else 0)
    ∧ exec (.clz st d a t) s = gives1 (W - (if x = 0 then 0 else Nat.log2 x + 1))
    ∧ exec (.ctz st d a t) s = gives1 (((List.range W).find? x.testBit).getD W)
    ∧ exec (.popc st d a t) s = gives1 (countBits W x.testBit)

/-- The bitwise and field instructions of format A at 64 bits (R226, R275, R278): bit j of the result. -/
def Obligations.BitwiseResults : Prop :=
  ∀ (s : State) (st : Stall) (d a b : Reg), s.Quiet →
    let x := (s.reg a).val
    let y := (s.reg b).val
    let gives (i : Instr) (D : Nat) (f : Nat → Bool) : Prop :=
      ∃ v : Word, exec i s = .next (s.results st 4 [(D, s.wr d v (s.tainted [a, b]))]) ∧ ∀ j, j < 64 → v.getLsbD j = f j
    let pos := y.toNat % 64
    let elen := min (y.toNat / 2 ^ 8 % 128) 64
    let ilen := min (y.toNat / 2 ^ 8 % 64) 32
    gives (.and st d a b) 1 (fun j => x.getLsbD j && y.getLsbD j)
    ∧ gives (.or st d a b) 1 (fun j => x.getLsbD j || y.getLsbD j)
    ∧ gives (.xor st d a b) 1 (fun j => x.getLsbD j != y.getLsbD j)
    ∧ gives (.andn st d a b) 1 (fun j => x.getLsbD j && !y.getLsbD j)
    ∧ gives (.bext st d a b) 1 (fun j => decide (j < elen) && x.getLsbD (pos + j))
    ∧ gives (.bins st d a b) 1 (fun j =>
        if pos ≤ j ∧ j < pos + ilen then y.getLsbD (32 + (j - pos)) else x.getLsbD j)
    ∧ gives (.clmul st d a b) 2 (fun j => countBits 64 (fun k => x.getLsbD k && decide (k ≤ j) && y.getLsbD (j - k)) % 2 = 1)
    ∧ gives (.clmulh st d a b) 2 (fun j =>
        countBits 64 (fun k => x.getLsbD k && decide (j + 64 - k < 64) && y.getLsbD (j + 64 - k)) % 2 = 1)

/-- The immediate instructions, MOVI, SEL and LEAM (R226, R245, R277, R279). -/
def Sys2Proof.Spec.ImmediateResults : Prop :=
  ∀ (s : State) (st : Stall) (d a : Reg) (i : Imm) (v8 : BitVec 8) (v32 : BitVec 32), s.Quiet →
    let x := (s.reg a).val
    let len := match i with | .short _ => 4 | .long _ => 8
    let imm : Int := match i with | .short v => v.toInt | .long v => v.toInt
    let gives (len : Nat) (v : Word) : Out := .next (s.results st len [(1, s.wr d v (s.reg a).poison)])
    exec (.addi st d a v8) s = gives 4 (BitVec.ofInt 64 (x.toInt + v8.toInt))
    ∧ exec (.addiLong st d a v32) s = gives 8 (BitVec.ofInt 64 (x.toInt + v32.toInt))
    ∧ exec (.andi st d a i) s = gives len (x &&& BitVec.ofInt 64 imm)
    ∧ exec (.ori st d a i) s = gives len (x ||| BitVec.ofInt 64 imm)
    ∧ exec (.xori st d a i) s = gives len (x ^^^ BitVec.ofInt 64 imm)
    ∧ exec (.slti st d a i) s = gives len (if x.toInt < imm then 1 else 0)
    ∧ (i.shiftOk = true →
        exec (.shli st d a i) s = gives len (BitVec.ofNat 64 (x.toNat * 2 ^ imm.toNat))
        ∧ exec (.shri st d a i) s = gives len (BitVec.ofNat 64 (x.toNat / 2 ^ imm.toNat))
        ∧ exec (.sari st d a i) s = gives len (BitVec.ofInt 64 (x.toInt / 2 ^ imm.toNat)))
    ∧ exec (.movi st d v32) s = .next (s.results st 8 [(1, s.wr d (BitVec.ofInt 64 v32.toInt) false)])

/-- SEL selects on the old destination, and an operand that is not selected gives no poison (R279). -/
def Sys2Proof.Spec.SelectResult : Prop :=
  ∀ (s : State) (st : Stall) (d a b : Reg), s.Quiet →
    exec (.sel st d a b) s = .next (s.results st 4
      [(1, if (s.reg d).val ≠ 0 then s.wr d (s.reg a).val ((s.reg d).poison || (s.reg a).poison)
           else s.wr d (s.reg b).val ((s.reg d).poison || (s.reg b).poison))])

/-- LEA forms the address that LD would form, with no access, no check and no base update, and LEAM builds a mesh address
(R245, R247, R279, R293). -/
def Sys2Proof.Spec.AddressResults : Prop :=
  ∀ (s : State) (st : Stall) (d a b : Reg) (x : BitVec 6) (e : BitVec 32) (mf : BitVec 17) (off : BitVec 15),
    s.Quiet →
    (exec (.lea st d b 0 x) s
        = .next (s.results st 4 [(1, s.wr d ((s.reg b).val + BitVec.ofInt 64 (8 * x.toInt)) (s.reg b).poison)]))
    ∧ (exec (.lea st d b 3 x) s
        = .next (s.results st 4 [(1, s.wr d ((s.reg b).val + (s.reg x).val) ((s.reg b).poison || (s.reg x).poison))]))
    ∧ (exec (.leaLong st d b 0 (.plain 3) e) s
        = .next (s.results st 8 [(1, s.wr d ((s.reg b).val + BitVec.ofInt 64 e.toInt) (s.reg b).poison)]))
    ∧ (e.toNat < 64 → exec (.leaLong st d b 3 (.plain 3) e) s
        = .next (s.results st 8 [(1, s.wr d ((s.reg b).val + (s.reg (e.setWidth 6)).val)
            ((s.reg b).poison || (s.reg (e.setWidth 6)).poison))]))
    ∧ (exec (.leam st d a mf off) s = .next (s.results st 8 [(1, s.wr d
        (BitVec.ofNat 64 (2 ^ 63 + mf.toNat * 2 ^ 46 + ((s.reg a).val.toNat + off.toNat) % 2 ^ 20)) (s.reg a).poison)]))

/-! ### Scalar floating point -/

/-- FADD, FSUB, FMUL and FMA of finite sources write the exact result rounded once to nearest, ties to even, with the flags of
that rounding, at distance 2 (R92, R93, R205, R280). -/
def Obligations.FloatResultsAreNearest : Prop :=
  ∀ (s : State) (st : Stall) (d a b : Reg), s.Quiet →
    let x := code32 (s.reg a).val
    let y := code32 (s.reg b).val
    let z := code32 (s.reg d).val
    finite 8 23 x = true → finite 8 23 y = true →
    let gives (i : Instr) (p : Bool) (q : ℚ) : Prop := ∃ c fl,
      exec i s = .next (s.issued st 4 fl [(2, s.wr d (BitVec.ofNat 64 c) p)]) ∧ RoundedTo32 q c ∧ RoundingFlags32 q c fl
    gives (.fadd st d a b) (s.tainted [a, b]) (value32 x + value32 y)
    ∧ gives (.fsub st d a b) (s.tainted [a, b]) (value32 x - value32 y)
    ∧ gives (.fmul st d a b) (s.tainted [a, b]) (value32 x * value32 y)
    ∧ (finite 8 23 z = true → gives (.fma st d a b) (s.tainted [d, a, b]) (value32 x * value32 y + value32 z))

/-- NaN sources give the canonical NaN and no flag; ∞ − ∞ and 0 × ∞ give it with FNV, FMA's 0 × ∞ even when the addend is a
NaN; an infinity with a finite number, or with one of its sign, adds to that infinity; an infinity times a number that is not zero is
the infinity of their signs; FMA adds what the product gives to its addend by the same rules (R92, R93, R280). -/
def Sys2Proof.Spec.FloatSpecialResults : Prop :=
  ∀ (s : State) (st : Stall) (d a b : Reg), s.Quiet →
    let x := code32 (s.reg a).val
    let y := code32 (s.reg b).val
    let z := code32 (s.reg d).val
    let inf (c : Nat) : Prop := c % 2 ^ 31 = 0x7F800000
    let minus (c : Nat) : Nat := (c + 2 ^ 31) % 2 ^ 32
    let signed : Nat := 0x7F800000 + (if negative 8 23 x = negative 8 23 y then 0 else 2 ^ 31)
    let gives (i : Instr) (p : Bool) (c : Nat) (fl : Flags) : Prop :=
      exec i s = .next (s.issued st 4 fl [(2, s.wr d (BitVec.ofNat 64 c) p)])
    (isNan 8 23 x = true ∨ isNan 8 23 y = true →
      gives (.fadd st d a b) (s.tainted [a, b]) nan32 .none ∧ gives (.fsub st d a b) (s.tainted [a, b]) nan32 .none
      ∧ gives (.fmul st d a b) (s.tainted [a, b]) nan32 .none ∧ gives (.fma st d a b) (s.tainted [d, a, b]) nan32 .none)
    ∧ (inf x → y = (x + 2 ^ 31) % 2 ^ 32 → gives (.fadd st d a b) (s.tainted [a, b]) nan32 .invalid)
    ∧ (inf x → y = x → gives (.fsub st d a b) (s.tainted [a, b]) nan32 .invalid)
    ∧ (inf x → y % 2 ^ 31 = 0 → gives (.fmul st d a b) (s.tainted [a, b]) nan32 .invalid
        ∧ gives (.fma st d a b) (s.tainted [d, a, b]) nan32 .invalid)
    ∧ (x % 2 ^ 31 = 0 → inf y → gives (.fmul st d a b) (s.tainted [a, b]) nan32 .invalid
        ∧ gives (.fma st d a b) (s.tainted [d, a, b]) nan32 .invalid)
    ∧ (inf x → finite 8 23 y = true → gives (.fadd st d a b) (s.tainted [a, b]) x .none
        ∧ gives (.fsub st d a b) (s.tainted [a, b]) x .none)
    ∧ (finite 8 23 x = true → inf y → gives (.fadd st d a b) (s.tainted [a, b]) y .none
        ∧ gives (.fsub st d a b) (s.tainted [a, b]) (minus y) .none)
    ∧ (inf x → gives (.fadd st d a a) (s.tainted [a, a]) x .none)
    ∧ (inf x → y = minus x → gives (.fsub st d a b) (s.tainted [a, b]) x .none)
    ∧ (inf x ∧ (inf y ∨ finite 8 23 y = true ∧ y % 2 ^ 31 ≠ 0) ∨ inf y ∧ finite 8 23 x = true ∧ x % 2 ^ 31 ≠ 0 →
        gives (.fmul st d a b) (s.tainted [a, b]) signed .none
        ∧ (isNan 8 23 z = true → gives (.fma st d a b) (s.tainted [d, a, b]) nan32 .none)
        ∧ (finite 8 23 z = true ∨ z = signed → gives (.fma st d a b) (s.tainted [d, a, b]) signed .none)
        ∧ (z = minus signed → gives (.fma st d a b) (s.tainted [d, a, b]) nan32 .invalid))
    ∧ (finite 8 23 x = true → finite 8 23 y = true →
        (isNan 8 23 z = true → gives (.fma st d a b) (s.tainted [d, a, b]) nan32 .none)
        ∧ (inf z → gives (.fma st d a b) (s.tainted [d, a, b]) z .none))

/-- FMIN, FMAX, FEQ, FLT, FLE and FCLS (R280, R281): −0 is below +0 for FMIN and FMAX and equal to it for the tests. -/
def Sys2Proof.Spec.FloatTestResults : Prop :=
  ∀ (s : State) (st : Stall) (d a b : Reg), s.Quiet →
    let x := code32 (s.reg a).val
    let y := code32 (s.reg b).val
    let nan := isNan 8 23 x || isNan 8 23 y
    let gives (i : Instr) (p : Bool) (c : Nat) (fl : Flags) : Prop :=
      exec i s = .next (s.issued st 4 fl [(2, s.wr d (BitVec.ofNat 64 c) p)])
    let below (x y : Nat) : Prop := order32 x < order32 y ∨ (order32 x = order32 y ∧ negative 8 23 x = true)
    gives (.fmin st d a b) (s.tainted [a, b]) (if nan then nan32 else if below x y then x else y) .none
    ∧ gives (.fmax st d a b) (s.tainted [a, b]) (if nan then nan32 else if below y x then x else y) .none
    ∧ gives (.feq st d a b) (s.tainted [a, b]) (if nan then 0 else if order32 x = order32 y then 1 else 0) .none
    ∧ gives (.flt st d a b) (s.tainted [a, b]) (if nan then 0 else if order32 x < order32 y then 1 else 0)
        (if nan then .invalid else .none)
    ∧ gives (.fle st d a b) (s.tainted [a, b]) (if nan then 0 else if order32 x ≤ order32 y then 1 else 0)
        (if nan then .invalid else .none)
    ∧ gives (.fcls st d a) (s.tainted [a])
        (2 ^ (if isNan 8 23 x then 8 else
          let k := if !finite 8 23 x then 0 else if x % 2 ^ 31 = 0 then 3 else if expOf 8 23 x = 0 then 2 else 1
          if negative 8 23 x then k else 7 - k)) .none

/-- FCVT to an integer rounds as RM names and saturates with FNV, a NaN giving 0; from B16 and F16 it is exact; to them, and
from S32, it rounds as RM names, saturating where SAT says so, with the flags of R93 (R94, R95, R96, R282). -/
def Sys2Proof.Spec.ConversionResults : Prop :=
  ∀ (s : State) (st : Stall) (d a : Reg) (sat : Bool) (rm : BitVec 2), s.Quiet →
    let x := code32 (s.reg a).val
    let h := (s.reg a).val.toNat % 2 ^ 16
    let i := sval 32 (s.reg a).val
    let n := roundTo rm (value32 x)
    let gives (pair : BitVec 4) (w : Word) (fl : Flags) : Prop :=
      exec (.fcvt st d a pair sat rm) s = .next (s.issued st 4 fl [(2, s.wr d w (s.reg a).poison)])
    let toInt (pair : BitVec 4) (W : Nat) : Prop :=
      (isNan 8 23 x = true → gives pair 0 .invalid)
      ∧ (x % 2 ^ 31 = 0x7F800000 →
          gives pair (BitVec.ofInt 64 (if negative 8 23 x then -2 ^ (W - 1) else 2 ^ (W - 1) - 1)) .invalid)
      ∧ (finite 8 23 x = true → gives pair (BitVec.ofInt 64 (max (-2 ^ (W - 1)) (min (2 ^ (W - 1) - 1) n)))
          (if n < -2 ^ (W - 1) ∨ 2 ^ (W - 1) - 1 < n then .invalid else ⟨false, false, false, decide ((n : ℚ) ≠ value32 x)⟩))
    let code (pair : BitVec 4) (R : Nat → Flags → Prop) : Prop := ∃ c fl, gives pair (BitVec.ofNat 64 c) fl ∧ c < 2 ^ 32 ∧ R c fl
    toInt 0 32 ∧ toInt 2 64 ∧ code 1 (IntConverts rm i)
    ∧ code 3 (ConvertsTo 1 rm sat 0 x) ∧ code 4 (Widened 1 0 h) ∧ code 5 (ConvertsTo 2 rm sat 0 x) ∧ code 6 (Widened 2 0 h)

/-! ### Control flow -/

/-- A compare-branch goes to its target when its relation holds of its sources, at 64 bits, and to the next instruction
otherwise; its displacement counts words from its own address; a poisoned source raises POISON instead (R246, R283). -/
def Sys2Proof.Spec.BranchResults : Prop :=
  ∀ (s : State) (st : Stall) (op : BranchOp) (a b : Reg) (p : BitVec 8) (q : BitVec 32), s.Quiet →
    let x := (s.reg a).val
    let y := (s.reg b).val
    (∀ r, [a, b].find? (fun r => (s.reg r).poison) = some r →
      let raised : Out := .next (s.raise ⟨6, 0, BitVec.ofNat 64 (8 * r.toNat), 0, .own, 3, false, false⟩)
      exec (shortBranch op st a b p) s = raised ∧ exec (.branchLong st op a b q) s = raised)
    ∧ (s.Clean [a, b] → (taken op x y →
      exec (shortBranch op st a b p) s = .next (s.transfer st (s.me.pc + BitVec.ofInt 64 (4 * p.toInt)))
      ∧ exec (.branchLong st op a b q) s = .next (s.transfer st (s.me.pc + BitVec.ofInt 64 (4 * q.toInt))))
    ∧ (¬ taken op x y →
      exec (shortBranch op st a b p) s = .next (s.retire st 4) ∧ exec (.branchLong st op a b q) s = .next (s.retire st 8)))

/-- JMP, JAL and JALR transfer control; the link is the address after the jump, at distance 1, and discarded for w0; a
misaligned JALR target raises ALIGN with FLT1 the target and FLT2 = 4, and a poisoned register POISON; NOP only moves on (R284, R287).
That the link's distance is 1, and that the trap of a misaligned target has ACC 2, is the model's choice: log entry 8. -/
def Sys2Proof.Spec.JumpResults : Prop :=
  ∀ (s : State) (st : Stall) (d a : Reg) (p : Disp) (i : Imm), s.Quiet →
    let len := match p with | .short _ => 4 | .long _ => 8
    let disp : Int := match p with | .short v => v.toInt | .long v => v.toInt
    let ilen := match i with | .short _ => 4 | .long _ => 8
    let imm : Int := match i with | .short v => v.toInt | .long v => v.toInt
    let target := s.me.pc + BitVec.ofInt 64 (4 * disp)
    let reg := (s.reg a).val + BitVec.ofInt 64 imm
    exec (.jmp st p) s = .next (s.transfer st target)
    ∧ exec (.jal st d p) s = .next ((s.inFlight [(1, s.wr d (s.me.pc + wordOf len) false)]).transfer st target)
    ∧ (s.Clean [a] → reg.toNat % 4 = 0 →
        exec (.jalr st d a i) s = .next ((s.inFlight [(1, s.wr d (s.me.pc + wordOf ilen) false)]).transfer st reg))
    ∧ (s.Clean [a] → reg.toNat % 4 ≠ 0 → exec (.jalr st d a i) s = .next (s.raise ⟨5, 0, reg, 4, .own, 2, false, false⟩))
    ∧ ((s.reg a).poison = true →
        exec (.jalr st d a i) s = .next (s.raise ⟨6, 0, BitVec.ofNat 64 (8 * a.toNat), 0, .own, 3, false, false⟩))
    ∧ exec (.nop st) s = .next (s.retire st 4)

/-- A transfer of control sets the program counter and RESID, whose count has no effect in an instruction that has parked, and changes
nothing outside the slot (R204, R242, R285). -/
def Obligations.TransferChangesOnly : Prop :=
  ∀ (s : State) (st : Stall) (w : Word),
    let t := s.transfer st w
    t.me.pc = w ∧ t.me.statField 24 3 = s.me.stallOf st ∧ OnlySlot s t
    ∧ (s.me.parkedSince = none → s.me.stallOf st = st.toNat) ∧ (s.me.parkedSince ≠ none → s.me.stallOf st = 0)
    ∧ (∀ j, j ≠ cbPc → j ≠ cbStat → t.me.cbWord j = s.me.cbWord j)
    ∧ { t.me with cb := s.me.cb, waitSince := s.me.waitSince, walkFault := s.me.walkFault, lanes := s.me.lanes,
                    asIssued := s.me.asIssued } = s.me

/-- EndCheck: of the loops that end at the instruction, from loop 3 down, those with one trip left end, and the first with
more goes back to its start; with none such, the slot moves past the instruction (R289). -/
def Sys2Proof.Spec.EndCheckCountsLoops : Prop :=
  ∀ (s : State) (st : Stall) (len : Nat), s.me.act = false →
    let e := s.me.pc
    let t := s.retire st len
    ((∀ n < 4, endsAt s.me n e = true → s.me.lc n = 1) →
      t.me.pc = e + wordOf len ∧ ∀ n < 4, t.me.lc n = if endsAt s.me n e then 0 else s.me.lc n)
    ∧ (∀ n < 4, endsAt s.me n e = true → 1 < s.me.lc n → (∀ m < 4, n < m → endsAt s.me m e = true → s.me.lc m = 1) →
        t.me.pc = s.me.cbWord (cbLs + n)
        ∧ ∀ m < 4, t.me.lc m = if m = n then s.me.lc n - 1 else if n < m ∧ endsAt s.me m e = true then 0 else s.me.lc m)

/-- LOOP, LOOPR and LOOPM take their count from the extension word, wa[31:0] or MBXm[31:0]. A nonzero count starts the body
after the loop instruction; a zero count, with no loop ending at LAST, skips past the instruction there (R264, R288). -/
def Sys2Proof.Spec.LoopSetupResults : Prop :=
  ∀ (s u : State) (st : Stall) (n : BitVec 2) (i : BitVec 8) (cnt : BitVec 32) (a : Reg) (m : BitVec 3) (w e : Nat),
    s.Quiet →
    let p := s.me.pc
    let last := p + wordOf (4 * i.toNat)
    s.fetchWord s.cur.1 s.cur.2 last = .ok w e u → u.cur = s.cur → u.me = s.me →
    let sets (x : Instr) (c len : Nat) : Prop := ∃ t, exec x s = .next t ∧ OnlySlot u t
      ∧ t.me.cbWord (cbLs + n.toNat) = p + wordOf len ∧ t.me.cbWord (cbLe + n.toNat) = last ∧ t.me.lc n.toNat = c
      ∧ (c ≠ 0 → t.me.pc = p + wordOf len)
      ∧ (c = 0 → (∀ k < 4, k ≠ n.toNat → s.me.lc k ≠ 0 → s.me.cbWord (cbLe + k) ≠ last) →
          t.me.pc = last + wordOf (wordsSize w))
    sets (.loop st n i cnt) cnt.toNat 8
    ∧ (s.Clean [a] → sets (.loopr st n a i) ((s.reg a).val.toNat % 2 ^ 32) 4)
    ∧ (s.me.cbPoison.contains (cbMbx + m.toNat) = false →
        sets (.loopm st n m i) ((s.me.cbWord (cbMbx + m.toNat)).toNat % 2 ^ 32) 4)
    ∧ (s.me.cbPoison.contains (cbMbx + m.toNat) = true →
        exec (.loopm st n m i) s = .next (s.raise ⟨6, 0, wordOf (0xAC0 + 8 * m.toNat), 0, .own, 3, false, false⟩))

/-- RPT captures its frame and then replays it: the captured instructions in order, replay after replay, with IDX, ITER and
BACK in RPTST; the last one of the last replay ends the frame (R254, R291, R292). That RPT runs no EndCheck, that a frame recaptured
past its end raises ILL, and that RPTST reads 0 once a frame has ended are the model's choice, log entry 8. -/
def Sys2Proof.Spec.RepeatFrameRuns : Prop :=
  (∀ (s u : State) (st : Stall) (len : BitVec 4) (n : BitVec 12) (sd sa sb sc : BitVec 4) (code : List (Nat × Nat)),
    State.capture s.cur.1 s.cur.2 sd sa sb (len.toNat + 1) s (s.me.pc + 8) = .ok code u → u.cur = s.cur → u.me = s.me →
    ∃ t, exec (.rpt st len n sd sa sb sc) s = .next t ∧ OnlySlot u t
      ∧ t.me.frame = some ⟨code, n.toNat + 1, sd, sa, sb, sc⟩ ∧ t.me.cbWord cbRptst = 1 ∧ t.me.pc = s.me.pc + 8)
  ∧ (∀ (s : State) (st : Stall) (len : Nat) (f : Frame), s.me.act = true → s.me.frame = some f → len = 4 ∨ len = 8 →
    let idx := fieldOf (s.me.cbWord cbRptst) 16 4
    let iter := fieldOf (s.me.cbWord cbRptst) 20 12
    let back := fieldOf (s.me.cbWord cbRptst) 8 6
    let t := s.retire st len
    let r := t.me.cbWord cbRptst
    (idx + 1 < f.code.length → idx + 1 < 16 → back + len / 4 < 64 →
      t.me.pc = s.me.pc + wordOf len ∧ fieldOf r 16 4 = idx + 1 ∧ fieldOf r 20 12 = iter ∧ fieldOf r 8 6 = back + len / 4
        ∧ t.me.act = true ∧ t.me.frame = some f)
    ∧ (f.code.length ≤ idx + 1 → iter + 1 < f.n → iter + 1 < 4096 →
      t.me.pc = s.me.pc - wordOf (4 * back) ∧ fieldOf r 16 4 = 0 ∧ fieldOf r 20 12 = iter + 1 ∧ fieldOf r 8 6 = 0
        ∧ t.me.act = true ∧ t.me.frame = some f)
    ∧ (f.code.length ≤ idx + 1 → f.n ≤ iter + 1 → t.me.act = false ∧ t.me.frame = none))

/-- In replay n of a frame a register field is stepped by n times its step, modulo the register file (R254, R305). That a base updated
by a repeated access is read two issues later is the model's choice, log entry 30. -/
def Sys2Proof.Spec.RepeatStepsRegisters : Prop :=
  ∀ (f : Frame) (n : Nat) (st : Stall) (d a b : Reg) (t : BitVec 2) (vd va vb : VReg) (kd k : KReg),
    let r (x : Reg) (h : BitVec 4) : Reg := BitVec.ofInt 6 (x.toNat + n * h.toInt)
    let v (x : VReg) (h : BitVec 4) : VReg := BitVec.ofInt 5 (x.toNat + n * h.toInt)
    stepInstr f n (.add st d a b t) = .add st (r d f.sd) (r a f.sa) (r b f.sb) t
    ∧ stepInstr f n (.fma st d a b) = .fma st (r d f.sd) (r a f.sa) (r b f.sb)
    ∧ stepInstr f n (.vadd st vd va vb k t) = .vadd st (v vd f.sd) (v va f.sa) (v vb f.sb) k t
    ∧ stepInstr f n (.vcmplt st kd va vb k t)
        = .vcmplt st (BitVec.ofInt 3 (kd.toNat + n * f.sd.toInt)) (v va f.sa) (v vb f.sb) k t
    ∧ stepInstr f n (.nop st) = .nop st

/-- YIELD moves on and then gives way until each other READY slot has been offered a turn, at most 10 issue cycles (R287). -/
def Sys2Proof.Spec.YieldResult : Prop :=
  ∀ (s : State) (st : Stall), ∃ t others, exec (.yield st) s = .next t ∧ OnlySlot s t
    ∧ t.me.yielding = some (others, 10)
    ∧ (∀ j, j ∈ others ↔ j < 11 ∧ j ≠ s.cur.2 ∧ (s.slot s.cur.1 j).state = .ready)
    ∧ { t with cores := s.cores } = s ∧ t.me.pc = (s.retire st 4).me.pc

/-! ### Loads and stores -/

/-- LD, LDX, LD.ACQ and LDS of the core's own buffers: the little-endian value at the effective address, extended, and the
poison of its word, land at distance 2, the base update at distance 1 (R205, R247, R248, R293, R294, R295). -/
def Sys2Proof.Spec.OwnLoads : Prop :=
  ∀ (s : State) (st : Stall) (d b : Reg) (m : BitVec 2) (f : MForm) (ty : SizeType) (x6 : BitVec 6) (x32 : BitVec 32)
    (a : Nat) (v : Bool), PlainMemory s → Settled s →
    let ok (m : BitVec 2) (f : MForm) (n scale : Nat) : Prop := s.Clean (addressRegs b m f)
      ∧ (address s b m f n scale).toNat % n = 0 ∧ s.resolve (address s b m f n scale) n .read = .at_ a true v
    let gives (i : Instr) (m : BitVec 2) (f : MForm) (n : Nat) (signed : Bool) : Prop :=
      exec i s = .next (s.results st (formLen f)
        [(2, s.wr d (loaded n signed (leValue s.mem a n)) (poisonedAt s a n)), (1, baseUpdate s b m n)])
    let size : Nat := match f with | .short _ => 8 | .long ty _ => 2 ^ ty.sz.toNat
    let signed : Bool := match f with | .short _ => false | .long ty _ => ty.sx
    (ok m (.short x6) 8 1 → gives (.ld st d b m x6) m (.short x6) 8 false)
    ∧ (ok m (.long ty x32) (2 ^ ty.sz.toNat) 1 →
        gives (.ldLong st d b m ty x32) m (.long ty x32) (2 ^ ty.sz.toNat) ty.sx)
    ∧ (ok 3 f size size → gives (.ldx st d b f) 3 f size signed)
    ∧ (ok m f size 1 → gives (.ldAcq st d b m f) m f size signed ∧ gives (.lds st d b m f) m f size signed)

/-- The same loads from elsewhere park and complete at once where no earlier access of the slot is waiting: everything lands
together, and the bank's touched bit is set (R174, R176, R205, R293, R294). -/
def Sys2Proof.Spec.FarLoads : Prop :=
  ∀ (s : State) (st : Stall) (d b : Reg) (m : BitVec 2) (f : MForm) (ty : SizeType) (x6 : BitVec 6) (x32 : BitVec 32)
    (a : Nat) (v : Bool), PlainMemory s → Settled s →
    let ok (m : BitVec 2) (f : MForm) (n scale : Nat) : Prop := s.Clean (addressRegs b m f)
      ∧ (address s b m f n scale).toNat % n = 0 ∧ s.resolve (address s b m f n scale) n .read = .at_ a false v
    let gives (i : Instr) (m : BitVec 2) (f : MForm) (n : Nat) (signed : Bool) : Prop :=
      exec i s = .next ((s.touch a false).done (formLen f)
        (s.wr d (loaded n signed (leValue s.mem a n)) (poisonedAt s a n) ++ baseUpdate s b m n))
    let size : Nat := match f with | .short _ => 8 | .long ty _ => 2 ^ ty.sz.toNat
    let signed : Bool := match f with | .short _ => false | .long ty _ => ty.sx
    (ok m (.short x6) 8 1 → gives (.ld st d b m x6) m (.short x6) 8 false)
    ∧ (ok m (.long ty x32) (2 ^ ty.sz.toNat) 1 →
        gives (.ldLong st d b m ty x32) m (.long ty x32) (2 ^ ty.sz.toNat) ty.sx)
    ∧ (ok 3 f size size → gives (.ldx st d b f) 3 f size signed)
    ∧ (ok m f size 1 → gives (.ldAcq st d b m f) m f size signed ∧ gives (.lds st d b m f) m f size signed)

/-- What completing a parking instruction does: its register results are there, the slot is READY past it with RESID 0, and
every byte outside the registers written reads as before (R204, R205). Of other slots only monitor lines change: that a result's
landing flags them is the model's choice, log entry 8. -/
def Obligations.ParkingResultsLand : Prop :=
  ∀ (s t : State) (len : Nat) (d b : Reg) (v w : Word) (p q : Bool), s.me.pend = [] → s.me.asIssued = [] →
    let i := s.cur.2
    let c := s.cur.1
    let ws := s.wr d v p ++ s.wr b w q
    t = s.done len ws ∨ t = s.complete c i len ws →
    (d ≠ 0 → d ≠ b → t.reg d = ⟨v, p⟩) ∧ (b ≠ 0 → t.reg b = ⟨w, q⟩)
    ∧ t.me.state = .ready ∧ t.me.wait = none ∧ t.me.resid = 0
    ∧ (s.me.act = false → s.me.NoLoop → t.me.pc = s.me.pc + wordOf len)
    ∧ (∀ a, (d = 0 ∨ a < s.regAddr c i d ∨ s.regAddr c i d + 8 ≤ a) → (b = 0 ∨ a < s.regAddr c i b ∨ s.regAddr c i b + 8 ≤ a) →
        mget t.mem a = mget s.mem a)
    ∧ (∀ r, r ≠ d → r ≠ b → t.reg r = s.reg r)
    ∧ { t with mem := s.mem, poison := s.poison, cores := s.cores } = s
    ∧ ∀ c' i', (c', i') ≠ s.cur → sansMonitors (t.slot c' i') = sansMonitors (s.slot c' i')

/-- An access to a misaligned address raises ALIGN, with FLT1 the address and FLT2 the size; LDS writes a poisoned zero
instead, and so it does where the page is missing, forbidden or revoked (R293, R295): at distance 2, or, where a walk parked
the context, at once when it wakes (R205). The order in which the checks of one access come is the model's choice, log entry 7. -/
def Sys2Proof.Spec.AccessFaults : Prop :=
  ∀ (s : State) (st : Stall) (d b : Reg) (m : BitVec 2) (x : BitVec 6) (t : Trap), s.Quiet → s.Clean (addressRegs b m (.short x)) →
    let ea := address s b m (.short x) 8 1
    let poisoned : Out := .next (if s.me.walkFault.isSome then s.done 4 (s.wr d 0 true ++ baseUpdate s b m 8)
      else s.results st 4 [(2, s.wr d 0 true), (1, baseUpdate s b m 8)])
    (ea.toNat % 8 ≠ 0 →
      exec (.ld st d b m x) s = .next (s.raise ⟨5, 0, ea, 8, .own, 0, false, false⟩)
      ∧ ((s.reg d).poison = false → exec (.st st d b m x) s = .next (s.raise ⟨5, 0, ea, 8, .own, 1, false, false⟩))
      ∧ exec (.lds st d b m (.short x)) s = poisoned)
    ∧ (ea.toNat % 8 = 0 → s.resolve ea 8 .read = .fault t →
      exec (.ld st d b m x) s = .next (s.raise t)
      ∧ (t.cause = 3 ∨ t.cause = 4 ∨ t.cause = 0x11 ∨ t.cause = 0x12 →
          exec (.lds st d b m (.short x)) s = poisoned))

/-- ST, STX and STV to the core's own buffers write their little-endian bytes at once; the base update lands at distance 1
(R161, R174, R293, R294, R298). -/
def Sys2Proof.Spec.OwnStores : Prop :=
  ∀ (s : State) (st : Stall) (d b : Reg) (vd : VReg) (m : BitVec 2) (f : MForm) (ty : SizeType) (x6 : BitVec 6)
    (x32 : BitVec 32) (a : Nat) (v : Bool), PlainMemory s → Settled s →
    let ok (m : BitVec 2) (f : MForm) (n scale : Nat) : Prop := s.Clean (addressRegs b m f)
      ∧ (address s b m f n scale).toNat % n = 0 ∧ s.resolve (address s b m f n scale) n .write = .at_ a true v
    let gives (i : Instr) (m : BitVec 2) (f : MForm) (n : Nat) (bs : List Byte) : Prop :=
      exec i s = .next ((s.bankWrite a bs []).results st (formLen f) [(1, baseUpdate s b m n)])
    let size : Nat := match f with | .short _ => 8 | .long ty _ => 2 ^ ty.sz.toNat
    let bs (n : Nat) : List Byte := leBytesOf n (s.reg d).val.toNat
    (s.Clean [d] →
      (ok m (.short x6) 8 1 → gives (.st st d b m x6) m (.short x6) 8 (bs 8))
      ∧ (ok m (.long ty x32) (2 ^ ty.sz.toNat) 1 →
          gives (.stLong st d b m ty x32) m (.long ty x32) (2 ^ ty.sz.toNat) (bs (2 ^ ty.sz.toNat)))
      ∧ (ok 3 f size size → gives (.stx st d b f) 3 f size (bs size)))
    ∧ ((∀ t ∈ s.vreg vd, t.poison = false) → ok m f 64 1 →
        gives (.stv st vd b m f) m f 64 ((s.vreg vd).flatMap fun t => leBytesOf 8 t.val.toNat))

/-- A store that leaves the core posts one request that holds the address and the bytes, and no byte of memory changes yet
(R157, R161, R174, R176, R293). -/
def Sys2Proof.Spec.FarStores : Prop :=
  ∀ (s : State) (st : Stall) (d b : Reg) (vd : VReg) (m : BitVec 2) (f : MForm) (ty : SizeType) (x6 : BitVec 6)
    (x32 : BitVec 32) (a : Nat) (v : Bool), s.Quiet →
    let ok (m : BitVec 2) (f : MForm) (n scale : Nat) : Prop := s.Clean (addressRegs b m f)
      ∧ (address s b m f n scale).toNat % n = 0 ∧ s.resolve (address s b m f n scale) n .write = .at_ a false v
    let gives (i : Instr) (m : BitVec 2) (f : MForm) (n scale : Nat) (bs : List Byte) : Prop := ∃ t, exec i s = .next t
      ∧ t.reqs = s.reqs ++ [⟨s.serial, s.cur.1, s.cur.2, s.me.ctx, s.me.gen, a, bs, [], none, none, address s b m f n scale, v⟩]
      ∧ t.mem = s.mem ∧ t.poison = s.poison ∧ t.ctxs = s.ctxs ∧ t.empty = s.empty
      ∧ (State.touchBit a < 196 → t.me.touched.getLsbD (State.touchBit a) = true)
      ∧ t.me.pend = s.me.pend ++ (if (baseUpdate s b m n).isEmpty then [] else [⟨1, baseUpdate s b m n⟩])
      ∧ (s.me.act = false → s.me.NoLoop → t.me.pc = s.me.pc + wordOf (formLen f))
      ∧ ∀ c i, (c, i) ≠ s.cur → t.slot c i = s.slot c i
    let size : Nat := match f with | .short _ => 8 | .long ty _ => 2 ^ ty.sz.toNat
    let bs (n : Nat) : List Byte := leBytesOf n (s.reg d).val.toNat
    (s.Clean [d] →
      (ok m (.short x6) 8 1 → gives (.st st d b m x6) m (.short x6) 8 1 (bs 8))
      ∧ (ok m (.long ty x32) (2 ^ ty.sz.toNat) 1 →
          gives (.stLong st d b m ty x32) m (.long ty x32) (2 ^ ty.sz.toNat) 1 (bs (2 ^ ty.sz.toNat)))
      ∧ (ok 3 f size size → gives (.stx st d b f) 3 f size size (bs size)))
    ∧ ((∀ t ∈ s.vreg vd, t.poison = false) → ok m f 64 1 →
        gives (.stv st vd b m f) m f 64 1 ((s.vreg vd).flatMap fun t => leBytesOf 8 t.val.toNat))

/-- ST.REL waits for the slot's earlier accesses in its scope, and with none outstanding stores as ST does (R175, R294). -/
def Sys2Proof.Spec.ReleaseStores : Prop :=
  ∀ (s : State) (st : Stall) (d b : Reg) (m : BitVec 2) (sc : Scope) (sz : BitVec 2) (x : BitVec 32) (a : Nat) (v : Bool),
    PlainMemory s → Settled s → s.Clean (d :: addressRegs b m (.long ⟨0, false, sz⟩ x)) →
    let n := 2 ^ sz.toNat
    let ea := address s b m (.long ⟨0, false, sz⟩ x) n 1
    ea.toNat % n = 0 →
    (s.resolve ea n .write = .at_ a true v →
      exec (.stRel st d b m sc sz x) s
        = .next (((released s sc).bankWrite a (leBytesOf n (s.reg d).val.toNat) []).results st 8 [(1, baseUpdate s b m n)]))
    ∧ (s.resolve ea n .write = .at_ a false v → ∃ t, exec (.stRel st d b m sc sz x) s = .next t
      ∧ t.reqs = [⟨s.serial, s.cur.1, s.cur.2, s.me.ctx, s.me.gen, a, leBytesOf n (s.reg d).val.toNat, [], none, none, ea, v⟩]
      ∧ t.mem = s.mem)

/-- A write that a bank accepts: its bytes are there, every other byte is as before, and the words it covers whole take the tags
given (R11, R54, R158). -/
def Sys2Proof.Spec.AcceptedWriteChangesBytes : Prop :=
  ∀ (s : State) (a : Nat) (bs : List Byte) (p : List Bool), PlainMemory s → NoWatcher s →
    let t := s.bankWrite a bs p
    (∀ j, (h : j < bs.length) → mget t.mem (a + j) = bs[j])
    ∧ (∀ x, (x < a ∨ a + bs.length ≤ x) → mget t.mem x = mget s.mem x)
    ∧ (∀ x, (x / 8 < a / 8 ∨ (a + bs.length + 7) / 8 ≤ x / 8) → t.poison.contains (x / 8) = s.poison.contains (x / 8))
    ∧ (a % 8 = 0 → ∀ w, 8 * w + 8 ≤ bs.length → t.poison.contains (a / 8 + w) = p.getD w false)
    ∧ t.empty = s.empty ∧ t.ctxs = s.ctxs ∧ t.reqs = s.reqs

/-- LDV loads 64 bytes and LDVB one element into every position, whatever VL and the masks hold, from the own core and from
elsewhere (R298). -/
def Sys2Proof.Spec.VectorLoads : Prop :=
  ∀ (s : State) (st : Stall) (d : VReg) (b : Reg) (m : BitVec 2) (f : MForm) (a : Nat) (v : Bool),
    PlainMemory s → Settled s → s.Clean (addressRegs b m f) → a % 8 = 0 →
    let n : Nat := match f with | .short _ => 4 | .long ty _ => 2 ^ ty.sz.toNat
    let reg (g : Nat → Tagged) : List WordWrite := (List.range 8).map fun j =>
      ⟨.word (s.vregAddr s.cur.1 s.cur.2 d + 8 * j), g j, BitVec.allOnes 64⟩
    let line (j : Nat) : Tagged := ⟨BitVec.ofNat 64 (leValue s.mem (a + 8 * j) 8), poisonedAt s (a + 8 * j) 8⟩
    let elem : Tagged := ⟨BitVec.ofNat 64 ((List.range (8 / n)).map fun k => leValue s.mem a n * 2 ^ (8 * n * k)).sum,
      poisonedAt s a n⟩
    ((address s b m f 64 1).toNat % 64 = 0 → s.resolve (address s b m f 64 1) 64 .read = .at_ a true v →
      exec (.ldv st d b m f) s = .next (s.results st (formLen f) [(2, reg line), (1, baseUpdate s b m 64)]))
    ∧ ((address s b m f 64 1).toNat % 64 = 0 → s.resolve (address s b m f 64 1) 64 .read = .at_ a false v →
      exec (.ldv st d b m f) s = .next ((s.touch a false).done (formLen f) (reg line ++ baseUpdate s b m 64)))
    ∧ (n ≤ 8 → (address s b m f n 1).toNat % n = 0 → s.resolve (address s b m f n 1) n .read = .at_ a true v →
      exec (.ldvb st d b m f) s = .next (s.results st (formLen f) [(2, reg fun _ => elem), (1, baseUpdate s b m n)]))
    ∧ (n ≤ 8 → (address s b m f n 1).toNat % n = 0 → s.resolve (address s b m f n 1) n .read = .at_ a false v →
      exec (.ldvb st d b m f) s = .next ((s.touch a false).done (formLen f) ((reg fun _ => elem) ++ baseUpdate s b m n)))

/-- A gather or scatter acts on the lanes below VL whose mask bit is set, and checks them in ascending order before any is
accessed: a poisoned mask, or the first poisoned lane word of the index or the data, raises POISON, and a lane's fault is the
instruction's. A gather then reads each lane's element into its place, a scatter writes each lane's element, in lane order and as one
request each where it leaves the core; with no active lane nothing is accessed (R161, R176, R299). -/
def Sys2Proof.Spec.GatherAndScatter : Prop :=
  ∀ (s : State) (st : Stall) (d : VReg) (b : Reg) (f : MForm) (l : List State.LaneAt) (e : Trap),
    PlainMemory s → Settled s → s.Clean [b] →
    let g := State.gatherForm f
    let act := s.gatherLanes g.2.1 g.2.2
    let bytes (x : State.LaneAt) : List Byte := leBytesOf g.2.2 (vecNat (s.vreg d) / 2 ^ (8 * g.2.2 * x.lane))
    let raises (i : Instr) (e : Trap) : Prop := exec i s = .next (s.raise e)
    let load := Instr.ldvx st d b f
    let store := Instr.stvx st d b f
    let checked (kd : Kind) (data : Option (VReg × List Tagged)) :=
      State.checkLanes (s.reg b).val g.1 g.2.2 kd (s.vreg g.1) data act s
    (act = [] → exec load s = .next (s.retire st (formLen f)) ∧ exec store s = .next (s.retire st (formLen f)))
    ∧ (act ≠ [] → s.me.kpoison g.2.1 = true →
        raises load (poisonAt (0xAA0 + 8 * (g.2.1 / 2))) ∧ raises store (poisonAt (0xAA0 + 8 * (g.2.1 / 2))))
    ∧ (s.me.kpoison g.2.1 = false →
      (∀ i rest, act = i :: rest →
        (wordPoison s g.1 (i * g.2.2 / 8) = true →
          raises load (poisonAt (0x200 + 64 * g.1.toNat + 8 * (i * g.2.2 / 8)))
          ∧ raises store (poisonAt (0x200 + 64 * g.1.toNat + 8 * (i * g.2.2 / 8))))
        ∧ (wordPoison s g.1 (i * g.2.2 / 8) = false → wordPoison s d (i * g.2.2 / 8) = true →
          raises store (poisonAt (0x200 + 64 * d.toNat + 8 * (i * g.2.2 / 8)))))
      ∧ (checked .read none = .error (.fault e) → raises load e)
      ∧ (checked .write (some (d, s.vreg d)) = .error (.fault e) → raises store e)
      ∧ (checked .read none = .ok l → l ≠ [] →
        ∃ t, exec load s = .next (t.done (formLen f) (s.gatherWrites d g.2.2 l)) ∧ OnlySlotAndLinks s t
          ∧ { t.me with touched := s.me.touched } = s.me
          ∧ ∀ x ∈ l, x.own = false → State.touchBit x.addr < 196 → t.me.touched.getLsbD (State.touchBit x.addr) = true)
      ∧ (checked .write (some (d, s.vreg d)) = .ok l → (∀ x ∈ l, x.own = true) →
        exec store s = .next ((l.foldl (fun t x => t.bankWrite x.addr (bytes x) []) s).retire st (formLen f)))
      ∧ (checked .write (some (d, s.vreg d)) = .ok l → (∀ x ∈ l, x.own = false) →
        ∃ t, exec store s = .next t ∧ t.mem = s.mem ∧ t.poison = s.poison ∧ t.ctxs = s.ctxs
          ∧ t.reqs.map (fun r => (r.addr, r.bytes, r.va, r.viewed)) = l.map (fun x => (x.addr, bytes x, x.va, x.viewed))
          ∧ (∀ r ∈ t.reqs, r.core = s.cur.1 ∧ r.slot = s.cur.2 ∧ r.poison = [] ∧ r.red = none ∧ r.sig = none)
          ∧ (s.me.act = false → s.me.NoLoop → t.me.pc = s.me.pc + wordOf (formLen f))
          ∧ ∀ c i, (c, i) ≠ s.cur → t.slot c i = s.slot c i))

/-- A gather's result: each gathered lane's element is the little-endian value at its address, in the lane's place, and no
other lane is written (R299, R302). -/
def Sys2Proof.Spec.GatherWritesItsLanes : Prop :=
  ∀ (s : State) (d : VReg) (size : Nat) (l : List State.LaneAt) (i : Nat),
    size = 2 ∨ size = 4 → (l.map (·.lane)).Nodup → i < 64 / size →
    let w := (s.gatherWrites d size l)[i * size / 8]?
    let lo := 8 * (i * size % 8)
    ∃ x, w = some x ∧ x.dest = .word (s.vregAddr s.cur.1 s.cur.2 d + 8 * (i * size / 8))
      ∧ (∀ y ∈ l, y.lane = i → fieldOf x.bits lo (8 * size) = 2 ^ (8 * size) - 1
          ∧ fieldOf x.data.val lo (8 * size) = leValue s.mem y.addr size)
      ∧ ((∀ y ∈ l, y.lane ≠ i) → fieldOf x.bits lo (8 * size) = 0)

/-- PREF reads nothing into a register and never parks: where its page translates the base update follows; where the address is
misaligned, in mesh space or does not translate, it only moves on (R296). That a miss of PREF is walked in place is the model's
choice, log entry 14. -/
def Sys2Proof.Spec.PrefetchResult : Prop :=
  ∀ (s u : State) (st : Stall) (b : Reg) (m : BitVec 2) (f : MForm) (pa : Nat) (v : Bool) (e : Trap),
    s.Quiet → s.Clean (addressRegs b m f) →
    let ea := address s b m f 8 1
    (ea.toNat % 8 ≠ 0 ∨ State.isMesh ea = true → exec (.pref st b m f) s = .next (s.retire st (formLen f)))
    ∧ (ea.toNat % 8 = 0 → State.isMesh ea = false → s.translateDirect s.me.ctx ea .read = .error e →
        exec (.pref st b m f) s = .next (s.retire st (formLen f)))
    ∧ (ea.toNat % 8 = 0 → State.isMesh ea = false → s.translateDirect s.me.ctx ea .read = .ok (pa, v, u) →
        u.cores = s.cores → u.mem = s.mem → u.poison = s.poison → u.cur = s.cur →
        exec (.pref st b m f) s = .next (u.results st (formLen f) [(1, baseUpdate s b m 8)]))

/-! ### Full-empty words, atomics, signals -/

/-- The full-empty instructions on a word of the own core's A or S that no request waits for: what each reads, writes and does
to the full-empty bit, the base update with it (R60, R62, R71, R297). An LDF or LDFE of an empty word waits in the park table,
and so does an STE of a full one. -/
def Obligations.FullEmptyResults : Prop :=
  ∀ (s : State) (st : Stall) (d b : Reg) (m : BitVec 2) (f : MForm) (a : Nat),
    PlainMemory s → Settled s → NoWatcher s → (s.core s.cur.1).park = [] → State.ownerOf a = s.cur.1 → s.Clean (addressRegs b m f) →
    let ea := address s b m f 8 1
    ea.toNat % 8 = 0 → (∀ k, s.syncTarget ea k = .ok (a, true)) →
    let len := formLen f
    let base := baseUpdate s b m 8
    let rel := released s .core
    let unheld (t : State) : State := { t with held := ndel t.held (a / 8) }
    let ends (t : State) (ws : List WordWrite) : Out := .next (t.complete s.cur.1 s.cur.2 len (ws ++ base))
    let waits (i : Instr) : Prop := ∃ (t : State) (r : SyncReq), exec i s = .next t ∧ t.me.state = .parked ∧ (t.core s.cur.1).park = [⟨s.cur.1, s.cur.2, r⟩]
      ∧ r.addr = a ∧ t.mem = s.mem ∧ t.empty = s.empty
    (s.isFull a = true →
      exec (.ldf st d b m f) s = ends s (s.wr d (s.word a).val (s.word a).poison)
      ∧ exec (.ldfe st d b m f) s = ends (s.setFull a false) (s.wr d (s.word a).val (s.word a).poison))
    ∧ (s.isFull a = false → waits (.ldf st d b m f) ∧ waits (.ldfe st d b m f))
    ∧ (s.Clean [d] → s.isFull a = false → s.isHeld a = false →
        exec (.ste st d b m f) s = ends ((rel.bankSetWord a ⟨(s.reg d).val, false⟩).setFull a true) [])
    ∧ (s.Clean [d] → s.isFull a = true → waits (.ste st d b m f))
    ∧ (s.Clean [d] →
        exec (.stf st d b m f) s = ends (unheld ((rel.bankSetWord a ⟨(s.reg d).val, false⟩).setFull a true)) [])
    ∧ exec (.feset st b m f) s = ends (unheld (rel.setFull a true)) []
    ∧ exec (.feclr st b m f) s = ends (s.setFull a false) []
    ∧ exec (.feqry st d b m f) s = ends s (s.wr d (if s.isFull a then 1 else 0) false)

/-- AMO and CAS take the word's reservation at its bank, write their result unless the word is poisoned, and return the old
value with its tag; with REL = 1 a release at the scope comes first, and the access then sets its bank's touched bit (R175, R176, R186,
R190, R365, R366). -/
def Sys2Proof.Spec.AtomicResults : Prop :=
  ∀ (s : State) (st : Stall) (op : AmoOp) (d a b c : Reg) (acq rel : Bool) (sc : Scope) (p : Nat) (own : Bool),
    PlainMemory s → Settled s → NoReservation s → s.Clean [a, b, c] →
    let va := (s.reg a).val
    va.toNat % 8 = 0 → State.isMesh va = false → s.resolve va 8 .write = .at_ p own false →
    let s' := (if rel then released s sc else s).touch p false
    let old := s.word p
    let wrote (v : Word) : State := if old.poison then s' else s'.bankSetWord p ⟨v, false⟩
    exec (.amo st op d a b acq rel sc) s = .next ((wrote (amoResult op old.val (s.reg b).val)).done 8 (s.wr d old.val old.poison))
    ∧ exec (.cas st d a b c acq rel sc) s
        = .next ((if old.val = (s.reg b).val then wrote (s.reg c).val else s').done 8 (s.wr d old.val old.poison))

/-- RSV takes a reservation and returns the word; RWB under it writes, releases and returns 0; RLSN releases and returns 0;
without it both return 1 and write nothing (R186, R366, R367). -/
def Sys2Proof.Spec.ReservationResults : Prop :=
  ∀ (s : State) (st : Stall) (d a b : Reg) (p : Nat) (own : Bool),
    PlainMemory s → Settled s → NoWatcher s → s.resQueue = [] → (∀ h ∈ s.pkg.hostWrites, h.heldBy = []) → s.Clean [a, b] →
    let va := (s.reg a).val
    va.toNat % 8 = 0 → State.isMesh va = false → s.resolve va 8 .write = .at_ p own false → p % 8 = 0 →
    (s.reservations = [] → s.me.rsv = none → ∃ t : State, exec (.rsv st d a) s = .next (t.done 4 (s.wr d (s.word p).val (s.word p).poison))
      ∧ t.reservations = [⟨p / 8, s.cur.1, s.cur.2, s.cyc, va, (s.word p).poison⟩] ∧ t.me.rsv = some (p / 8) ∧ t.mem = s.mem)
    ∧ (∀ since, s.reservations = [⟨p / 8, s.cur.1, s.cur.2, since, va, false⟩] → s.me.rsv = some (p / 8) →
      (∃ t : State, exec (.rwb st d a b) s = .next (t.done 4 (s.wr d 0 false)) ∧ t.word p = ⟨(s.reg b).val, false⟩ ∧ SameBytesBut s t p
        ∧ t.reservations = [] ∧ t.me.rsv = none)
      ∧ (∃ t : State, exec (.rlsn st d a) s = .next (t.done 4 (s.wr d 0 false)) ∧ t.mem = s.mem ∧ t.reservations = [] ∧ t.me.rsv = none))
    ∧ (s.me.rsv = none → exec (.rwb st d a b) s = .next ((s.touch p false).done 4 (s.wr d 1 false))
      ∧ exec (.rlsn st d a) s = .next (s.done 4 (s.wr d 1 false)))

/-- RED.F32 and SIGDEC send a request to the word's bank and go on; no byte changes until the bank accepts it (R192, R366,
R372). -/
def Sys2Proof.Spec.RequestsPosted : Prop :=
  ∀ (s : State) (st : Stall) (a b : Reg) (p : Nat) (own v : Bool), Settled s → s.Clean [a, b] →
    let va := (s.reg a).val
    va.toNat % 8 = 0 → State.isMesh va = false → s.resolve va 8 .write = .at_ p own v →
    let posts (i : Instr) (red : Option (BitVec 32)) (sig : Option Word) : Prop := ∃ (t : State) (r : Request), exec i s = .next t ∧ t.reqs = [r]
      ∧ r.core = s.cur.1 ∧ r.slot = s.cur.2 ∧ r.addr = p ∧ r.va = va ∧ r.red = red ∧ r.sig = sig ∧ r.n = s.serial
      ∧ t.mem = s.mem ∧ t.poison = s.poison ∧ t.ctxs = s.ctxs ∧ t.me.pend = []
      ∧ (s.me.act = false → s.me.NoLoop → t.me.pc = s.me.pc + 4) ∧ ∀ c i, (c, i) ≠ s.cur → t.slot c i = s.slot c i
    posts (.redF32 st a b) (some ((s.reg b).val.setWidth 32)) none ∧ posts (.sigdec st a b) none (some (s.reg b).val)

/-- An accepted SIGDEC subtracts its amount from the signal word, and one that brings it to at most 0 with ARMED set clears
ARMED and sends the vector; a RED outside a reduction region adds to the word's F32, rounded once (R192, R372). -/
def Sys2Proof.Spec.AcceptedSignalsAndSums : Prop :=
  ∀ (s : State) (r : Request) (v : Word) (x : BitVec 32),
    PlainMemory s → NoWatcher s → r.viewed = false → r.addr % 16 = 0 → (s.word r.addr).poison = false →
    r.bytes = leBytesOf 8 0 → r.poison = [false] →
    let n := (s.word r.addr).val - v
    (r.red = none → r.sig = some v →
      ∃ t, s.acceptReq r = t ∧ t.word r.addr = ⟨n, false⟩
        ∧ (0 < n.toInt → t.word (r.addr + 8) = s.word (r.addr + 8) ∧ t.pkg.msi = s.pkg.msi)
        ∧ (n.toInt ≤ 0 → (t.word (r.addr + 8)).val.getLsbD 63 = false)
        ∧ (n.toInt ≤ 0 → (s.word (r.addr + 8)).val.getLsbD 63 = true → (s.ctx r.ctx).depth = 0 →
            2 ≤ (s.word (r.addr + 8)).val.toNat % 2048 → (s.word (r.addr + 8)).val.toNat % 2048 ≤ 63 →
            t.pkg.msi = (0, (s.word (r.addr + 8)).val.toNat % 2048) :: s.pkg.msi))
    ∧ (r.red = some x → r.sig = none → (s.ctx r.ctx).redrgn = 0 →
        finite 8 23 ((s.word r.addr).val.toNat % 2 ^ 32) = true → finite 8 23 x.toNat = true →
      ∃ c, RoundedTo32 (value32 ((s.word r.addr).val.toNat % 2 ^ 32) + value32 x.toNat) c
        ∧ ((s.acceptReq r).word r.addr).val.toNat = (s.word r.addr).val.toNat / 2 ^ 32 * 2 ^ 32 + c)

/-- SIGWAIT returns at once when the word is at most its bound, signed, else it parks at the word's bank until FTMO (R373). -/
def Sys2Proof.Spec.SignalWaits : Prop :=
  ∀ (s : State) (st : Stall) (d a b : Reg) (p : Nat) (own v : Bool), PlainMemory s → Settled s → s.Clean [a, b] →
    let va := (s.reg a).val
    va.toNat % 8 = 0 → State.isMesh va = false → s.resolve va 8 .read = .at_ p own v → (s.word p).poison = false →
    ((s.word p).val.toInt ≤ (s.reg b).val.toInt →
      exec (.sigwait st d a b) s = .next ((s.touch p false).done 4 (s.wr d (s.word p).val false)))
    ∧ ((s.reg b).val.toInt < (s.word p).val.toInt → s.me.parkedSince = none → ∃ t : State, exec (.sigwait st d a b) s = .next t
        ∧ t.me.state = .parked ∧ t.me.wait = some (.signal p va (s.reg b).val d (s.cyc + s.me.ftmo) 4) ∧ t.mem = s.mem)

/-- INTH sends its vector at once when VALUE is at most 0, and arms the object otherwise; it is a release (R374). -/
def Sys2Proof.Spec.InterruptHandles : Prop :=
  ∀ (s : State) (st : Stall) (a : Reg) (p : Nat) (own : Bool),
    PlainMemory s → Settled s → NoReservation s → NoWatcher s → s.Clean [a] → (s.ctx s.me.ctx).depth = 0 →
    let va := (s.reg a).val
    va.toNat % 16 = 0 → State.isMesh va = false → s.resolve va 8 .write = .at_ p own false → p % 16 = 0 →
    (s.word p).poison = false →
    let w1 := s.word (p + 8)
    let vec := w1.val.toNat % 2048
    ∃ t : State, exec (.inth st a) s = .next (t.done 4 []) ∧ SameBytesBut s t (p + 8)
      ∧ ((s.word p).val.toInt ≤ 0 → (t.word (p + 8)).val.getLsbD 63 = false
          ∧ t.pkg.msi = if 2 ≤ vec ∧ vec ≤ 63 then (0, vec) :: s.pkg.msi else s.pkg.msi)
      ∧ (0 < (s.word p).val.toInt → (t.word (p + 8)).val.getLsbD 63 = true ∧ t.pkg.msi = s.pkg.msi)
      ∧ ∀ j, j < 63 → (t.word (p + 8)).val.getLsbD j = w1.val.getLsbD j

/-! ### Fences, monitors, barriers -/

/-- FENCE and FENCE.E with nothing outstanding complete at once and clear the touched bits of their scope (R178, R368); with
accesses of the slot in scope that no bank has accepted, the slot parks for those banks' echoes. That probes go to exactly those
banks, and that a fence without such an access completes at once whatever touched bits are set, is the model's choice, log entry 15. -/
def Sys2Proof.Spec.FenceResults : Prop :=
  ∀ (s : State) (st : Stall) (sc : Scope) (e : Bool), s.me.pend = [] → (s.core s.cur.1).matrix = [] →
    (s.cluster (Site.cluster s.cur.1)).engine = [] →
    let i : Instr := if e then .fenceE st sc else .fence st sc
    (s.outstanding s.cur.1 s.cur.2 sc = false →
      ∃ t : State, exec i s = .next t ∧ OnlySlot s t ∧ t.me.state = .ready ∧ t.me.wait = none
        ∧ (∀ j, j < 196 → t.me.touched.getLsbD j = (s.me.touched.getLsbD j && !(State.scopeMask sc s.cur.1).getLsbD j))
        ∧ (s.me.act = false → s.me.NoLoop → t.me.pc = s.me.pc + 4))
    ∧ (s.outstanding s.cur.1 s.cur.2 sc = true →
      ∃ t ps m, exec i s = .next t ∧ OnlySlot s t ∧ t.me.state = .parked ∧ t.me.wait = some (.fence ps m e sc 4)
        ∧ ∀ k, k ∈ ps ↔ ∃ r ∈ s.reqs, State.mine s.cur.1 s.cur.2 sc r = true ∧ bankOf r.addr = k)

/-- MON arms a line on the line of its address, MOFF clears it, and WAITM returns at once for a pending line, an interrupt or
a deadline reached, and parks otherwise (R170, R172, R369). That the landing of WAITM's result flags a line armed on its register is the
model's choice, log entry 8. -/
def Sys2Proof.Spec.MonitorResults : Prop :=
  ∀ (s : State) (st : Stall) (n : BitVec 2) (d a : Reg) (p : Nat) (own v : Bool), s.me.pend = [] →
    let va := (s.reg a).val
    (s.Clean [a] → s.resolve va 1 .read = .at_ p own v → ∃ t : State, exec (.mon st n a) s = .next t ∧ OnlySlot s t
      ∧ t.me.monitor n.toNat = ⟨some (p / 64, va), false, none⟩ ∧ (∀ k, k ≠ n.toNat → t.me.monitor k = s.me.monitor k)
      ∧ t.me.state = .ready)
    ∧ (∃ t : State, exec (.moff st n) s = .next t ∧ OnlySlot s t ∧ t.me.monitor n.toNat = ⟨none, false, none⟩
      ∧ ∀ k, k ≠ n.toNat → t.me.monitor k = s.me.monitor k)
    ∧ (∀ k, (s.me.monitor k).pending = true → k < 4 → (∀ j < k, (s.me.monitor j).pending = false) →
        ∃ t : State, exec (.waitm st d a) s = .next t ∧ t.me.state = .ready ∧ (d ≠ 0 → t.reg d = ⟨BitVec.ofNat 64 (256 * k + 1), (s.reg a).poison⟩)
          ∧ ((∀ l va, (s.me.monitor k).armed = some (l, va) → d = 0 ∨ l ≠ s.regAddr s.cur.1 s.cur.2 d / 64) →
              (t.me.monitor k).pending = false))
    ∧ ((∀ j < 4, (s.me.monitor j).pending = false) →
        (s.me.intr = true → ∃ t : State, exec (.waitm st d a) s = .next t ∧ t.me.state = .ready ∧ t.me.intr = false
          ∧ (d ≠ 0 → t.reg d = ⟨3, (s.reg a).poison⟩))
        ∧ (s.me.intr = false → ((s.reg a).poison = true ∨ va.toNat ≤ s.cyc) → ∃ t : State, exec (.waitm st d a) s = .next t
          ∧ t.me.state = .ready ∧ (d ≠ 0 → t.reg d = ⟨2, (s.reg a).poison⟩))
        ∧ (s.me.intr = false → (s.reg a).poison = false → s.cyc < va.toNat → ∃ t : State, exec (.waitm st d a) s = .next t
          ∧ t.me.state = .parked ∧ t.me.wait = some (.waitm d (s.reg a) 4)))

/-- A barrier opens when its last participant arrives, and every participant goes on: alone, or with the other participants of the
round waiting; an arrival before that parks until the round's timeout (R214, R370). -/
def Sys2Proof.Spec.BarrierResults : Prop :=
  ∀ (s : State) (st : Stall) (b : Bool), s.me.pend = [] →
    let c := s.cur.1
    let i := s.cur.2
    let kind : Barrier := if b then .bar else .clu
    let x : Instr := if b then .barGang st else .barClu st
    (∀ u g ps, s.barRound kind c i = some (u, g, ps) → c ∈ ps → ps.Nodup → (∀ o ∈ ps, o ≠ c → s.barJoined kind o i = true) →
      ∃ t : State, exec x s = .next t ∧ ∀ o ∈ ps, (t.slot o i).state = .ready ∧ (t.slot o i).wait = none
        ∧ ((s.slot o i).act = false → (s.slot o i).NoLoop → (t.slot o i).pc = (s.slot o i).pc + 4))
    ∧ (s.barRound kind c i = none → s.me.wait = none →
    (s.barParts kind c i = [c] → ∃ t : State, exec x s = .next t ∧ t.me.state = .ready ∧ t.me.wait = none
      ∧ (s.me.act = false → s.me.NoLoop → t.me.pc = s.me.pc + 4) ∧ t.mem = s.mem)
    ∧ (∀ o ∈ s.barParts kind c i, o ≠ c → (s.slot o i).wait = none → ∃ t : State, exec x s = .next t ∧ t.me.state = .parked
      ∧ t.me.wait = some (.barrier kind (s.cyc + s.me.gtmo) s.me.gtmo
          (if c ∈ s.barParts kind c i then s.barParts kind c i else []) 4) ∧ t.mem = s.mem))

/-! ### Vectors -/

/-- The integer vector operations, lane by lane, in both forms: each active lane takes its result modulo 2^W at distance 2, and
every other bit of the register keeps its value (R205, R226, R302, R307, R308, R309). -/
def Obligations.VectorIntegerLanes : Prop :=
  ∀ (s : State) (st : Stall) (d a b : VReg) (k : KReg) (t : BitVec 2) (e : Option VExt), s.Quiet → NoPointers e →
    let vt := vecType t e
    let w := laneSize vt
    let x := lane s a w
    let y := lane s b w
    let n (v : Nat) : Int := asTyped vt w v
    vt ∈ [2, 3, 5, 6, 7, 8] →
    let gives (op : VecOp) (v : Nat → Int) (p : Nat → Bool) : Prop :=
      GivesLanes s (vecInstr st op d a b k t e) (vecLen e) 2 (· = .none)
        (Lanes s d w (active s k w) (fun i r => (r : Int) = v i % 2 ^ w) (fun j => vecTaint s k e || p j)) st
    let pa := wordPoison s a
    let pab (j : Nat) : Bool := wordPoison s a j || wordPoison s b j
    gives .vadd (fun i => x i + y i) pab ∧ gives .vsub (fun i => x i - y i) pab ∧ gives .vmul (fun i => x i * y i) pab
    ∧ gives .vfma (fun i => x i * y i + lane s d w i) (fun j => pab j || wordPoison s d j)
    ∧ gives .vmin (fun i => min (n (x i)) (n (y i))) pab ∧ gives .vmax (fun i => max (n (x i)) (n (y i))) pab
    ∧ (signedType vt = true → gives .vabs (fun i => |n (x i)|) pa ∧ gives .vneg (fun i => -n (x i)) pa)
    ∧ gives .vshl (fun i => x i * 2 ^ (y i % w)) pab ∧ gives .vshr (fun i => x i / 2 ^ (y i % w)) pab
    ∧ gives .vsar (fun i => asSigned w (x i) / 2 ^ (y i % w)) pab
    ∧ GivesLanes s (vecInstr st .vidx d a b k t e) (vecLen e) 3 (· = .none)
        (Lanes s d w (active s k w) (fun i r => r = (i + (s.reg (vecQ e)).val.toNat % 2 ^ 32) % 2 ^ w) fun _ => vecTaint s k e) st

/-- The operations on lanes' bits, whatever the element type: logic, moves, selection, permutation, compression, counts (R302,
R309, R311, R312, R313). -/
def Sys2Proof.Spec.VectorMoves : Prop :=
  ∀ (s : State) (st : Stall) (d a b : VReg) (k : KReg) (t : BitVec 2) (e : Option VExt), s.Quiet → NoPointers e →
    let vt := vecType t e
    let w := laneSize vt
    let x := lane s a w
    let y := lane s b w
    let L := 512 / w
    vt ≤ 8 →
    let gives (op : VecOp) (D : Nat) (on : Nat → Bool) (v : Nat → Nat) (p : Nat → Bool) : Prop :=
      GivesLanes s (vecInstr st op d a b k t e) (vecLen e) D (· = .none)
        (Lanes s d w on (fun i r => r = v i) (fun j => vecTaint s k e || p j)) st
    let act := active s k w
    let pab (j : Nat) : Bool := wordPoison s a j || wordPoison s b j
    let all (_ : Nat) : Bool := anyPoison s a || anyPoison s b
    let sh := min (s.reg (vecQ e)).val.toNat L
    gives .vand 2 act (fun i => x i &&& y i) pab ∧ gives .vor 2 act (fun i => x i ||| y i) pab
    ∧ gives .vxor 2 act (fun i => x i ^^^ y i) pab ∧ gives .vmov 2 act x (wordPoison s a)
    ∧ gives .vsel 2 (fun i => decide (i < s.me.vl))
        (fun i => if (s.me.kmask k.toNat).getLsbD (if w = 8 then i / 2 else i) then x i else y i) pab
    ∧ gives .vperm 3 act (fun i => if y i < L then x (y i) else 0) all
    ∧ gives .vslide 3 act (fun i => if i + sh < L then x (i + sh) else y (i + sh - L)) all
    ∧ gives .vcmpr 3 (fun _ => true) (fun i => ((activeOf s k w).map x).getD i 0) (fun _ => anyPoison s a)
    ∧ GivesLanes s (vecInstr st .vcnt d a b k t e) (vecLen e) 3 (· = .none)
        (Lanes s d 32 (fun _ => true) (fun i r => r = if i = 0 then (activeOf s k w).length else 0) fun _ => vecTaint s k e) st

/-- Compares, reductions, scans and histograms of integer lanes (R310, R314, R315, R316, R319). -/
def Sys2Proof.Spec.VectorFolds : Prop :=
  ∀ (s : State) (st : Stall) (d a b : VReg) (k : KReg) (t : BitVec 2) (e : Option VExt), s.Quiet → NoPointers e →
    let vt := vecType t e
    let w := laneSize vt
    let x (i : Nat) : Int := asTyped vt w (lane s a w i)
    let y (i : Nat) : Int := asTyped vt w (lane s b w i)
    let q := (s.reg (vecQ e)).val.toNat
    vt ∈ [2, 3, 5, 6] →
    let act := activeOf s k w
    let lo : Int := if signedType vt then -2 ^ (w - 1) else 0
    let hi : Int := if signedType vt then 2 ^ (w - 1) - 1 else 2 ^ w - 1
    let one (op : VecOp) (lw : Nat) (v : Int) : Prop := GivesLanes s (vecInstr st op d a b k t e) (vecLen e) 3 (· = .none)
      (Lanes s d lw (fun _ => true) (fun i r => (r : Int) = if i = 0 then v % 2 ^ lw else 0)
        fun _ => vecTaint s k e || anyPoison s a) st
    let cmp (op : VecOp) (rel : Nat → Prop) : Prop := ∃ m p ws, exec (vecInstr st op d a b k t e) s
        = .next (s.issued st (vecLen e) .none [(2, ws)])
      ∧ ws = (if d.toNat % 8 = 0 then [] else [⟨.mask (d.toNat % 8), ⟨m, p⟩, 2 ^ 32 - 1⟩])
      ∧ (∀ i, i < 32 → (m.getLsbD i = true ↔ i < 512 / w ∧ active s k w i = true ∧ rel i))
      ∧ (p = true ↔ vecTaint s k e = true ∨ ∃ i ∈ act, wordPoison s a (i * w / 64) = true ∨ wordPoison s b (i * w / 64) = true)
    let G := max 1 (512 / w / 2 ^ (q / 16 % 8))
    let upTo (i : Nat) : List Int := (act.filter fun j => decide (j / G = i / G) && decide (j ≤ i)).map x
    let scan (f : List Int → Int) : Prop := GivesLanes s (vecInstr st .vscan d a 0 k t e) (vecLen e) 3 (· = .none)
      (Lanes s d w (active s k w) (fun i r => (r : Int) = f (upTo i) % 2 ^ w) fun _ => vecTaint s k e || anyPoison s a) st
    cmp .vcmpeq (fun i => x i = y i) ∧ cmp .vcmplt (fun i => x i < y i) ∧ cmp .vcmple (fun i => x i ≤ y i)
    ∧ one .vredadd 32 (act.map x).sum ∧ one .vredmax w ((act.map x).foldl max lo) ∧ one .vredmin w ((act.map x).foldl min hi)
    ∧ ((∀ z, e = some z → z.vc = 0) →
        (q % 4 = 0 → scan List.sum) ∧ (q % 4 = 1 → scan (List.foldl max lo)) ∧ (q % 4 = 2 → scan (List.foldl min hi)))
    ∧ (let n := q % 16 % (w / 4)
       GivesLanes s (vecInstr st .vhist d a b k t e) (vecLen e) 3 (· = .none)
         (Lanes s d 32 (fun _ => true) (fun i r => r = (act.filter fun j =>
            decide (lane s a w j / 2 ^ (4 * n) % 16 = i)
              && decide (lane s a w j / 2 ^ (4 * (n + 1)) = q / 2 ^ 32 % 2 ^ w / 2 ^ (4 * (n + 1)))).length)
          fun _ => vecTaint s k e || anyPoison s a) st)

/-- The floating-point vector operations on lanes of F32, B16 and F16: each active lane takes what the scalar operation gives in its
format, and the flags are those of the active lanes (R92, R93, R302, R307, R308, R318). -/
def Sys2Proof.Spec.VectorFloatArithmetic : Prop :=
  ∀ (s : State) (st : Stall) (d a b : VReg) (k : KReg) (t : BitVec 2) (e : Option VExt) (eb fb : Nat), s.Quiet → NoPointers e →
    (vecType t e, eb, fb) ∈ [(0, 8, 23), (1, 8, 7), (4, 5, 10)] →
    let w := 1 + eb + fb
    let x := lane s a w
    let y := lane s b w
    let z := lane s d w
    let pab (j : Nat) : Bool := wordPoison s a j || wordPoison s b j
    let gives (op : VecOp) (R : Nat → Nat → Flags → Prop) (p : Nat → Bool) : Prop := ∃ g : Nat → Flags,
      GivesLanes s (vecInstr st op d a b k t e) (vecLen e) 2 (FlagsOver (activeOf s k w) g)
        (Lanes s d w (active s k w) (fun i r => R i r (g i)) fun j => vecTaint s k e || p j) st
    let bits (op : VecOp) (D : Nat) (v : Nat → Nat) (p : Nat → Bool) : Prop :=
      GivesLanes s (vecInstr st op d a b k t e) (vecLen e) D (· = .none)
        (Lanes s d w (active s k w) (fun i r => r = v i) fun j => vecTaint s k e || p j) st
    let nan (x y : Nat) : Prop := isNan eb fb x = true ∨ isNan eb fb y = true
    gives .vadd (fun i => SumGives eb fb (x i) (y i)) pab
    ∧ gives .vsub (fun i => SumGives eb fb (x i) (minusOf eb fb (y i))) pab
    ∧ gives .vmul (fun i => ProductGives eb fb (x i) (y i)) pab
    ∧ gives .vfma (fun i => FmaGives eb fb (x i) (y i) (z i)) (fun j => pab j || wordPoison s d j)
    ∧ bits .vmin 2 (fun i => if nan (x i) (y i) then nanOf eb fb else if below eb fb (y i) (x i) then y i else x i) pab
    ∧ bits .vmax 2 (fun i => if nan (x i) (y i) then nanOf eb fb else if below eb fb (x i) (y i) then y i else x i) pab
    ∧ bits .vabs 2 (fun i => if isNan eb fb (x i) then nanOf eb fb else x i % 2 ^ (eb + fb)) (wordPoison s a)
    ∧ bits .vneg 2 (fun i => if isNan eb fb (x i) then nanOf eb fb else minusOf eb fb (x i)) (wordPoison s a)
    ∧ bits .vkey 3 (fun i => if isNan eb fb (x i) then 0
        else (2 ^ (eb + fb) + order eb fb (x i) - (if order eb fb (x i) < 0 then 1 else 0)).toNat) (wordPoison s a)

/-- The float compares, reductions and thresholded sums, on lanes of F32, B16 and F16: compares are by value, VREDADD and VSUMGT sum
exactly and round once to F32, VREDMAX and VREDMIN give a lane none is above or below (R92, R93, R310, R314, R320). -/
def Sys2Proof.Spec.VectorFloatFolds : Prop :=
  ∀ (s : State) (st : Stall) (d a b : VReg) (k : KReg) (t : BitVec 2) (e : Option VExt) (eb fb : Nat), s.Quiet → NoPointers e →
    (vecType t e, eb, fb) ∈ [(0, 8, 23), (1, 8, 7), (4, 5, 10)] →
    let w := 1 + eb + fb
    let x := lane s a w
    let y := lane s b w
    let act := activeOf s k w
    let num (c : Nat) : Prop := isNan eb fb c = false
    let cmp (op : VecOp) (quiet : Bool) (rel : Int → Int → Prop) : Prop := ∃ m p ws fl, exec (vecInstr st op d a b k t e) s
        = .next (s.issued st (vecLen e) fl [(2, ws)])
      ∧ ws = (if d.toNat % 8 = 0 then [] else [⟨.mask (d.toNat % 8), ⟨m, p⟩, 2 ^ 32 - 1⟩])
      ∧ (∀ i, i < 32 → (m.getLsbD i = true ↔
          i < 512 / w ∧ active s k w i = true ∧ num (x i) ∧ num (y i) ∧ rel (order eb fb (x i)) (order eb fb (y i))))
      ∧ (p = true ↔ vecTaint s k e = true ∨ ∃ i ∈ act, wordPoison s a (i * w / 64) = true ∨ wordPoison s b (i * w / 64) = true)
      ∧ fl.of_ = false ∧ fl.uf = false ∧ fl.nx = false ∧ (fl.nv = true ↔ quiet = false ∧ ∃ i ∈ act, ¬ num (x i) ∨ ¬ num (y i))
    let whole (op : VecOp) (lw : Nat) (v : Nat → Nat → Prop) (F : Flags → Prop) : Prop :=
      GivesLanes s (vecInstr st op d a b k t e) (vecLen e) 3 F
        (Lanes s d lw (fun _ => true) v fun _ => vecTaint s k e || anyPoison s a) st
    let extreme (op : VecOp) (none_ : Nat) (beats : Nat → Nat → Bool) : Prop :=
      whole op w (fun i r => (i ≠ 0 → r = 0) ∧ (i = 0 →
        ((∃ j ∈ act, ¬ num (x j)) → r = nanOf eb fb)
        ∧ ((∀ j ∈ act, num (x j)) → (act = [] → r = none_)
            ∧ (act ≠ [] → (∃ j ∈ act, r = x j) ∧ ∀ j ∈ act, beats (x j) r = false)))) (· = .none)
    let sums (op : VecOp) (sel : List Nat) (rest : Nat → Nat) : Prop := ∃ c fl,
      whole op 32 (fun i r => r = if i = 0 then c else rest i) (· = fl)
      ∧ ((∃ i ∈ sel, ¬ num (x i)) → c = nan32 ∧ fl = .none)
      ∧ ((∀ i ∈ sel, num (x i)) → (∃ i ∈ sel, x i = infOf eb fb) → (∃ i ∈ sel, x i = infOf eb fb + 2 ^ (eb + fb)) →
          c = nan32 ∧ fl = .invalid)
      ∧ ((∀ i ∈ sel, num (x i)) → (∃ i ∈ sel, x i = infOf eb fb) → (∀ i ∈ sel, x i ≠ infOf eb fb + 2 ^ (eb + fb)) →
          c = 0x7F800000 ∧ fl = .none)
      ∧ ((∀ i ∈ sel, num (x i)) → (∃ i ∈ sel, x i = infOf eb fb + 2 ^ (eb + fb)) → (∀ i ∈ sel, x i ≠ infOf eb fb) →
          c = 0xFF800000 ∧ fl = .none)
      ∧ ((∀ i ∈ sel, finite eb fb (x i) = true) → let q := (sel.map fun i => value eb fb (x i)).sum
          RoundedTo32 q c ∧ RoundingFlags32 q c fl
          ∧ (q = 0 → c = if sel ≠ [] ∧ ∀ i ∈ sel, x i = 2 ^ (eb + fb) then 2 ^ 31 else 0))
    let T := (s.reg (vecQ e)).val.toNat % 2 ^ 32
    let above (i : Nat) : Bool := !isNan eb fb (x i) && !isNan 8 23 T
      && (if finite eb fb (x i) then (if finite 8 23 T then decide (value32 T < value eb fb (x i)) else negative 8 23 T)
          else !negative eb fb (x i) && T != 0x7F800000)
    cmp .vcmpeq true (· = ·) ∧ cmp .vcmplt false (· < ·) ∧ cmp .vcmple false (· ≤ ·)
    ∧ extreme .vredmax (infOf eb fb + 2 ^ (eb + fb)) (fun v r => below eb fb r v) ∧ extreme .vredmin (infOf eb fb) (below eb fb)
    ∧ sums .vredadd act (fun _ => 0)
    ∧ sums .vsumgt (act.filter above) (fun i => if i = 1 then (act.filter above).length else 0)

/-- VSCAN on float lanes: ADD rounds once at each step in the lane's format, MAX and MIN follow VMAX and VMIN, each segment
from its own start; AFFINE composes (a, b) pairs of F32 lanes and applies them to the state that enters the segment, and for another
element type leaves the register and sets FNV; a NaN that it writes is canonical (R92, R133, R315, R316, R317). -/
def Sys2Proof.Spec.VectorFloatScans : Prop :=
  ∀ (s : State) (st : Stall) (d a b : VReg) (k : KReg) (t : BitVec 2) (e : Option VExt) (eb fb : Nat), s.Quiet → NoPointers e →
    (vecType t e, eb, fb) ∈ [(0, 8, 23), (1, 8, 7), (4, 5, 10)] →
    let w := 1 + eb + fb
    let x := lane s a w
    let y := lane s b w
    let act := activeOf s k w
    let q := (s.reg (vecQ e)).val.toNat
    let G := max 1 (512 / w / 2 ^ (q / 16 % 8))
    let seg (i : Nat) : List Nat := act.filter fun j => decide (j / G = i / G) && decide (j ≤ i)
    let prev (i : Nat) : Option Nat := (act.filter fun j => decide (j / G = i / G) && decide (j < i)).getLast?
    let scan (R : Nat → Nat → Prop) (F : Flags → Prop) : Prop :=
      GivesLanes s (vecInstr st .vscan d a 0 k t e) (vecLen e) 3 F
        (Lanes s d w (active s k w) R fun _ => vecTaint s k e || anyPoison s a) st
    let num (c : Nat) : Prop := isNan eb fb c = false
    let extreme (beats : Nat → Nat → Bool) : Prop := scan (fun i r =>
      ((∃ j ∈ seg i, ¬ num (x j)) → r = nanOf eb fb)
      ∧ ((∀ j ∈ seg i, num (x j)) → (∃ j ∈ seg i, r = x j) ∧ ∀ j ∈ seg i, beats (x j) r = false)) (· = .none)
    ((∀ z, e = some z → z.vc = 0) →
      (q % 4 = 0 → ∃ (v : Nat → Nat) (g : Nat → Flags), scan (fun i r => r = v i) (FlagsOver act g)
        ∧ ∀ i ∈ act, match prev i with
          | none => v i = (if isNan eb fb (x i) then nanOf eb fb else x i) ∧ g i = .none
          | some j => SumGives eb fb (v j) (x i) (v i) (g i))
      ∧ (q % 4 = 1 → extreme fun v r => below eb fb r v) ∧ (q % 4 = 2 → extreme (below eb fb)))
    ∧ (q % 4 = 3 → vecType t e ≠ 0 → ∃ ws, exec (vecInstr st .vscan d a b k t e) s
        = .next (s.issued st (vecLen e) .invalid [(3, ws)]) ∧ ∀ u ∈ ws, u.bits = 0)
    ∧ (∀ z, e = some z → q % 4 = 3 → vecType t e = 0 → ∃ (A B v : Nat → Nat),
        GivesLanes s (vecInstr st .vscan d a b k t e) (vecLen e) 3 (fun _ => True)
          (Lanes s d 32 (active s k 32) (fun i r => r = v i)
            fun _ => vecTaint s k e || anyPoison s a || anyPoison s b || anyPoison s z.vc) st
        ∧ ∀ i ∈ act,
          let A' := match prev i with | none => 0x3F800000 | some j => A j
          let B' := match prev i with | none => 0 | some j => B j
          let h := lane s z.vc 32 (i / G * G + G - 1)
          (x i % 2 ^ 31 = 0 → A i = x i ∧ B i = y i)
          ∧ (x i % 2 ^ 31 ≠ 0 → ∃ f f', ProductGives 8 23 (x i) A' (A i) f ∧ FmaGives 8 23 (x i) B' (y i) (B i) f')
          ∧ (A i % 2 ^ 31 = 0 → v i = if isNan 8 23 (B i) then nan32 else B i) ∧ (A i % 2 ^ 31 ≠ 0 → ∃ f, FmaGives 8 23 (A i) h (B i) (v i) f))

/-- The vector conversions: F32 lane i and narrow element 16 × PART + i, active where mask bit i is set and the element lies
below VL. A narrowing rounds as RM names and overflows as SAT says, a widening is exact, the F4 pairs are scaled by the byte of q; the
flags are those of the active elements, and a result word takes the poison of the source words of its elements, of q and of the mask.
That an F4 element times its scale beyond F32 becomes an infinity with FOF and FNX is the model's choice, log entry 36 (R90, R91, R93, R96, R97, R304, R321, R322). -/
def Obligations.VectorConversions : Prop :=
  ∀ (s : State) (st : Stall) (d a : VReg) (k : KReg) (part : VReg) (e : Option VExt), s.Quiet → NoPointers e →
    let P := part.toNat
    let on (i : Nat) : Bool := (s.me.kmask k.toNat).getLsbD i && decide (i < 16) && decide (16 * P + i < s.me.vl)
    let act := (List.range 16).filter on
    let x := lane s a 32
    let rm : BitVec 2 := match e with | none => 0 | some z => z.rm
    let sat : Bool := match e with | none => false | some z => z.sat
    let scale (i : Nat) : Nat := (s.reg (vecQ e)).val.toNat / 2 ^ (8 * ((16 * P + i) / 32)) % 256
    let poison (dst src dw sw : Nat → Nat) (j : Nat) : Bool := vecTaint s k e
      || act.any fun i => dst i * dw 0 / 64 == j && wordPoison s a (src i * sw 0 / 64)
    let narrows (op : VecOp) (w : Nat) (R : Nat → Nat → Nat → Flags → Prop) : Prop := 16 * P + 16 ≤ 512 / w → ∃ g : Nat → Flags,
      GivesLanes s (vecInstr st op d a part k 0 e) (vecLen e) 2 (FlagsOver act g)
        (Lanes s d w (fun n => decide (16 * P ≤ n) && on (n - 16 * P)) (fun n r => R (n - 16 * P) (x (n - 16 * P)) r (g (n - 16 * P)))
          (poison (16 * P + ·) id (fun _ => w) (fun _ => 32))) st
    let widens (op : VecOp) (w : Nat) (R : Nat → Nat → Nat → Flags → Prop) : Prop := 16 * P + 16 ≤ 512 / w → ∃ g : Nat → Flags,
      GivesLanes s (vecInstr st op d a part k 0 e) (vecLen e) 2 (FlagsOver act g)
        (Lanes s d 32 on (fun i r => R i (lane s a w (16 * P + i)) r (g i))
          (poison id (16 * P + ·) (fun _ => 32) (fun _ => w))) st
    narrows .cvtB16F32 16 (fun _ => ConvertsTo 1 rm sat 0) ∧ narrows .cvtF16F32 16 (fun _ => ConvertsTo 2 rm sat 0)
    ∧ narrows .cvtE4F32 8 (fun _ => ConvertsTo 3 rm sat 0) ∧ narrows .cvtE5F32 8 (fun _ => ConvertsTo 4 rm sat 0)
    ∧ narrows .cvtM8F32 8 (fun _ => ConvertsTo 5 rm sat 0)
    ∧ narrows .cvtF4F32 4 (fun i x r fl => if scale i = 255 then r = 0 ∧ fl = .invalid
        else ConvertsTo 6 rm sat ((scale i : Int) - 127) x r fl)
    ∧ widens .cvtF32B16 16 (fun _ => Widened 1 0) ∧ widens .cvtF32F16 16 (fun _ => Widened 2 0)
    ∧ widens .cvtF32E4 8 (fun _ => Widened 3 0) ∧ widens .cvtF32E5 8 (fun _ => Widened 4 0)
    ∧ widens .cvtF32M8 8 (fun _ => Widened 5 0)
    ∧ widens .cvtF32F4 4 (fun i c r fl => if scale i = 255 then r = nan32 ∧ fl = .none
        else Widened 6 ((scale i : Int) - 127) c r fl)
    ∧ narrows .cvtS32F32 32 (fun _ x r fl => (isNan 8 23 x = true → r = 0 ∧ fl = .invalid)
        ∧ (x % 2 ^ 31 = 0x7F800000 → r = (if negative 8 23 x then 2 ^ 31 else 2 ^ 31 - 1) ∧ fl = .invalid)
        ∧ (finite 8 23 x = true → let n := roundTo rm (value32 x)
            asSigned 32 r = max (-2 ^ 31) (min (2 ^ 31 - 1) n)
            ∧ fl = if n < -2 ^ 31 ∨ 2 ^ 31 - 1 < n then .invalid else ⟨false, false, false, decide ((n : ℚ) ≠ value32 x)⟩))
    ∧ widens .cvtF32S32 32 (fun _ c => IntConverts rm (asSigned 32 c))

/-- VEXP, VLOG2, VRCP and VRSQ. VEXP carries out the procedure of R101 in each active lane, each step rounded once; VRCP is the
quotient and VRSQ the reciprocal root, rounded once; log2 of a power of two is its exponent; the special inputs follow their table;
the flags are those of the active lanes (R93, R101, R205, R323). -/
def Obligations.VectorFunctions : Prop :=
  ∀ (s : State) (st : Stall) (d a : VReg) (k : KReg) (e : Option VExt), s.Quiet → NoPointers e →
    let x := lane s a 32
    let gives (op : VecOp) (D : Nat) (R : Nat → Nat → Flags → Prop) : Prop := ∃ g : Nat → Flags,
      GivesLanes s (vecInstr st op d a 0 k 0 e) (vecLen e) D (FlagsOver (activeOf s k 32) g)
        (Lanes s d 32 (active s k 32) (fun i r => R (x i) r (g i)) fun j => vecTaint s k e || wordPoison s a j) st
    let pos (c : Nat) : Prop := finite 8 23 c = true ∧ 0 < value32 c
    let below0 (c : Nat) : Prop := c = 0xFF800000 ∨ (finite 8 23 c = true ∧ value32 c < 0)
    gives .vexp (if s.pkg.xsplit.toNat % 32 ≤ 8 then 4 else 5) ExpGives
    ∧ gives .vlog2 4 (fun c r fl => (isNan 8 23 c = true → r = nan32 ∧ fl = .none) ∧ (c = 0x7F800000 → r = c ∧ fl = .none)
      ∧ (c % 2 ^ 31 = 0 → r = 0xFF800000 ∧ fl = .none) ∧ (below0 c → r = nan32 ∧ fl = .invalid)
      ∧ ∀ n : Int, pos c → value32 c = (2 : ℚ) ^ n → finite 8 23 r = true ∧ value32 r = n ∧ fl = .none)
    ∧ gives .vrcp 4 (fun c r fl => (isNan 8 23 c = true → r = nan32 ∧ fl = .none)
      ∧ (c % 2 ^ 31 = 0x7F800000 → r = c - 0x7F800000 ∧ fl = .none)
      ∧ (c % 2 ^ 31 = 0 → r = c + 0x7F800000 ∧ fl = .none)
      ∧ (finite 8 23 c = true → value32 c ≠ 0 → RoundedTo32 (1 / value32 c) r ∧ RoundingFlags32 (1 / value32 c) r fl))
    ∧ gives .vrsq 4 (fun c r fl => (isNan 8 23 c = true → r = nan32 ∧ fl = .none) ∧ (c = 0x7F800000 → r = 0 ∧ fl = .none)
      ∧ (c % 2 ^ 31 = 0 → r = c + 0x7F800000 ∧ fl = .none) ∧ (below0 c → r = nan32 ∧ fl = .invalid)
      ∧ (pos c → pos r ∧ ((value32 (r - 1) + value32 r) / 2) ^ 2 * value32 c ≤ 1
          ∧ 1 ≤ ((value32 r + value32 (r + 1)) / 2) ^ 2 * value32 c
          ∧ fl = ⟨false, false, false, decide (value32 r ^ 2 * value32 c ≠ 1)⟩))

/-- TBLSET loads the slot's table from its image, valid where lo and hi are finite and lo < hi; VTLI gives the end knots outside
[lo, hi], interpolates exactly and rounds once between finite knots, and gives a NaN with FNV from an invalid table; SETVL sets
VL, at most 128, for the instructions that follow (R306, R325, R327). -/
def Sys2Proof.Spec.TablesAndLengths : Prop :=
  ∀ (s : State) (st : Stall), s.Quiet →
    (∀ (a : Reg) (p : Nat), s.Clean [a] → s.me.pend = [] → s.ptrTarget (s.reg a).val 272 .read = .ok p → p % 8 = 0 →
      let ws := (List.range 68).map fun j => BitVec.ofNat 32 (leValue s.mem (p + 4 * j) 4)
      let lo := leValue s.mem p 4
      let hi := leValue s.mem (p + 4) 4
      let ok := finite 8 23 lo && finite 8 23 hi && decide (value32 lo < value32 hi)
      ∃ t, exec (.tblset st a) s = .next t ∧ OnlySlot s t ∧ t.me.table = (if ok then some ws else none)
        ∧ (t.me.tablePoison = true ↔ ∃ j, j < 34 ∧ (s.word (p + 8 * j)).poison = true)
        ∧ (s.me.act = false → s.me.NoLoop → t.me.pc = s.me.pc + 4))
    ∧ (∀ (d a : VReg) (k : KReg) (e : Option VExt), NoPointers e →
      let x := lane s a 32
      let gives (F : Flags → Prop) (R : Nat → Nat → Prop) : Prop :=
        GivesLanes s (vecInstr st .vtli d a 0 k 0 e) (vecLen e) 4 F (Lanes s d 32 (active s k 32) (fun i r => R (x i) r)
          fun j => vecTaint s k e || s.me.tablePoison || wordPoison s a j) st
      (s.me.table = none → gives (fun fl => fl.nv = true ↔ activeOf s k 32 ≠ []) (fun _ r => r = nan32))
      ∧ (∀ ws, s.me.table = some ws → ws.length = 68 →
        let at_ (n : Nat) : Nat := (ws.getD n 0).toNat
        let lo := value32 (at_ 0)
        let hi := value32 (at_ 1)
        finite 8 23 (at_ 0) = true → finite 8 23 (at_ 1) = true → lo < hi →
        gives (fun _ => True) (fun c r => (isNan 8 23 c = true → r = nan32)
          ∧ (finite 8 23 c = true → value32 c ≤ lo → finite 8 23 (at_ 2) = true → value32 (at_ 2) ≠ 0 → r = at_ 2)
          ∧ (finite 8 23 c = true → hi ≤ value32 c → finite 8 23 (at_ 66) = true → value32 (at_ 66) ≠ 0 → r = at_ 66)
          ∧ (finite 8 23 c = true → lo < value32 c → value32 c < hi →
              let u := (value32 c - lo) * 64 / (hi - lo)
              let j := min ⌊u⌋.toNat 63
              let v := value32 (at_ (j + 2))
              let v' := value32 (at_ (j + 3))
              finite 8 23 (at_ (j + 2)) = true → finite 8 23 (at_ (j + 3)) = true →
              RoundedTo32 (v + (u - j) * (v' - v)) r))))
    ∧ (∀ (d a : Reg), s.Clean [a] →
      let n := min (s.reg a).val.toNat 128
      ∃ t, exec (.setvl st d a) s = .next t ∧ OnlySlot s t ∧ t.me.vl = n
        ∧ t.me.pend = s.me.pend ++ (if d = 0 then [] else [⟨2, s.wr d (BitVec.ofNat 64 n) false⟩]))

/-- Pointer operands: the source is the line at the address register, the destination line takes the result and its tags, and each
address register named rises by 64 once, at distance 1; a destination in the slot's own workspace takes the result before the next
instruction issues, any other at distance 2 (R163, R251, R304). -/
def Sys2Proof.Spec.PointerOperands : Prop :=
  ∀ (s : State) (st : Stall) (d a : VReg) (p p' : Nat) (vc : BitVec 5), s.me.pend = [] → PlainMemory s →
    let rd : Reg := 56 + d.setWidth 6
    let ra : Reg := 56 + a.setWidth 6
    s.Clean [rd, ra] → 16 ≤ s.me.vl → s.ptrTarget (s.reg ra).val 64 .read = .ok p →
    let word (j : Nat) : Tagged := s.word (p + 8 * j)
    let line (dst : Nat → Dest) (ws : List WordWrite) : Prop := ws = (List.range 8).map fun j =>
      ⟨dst j, word j, BitVec.allOnes 64⟩
    let inc (r : Reg) : List WordWrite := s.wr r ((s.reg r).val + 64) false
    let stores (incs : List WordWrite) : Prop := ∃ ws, line (fun j => .line (p' + 8 * j)) ws
      ∧ exec (.vectorLong st .vmov d a 0 0 2 ⟨vc, 0, true, true, false, 0, false, 0⟩) s
        = .next (if s.selfAlias p' then
            (((s.inFlight [(1, incs)]).landAll s.cur.1 s.cur.2 ws).addFlags .none).retire st 8
          else s.issued st 8 .none [(2, ws), (1, incs)])
    (∃ ws, exec (.vectorLong st .vmov d a 0 0 2 ⟨vc, 0, false, true, false, 0, false, 0⟩) s
        = .next (s.issued st 8 .none [(2, ws), (1, inc ra)]) ∧ line (fun j => .word (s.vregAddr s.cur.1 s.cur.2 d + 8 * j)) ws)
    ∧ (s.ptrTarget (s.reg rd).val 64 .write = .ok p' → stores (if rd = ra then inc rd else inc rd ++ inc ra))

/-! ### Matrix -/

/-- An MMA whose class, sources, descriptors and scale offsets are in order enters its core's queue in the slot's round, with
its operands as read; the increments land at distance 1, and with SK = 1 and EN = 1 it takes its skip words and BASE and LEN
move on (R329, R331, R332, R333, R339, R343). -/
def Sys2Proof.Spec.MatrixIssue : Prop :=
  ∀ (s : State) (st : Stall) (a b q : Reg) (set ia ib sk te : Bool) (r : Round), s.Quiet →
    s.Clean ([a, a + 1, b, b + 1] ++ if q = 0 then [] else [q]) →
    (s.core s.cur.1).round = some r → r.slot = s.cur.2 → (s.core s.cur.1).matrix.length < 4 →
    let c := s.cur.1
    let A := ((s.reg a).val, (s.reg (a + 1)).val)
    let W := ((s.reg b).val, (s.reg (b + 1)).val)
    let Q := (s.reg q).val
    let rows := 8 * (32 / (s.gangOf c).length)
    let desc (d : Word × Word) (bytes lines size : Nat) : Prop := PairInOrder d bytes
      ∧ d.1.toNat + (lines - 1) * (d.2.toNat % 2 ^ 16) + (bytes + 63) / 64 * 64 ≤ size
    let scale (o bytes size : Nat) : Prop := o % 64 = 0 ∧ o + bytes ≤ size
    let sw := s.me.cbWord cbSk
    let issues (i : Instr) (pair k aBytes wBytes : Nat) (sa sb : Bool) : Prop :=
      Site.isQ c = decide (pair = 5) → desc A aBytes rows 0x10000 → desc W wBytes 16 0x18000 →
      (q ≠ 0 → sa = true → scale (Q.toNat / 2 ^ 32 % 2 ^ 16) ((4 * rows + 63) / 64 * 64) 0x10000) →
      (q ≠ 0 → sb = true → scale (Q.toNat % 2 ^ 17) 64 0x18000) →
      ∃ t skip, exec i s = .next t
        ∧ (t.core c).matrix = (s.core c).matrix
            ++ [{ MatEntry.queued s.cur.2 (.mma pair A W (if q = 0 then none else some Q) set te skip) s.me.wp with
                step := r.issued, round := r.opened, gtmo := r.gtmo }]
        ∧ (t.core c).round = some { r with issued := r.issued + 1 } ∧ t.mem = s.mem ∧ t.poison = s.poison
        ∧ (∀ c' i', (c', i') ≠ s.cur → t.slot c' i' = s.slot c' i')
        ∧ t.me.pend = s.me.pend ++ (if (inc A a ia s ++ inc W b ib s).isEmpty then []
            else [⟨1, inc A a ia s ++ inc W b ib s⟩])
        ∧ (s.me.act = false → s.me.NoLoop → t.me.pc = s.me.pc + 8)
        ∧ (sk = false ∨ sw.getLsbD 0 = false → skip = [] ∧ t.me.cbWord cbSk = sw)
        ∧ (sk = true → sw.getLsbD 0 = true → (k + 63) / 64 ≤ sw.toNat / 2 ^ 16 % 1024 →
            skip = (List.range ((k + 63) / 64)).map (fun n =>
              (s.word (bufAddr c .sl (8 * ((sw.toNat / 8 + n) % 512)))).val)
            ∧ fieldOf (t.me.cbWord cbSk) 3 9 = (sw.toNat / 8 + (k + 63) / 64) % 512
            ∧ fieldOf (t.me.cbWord cbSk) 16 10 = sw.toNat / 2 ^ 16 % 1024 - (k + 63) / 64)
    issues (.mmaBB st a b q set ia ib sk te) 0 32 64 64 false false
    ∧ issues (.mmaEE st a b q set ia ib sk te) 1 64 64 64 true true
    ∧ issues (.mmaEF st a b q set ia ib sk te) 2 64 64 32 true true
    ∧ issues (.mmaMM st a b q set ia ib sk te) 3 64 64 64 false false
    ∧ issues (.mmaBF st a b q set ia ib sk te) 4 32 128 32 false true
    ∧ issues (.mmaFF st a b q set ia ib sk te) 5 128 64 64 true true

/-- MZERO, MOUT, SKSET and GANG: the first two enter the matrix queue, MOUT with its destination words emptied and held; SKSET
writes SK; in a gang of one, GANG opens a round with the slot's GTMO, closing the one before it, once every step issued has started;
until then it waits, uncounted, with its GTMO running where the steps are another slot's (R71, R334, R339, R342, R344, R345). -/
def Sys2Proof.Spec.MatrixControl : Prop :=
  ∀ (s : State) (st : Stall) (d q : Reg) (set sat incd : Bool) (ot : BitVec 3) (rm : BitVec 2) (base : BitVec 9)
    (len : BitVec 10), s.Quiet → s.cur.1 < 4096 → (s.core s.cur.1).matrix.length < 4 →
    let c := s.cur.1
    let D := ((s.reg d).val, (s.reg (d + 1)).val)
    let bytes := 16 * (if ot = 0 then 32 else if ot = 1 ∨ ot = 2 then 16 else 8) / 8
    let moves (t : State) : Prop := (s.me.act = false → s.me.NoLoop → t.me.pc = s.me.pc + 8)
      ∧ ∀ c' i', (c', i') ≠ s.cur → t.slot c' i' = s.slot c' i'
    (∃ t, exec (.mzero st set) s = .next t ∧ moves t ∧ t.mem = s.mem
      ∧ (t.core c).matrix = (s.core c).matrix ++ [MatEntry.queued s.cur.2 (.zero set) s.me.wp])
    ∧ (s.Clean ([d, d + 1] ++ if q = 0 then [] else [q]) → PairInOrder D bytes →
        D.1.toNat + 255 * (D.2.toNat % 2 ^ 16) + 64 ≤ 0x10000 →
        ∃ t, exec (.mout st d q set ot rm sat incd) s = .next t ∧ moves t ∧ t.mem = s.mem ∧ t.poison = s.poison
          ∧ (t.core c).matrix = (s.core c).matrix ++ [MatEntry.queued s.cur.2 (.out D set ot.toNat rm.toNat sat
              (if q = 0 then 0x7F else (s.reg q).val.toNat % 256)) s.me.wp]
          ∧ (∀ r j, r < 256 → j < bytes / 8 →
              let a := bufAddr c .a (D.1.toNat + r * (D.2.toNat % 2 ^ 16) + 8 * j)
              t.isFull a = false ∧ t.isHeld a = true)
          ∧ t.me.pend = s.me.pend ++ (if (inc D d incd s).isEmpty then [] else [⟨1, inc D d incd s⟩]))
    ∧ (∃ t, exec (.skset st base len) s = .next t ∧ OnlySlot s t ∧ (s.me.act = false → s.me.NoLoop → t.me.pc = s.me.pc + 8)
        ∧ t.me.cbWord cbSk = BitVec.ofNat 64 (len.toNat * 2 ^ 16 + base.toNat * 8 + if len = 0 then 0 else 1))
    ∧ ((s.core c).placed = none → s.me.pend = [] → (∀ j, (s.slot c j).wait = none) →
        let waits (w : Wait) : Prop := ∃ t, exec (.gang st) s = .next t ∧ t.mem = s.mem ∧ t.me.state = .parked ∧ t.me.wait = some w
          ∧ (t.core c).round = (s.core c).round
        ((∀ e ∈ (s.core c).matrix, MatOp.isMma e.op = true → e.started ≠ none) →
          ∃ t, exec (.gang st) s = .next t ∧ moves t ∧ t.mem = s.mem ∧ t.me.state = .ready
            ∧ (t.core c).round = some ⟨s.cur.2, s.me.gtmo, 0, s.cyc⟩)
        ∧ ∀ e rest, (s.core c).matrix = e :: rest → MatOp.isMma e.op = true → e.started = none →
          (e.slot = s.cur.2 → waits (.matrix .started))
          ∧ (e.slot ≠ s.cur.2 → waits (.barrier .gang (s.cyc + s.me.gtmo) s.me.gtmo [] 8)))

/-- The steps of a gang of one (R98 to R100, R116, R329 to R332, R335 to R339, R343). The queue's next MMA starts. A step of any
format pair whose occupancy of 256 cycles, beside the frozen ones, has ended leaves in every element of its set the exact sum of the
old element and the products at the positions that no skip word skips, each operand scaled by its group's byte, rounded once; a NaN
among them gives the canonical NaN; and it changes nothing outside the set. Before, it changes nothing. A line is read once, as memory
holds it then, in the order that ROT gives, and while a line of A that is fetched holds an empty word, or a view publication holds the
W port, the freeze line is raised and the occupancy waits. That a line is fetched at a free cycle of the occupancy is the model's choice,
log entry 10. -/
def Obligations.MatrixSteps : Prop :=
  ∀ (s : State) (c : Nat) (A W : Word × Word) (set : Bool) (pair : Nat) (te : Bool) (q : Option Word)
    (skip : List Word) (x : MatEntry), c < 4096 → (s.core c).placed = none → pair < 6 →
    x.op = .mma pair A W q set te skip → (s.core c).matrix = [x] →
    let bytesA := if pair = 4 then 128 else 64
    let bytesW := if pair = 2 ∨ pair = 4 then 32 else 64
    let aLine (i : Nat) : Nat := bufAddr c .a (A.1.toNat % 2 ^ 20 + i * (A.2.toNat % 2 ^ 16))
    let wLine (j : Nat) : Nat := bufAddr c .w (W.1.toNat % 2 ^ 20 + j * (W.2.toNat % 2 ^ 16))
    let fetched (n k : Nat) (d : Word × Word) (i : Nat) : Prop := i < n ∧ (i + n - d.2.toNat / 2 ^ 48 % 4 * (n / 4)) % n < k
    let running (t0 : Nat) : Prop := x.started = some t0 ∧ s.cyc < t0 + 256 + x.frozen
    (x.started = none → (s.slot c x.slot).state ≠ .halted → s.pkg.thr = false →
      ∃ t, exec (.mmaStepStart c) s = .next t ∧ exec (.matrixQueueRun c) s = .next t ∧ t.mem = s.mem
        ∧ (t.core c).matrix = [{ x with started := some s.cyc, since := some (min s.cyc (x.since.getD s.cyc)) }]
        ∧ (t.core c).round = (s.core c).round)
    ∧ (∀ t0, running t0 → exec (.mmaStepEnd c) s = .next s)
    ∧ (∀ t0, x.started = some t0 → t0 + 256 + x.frozen ≤ s.cyc → x.landed = false → PlainMemory s → NoWatcher s →
      let aRow (i : Nat) : MLine := s.stepLine c x i
      let wCol (j : Nat) : MLine := s.stepLine c x (256 + j)
      let cAt (i j : Nat) : Nat := bufAddr c .c (0x4000 * set.toNat + 64 * i + 4 * j)
      let used := (List.range (pairK pair)).filter fun p => !(skip.getD (p / 64) 0).getLsbD (p % 64)
      let aVal (i p : Nat) : Option ℚ := lineValue (pairA pair te) (aRow i) p
      let wVal (j p : Nat) : Option ℚ := lineValue (pairW pair te) (wCol j) p
      ∃ t, exec (.mmaStepEnd c) s = .next t ∧ exec (.matrixQueueRun c) s = .next t ∧ (t.core c).matrix = []
        ∧ (∀ i j, i < 256 → j < 16 → finite 8 23 (leValue s.mem (cAt i j) 4) = true →
            (∀ p ∈ used, (aVal i p).isSome = true ∧ (wVal j p).isSome = true) →
            RoundedTo32 (value32 (leValue s.mem (cAt i j) 4) + (used.map fun p => (aVal i p).getD 0 * (wVal j p).getD 0).sum)
              (leValue t.mem (cAt i j) 4))
        ∧ (∀ i j, i < 256 → j < 16 → isNan 8 23 (leValue s.mem (cAt i j) 4) = true
            ∨ (∃ p ∈ used, lineNan (pairA pair te) (aRow i) p = true ∨ lineNan (pairW pair te) (wCol j) p = true) →
            leValue t.mem (cAt i j) 4 = nan32)
        ∧ ∀ y, (y < cAt 0 0 ∨ cAt 0 0 + 0x4000 ≤ y) → mget t.mem y = mget s.mem y)
    ∧ (∀ i j, i < 256 → j < 16 → (∀ u ∈ x.lines, u.1 ≠ i ∧ u.1 ≠ 256 + j) →
        (s.stepLine c x i).raw = leValue s.mem (aLine i) bytesA ∧ (s.stepLine c x (256 + j)).raw = leValue s.mem (wLine j) bytesW
        ∧ (s.stepLine c x i).scale = (if pair = 1 ∨ pair = 2 ∨ pair = 5 then
            q.map fun v => leValue s.mem (bufAddr c .a (v.toNat / 2 ^ 32 % 2 ^ 16 + 4 * i)) 4 else none)
        ∧ (s.stepLine c x (256 + j)).scale = (if pair = 1 ∨ pair = 2 ∨ pair = 4 ∨ pair = 5 then
            q.map fun v => leValue s.mem (bufAddr c .w (v.toNat % 2 ^ 17 + 4 * j)) 4 else none))
    ∧ (∀ t0, running t0 → (s.cyc < (s.core c).portFree
          ∨ ∃ i, fetched 256 x.fetchA A i ∧ (∀ u ∈ x.lines, u.1 ≠ i) ∧ s.isFull (aLine i / 64 * 64) = false) →
      ∃ t, exec (.freeze c) s = .next t ∧ (t.core c).freeze = true ∧ t.mem = s.mem
        ∧ ((t.stepCycle c).core c).matrix = [{ x with frozen := x.frozen + 1 }])
    ∧ (∀ t0, running t0 → (s.core c).freeze = false → ∃ l, ((s.stepCycle c).core c).matrix = [{ x with lines := x.lines ++ l }]
        ∧ (∀ n, (∃ y, (n, y) ∈ l) ↔ (∀ u ∈ x.lines, u.1 ≠ n)
            ∧ (fetched 256 x.fetchA A n ∨ ∃ j, n = 256 + j ∧ fetched 16 x.fetchW W j))
        ∧ ∀ n y, (n, y) ∈ l → y = s.stepLine c x n)
    ∧ (∀ t0, running t0 → t0 + x.frozen ≤ s.cyc → (s.core c).freeze = false →
        ∃ m n, ((s.stepFetch c).core c).matrix = [{ x with fetchA := m, fetchW := n }]
          ∧ min 256 x.fetchA ≤ m ∧ m ≤ 256 ∧ min 16 x.fetchW ≤ n ∧ n ≤ 16
          ∧ (t0 + x.frozen + 255 ≤ s.cyc → m = 256 ∧ n = 16))

/-- MZERO_DONE leaves the set as zeros without poison; MOUT_DONE converts every element to its output type, divided by its scale, and
its words are full and no longer held; the flags enter the STAT of the slot that issued it, which runs on (R71, R96, R344,
R345). MATRIX_QUEUE_RUN does the same for the queue's first operation. -/
def Sys2Proof.Spec.MatrixQueueEffects : Prop :=
  ∀ (s : State) (c i : Nat) (set : Bool) (x : MatEntry), PlainMemory s → NoWatcher s → c < 4096 → (s.core c).park = [] →
    (s.core c).matrix = [x] → x.slot = i →
    let cAt (r n : Nat) : Nat := bufAddr c .c (0x4000 * set.toNat + 64 * r + n)
    (x.op = .zero set → ∃ t, exec (.mzeroDone c) s = .next t ∧ exec (.matrixQueueRun c) s = .next t
      ∧ (t.core c).matrix = [] ∧ (∀ r n, r < 256 → n < 8 → t.word (cAt r (8 * n)) = ⟨0, false⟩)
      ∧ ∀ x, (x < cAt 0 0 ∨ cAt 0 0 + 0x4000 ≤ x) → mget t.mem x = mget s.mem x)
    ∧ (∀ (D : Word × Word) (ot sc : Nat) (rm : BitVec 2) (sat : Bool), x.op = .out D set ot rm.toNat sat sc → ot < 6 → sc < 255 →
      let size := if ot = 0 then 4 else if ot ≤ 2 then 2 else 1
      D.1.toNat % 64 = 0 → D.2.toNat % 2 ^ 16 % 64 = 0 → 64 ≤ D.2.toNat % 2 ^ 16 →
      D.1.toNat + 255 * (D.2.toNat % 2 ^ 16) + 64 ≤ 0x10000 → (s.slot c i).wp = x.wp → (s.slot c i).state = .ready →
      let dAt (r n : Nat) : Nat := bufAddr c .a (D.1.toNat + r * (D.2.toNat % 2 ^ 16) + n)
      ∃ (t : State) (g : Nat → Nat → Flags), exec (.moutDone c) s = .next t ∧ exec (.matrixQueueRun c) s = .next t
        ∧ (t.core c).matrix = []
        ∧ (∀ r n, r < 256 → n < 16 →
            ConvertsTo ot rm sat ((sc : Int) - 127) (leValue s.mem (cAt r (4 * n)) 4) (leValue t.mem (dAt r (size * n)) size) (g r n))
        ∧ (∀ r n, r < 256 → n < 2 * size → t.isFull (dAt r (8 * n)) = true ∧ t.isHeld (dAt r (8 * n)) = false)
        ∧ (let has (f : Flags → Bool) : Prop := ∃ r n, r < 256 ∧ n < 16 ∧ f (g r n) = true
           let bit (b : Nat) (f : Flags → Bool) : Prop :=
             (t.slot c i).stat.getLsbD b = true ↔ (s.slot c i).stat.getLsbD b = true ∨ has f
           bit 7 (·.nv) ∧ bit 6 (·.of_) ∧ bit 5 (·.uf) ∧ bit 4 (·.nx))
        ∧ (∀ x, (∀ r, r < 256 → x < dAt r 0 ∨ dAt r 0 + 16 * size ≤ x) → mget t.mem x = mget s.mem x))

/-! ### Ports -/

/-- PUSH and PUSHV append one entry to the peer's incoming queue while it holds fewer than 4 (2) entries, and park at a full
one; POP and POPV take the oldest entry of the own queue, PEEK reads it, each with its mark; with no peer each raises NOPEER
(R217, R218, R348, R349, R350). That cores of no placement group share ports where slot 0 of both holds one context, and that wm
lands after wd, is the model's choice, log entry 27. -/
def Sys2Proof.Spec.PortTransfers : Prop :=
  ∀ (s : State) (st : Stall) (k : BitVec 3) (dir : Dir) (d b : Reg) (v : VReg) (m : Bool), s.me.pend = [] →
    Dir.ofCode k.toNat = some dir →
    let c := s.cur.1
    let i := s.cur.2
    let others (u : State) (c' i' : Nat) (d' : Dir) (w : Bool) : Prop := ∀ c2 i2 d2 w2,
      (c2, i2, d2, w2) ≠ (c', i', d', w) → u.portQueue c2 i2 d2 w2 = s.portQueue c2 i2 d2 w2
    let mark (e : PortEntry) : List WordWrite := s.wr b (if e.mark then 1 else 0) false
    let vec (e : PortEntry) : List WordWrite := (List.range 8).map fun j =>
      ⟨.word (s.vregAddr c i v + 8 * j), e.words.getD j ⟨0, false⟩, BitVec.allOnes 64⟩
    (∀ t j, s.groupPeer c i dir = some (t, j) →
      let pushes (x : Instr) (w : Bool) (words : List Tagged) : Prop := ∃ u, exec x s = .next u
        ∧ u.portQueue t j dir.opposite w = s.portQueue t j dir.opposite w ++ [⟨words, m⟩] ∧ others u t j dir.opposite w
        ∧ u.mem = s.mem ∧ u.poison = s.poison ∧ u.me.pend = [] ∧ (s.me.act = false → s.me.NoLoop → u.me.pc = s.me.pc + 4)
      let pops (x : Instr) (w keep : Bool) (ws : PortEntry → List WordWrite) : Prop := ∀ e rest,
        s.portQueue c i dir w = e :: rest → ∃ u, exec x s = .next (u.done 4 (ws e ++ mark e)) ∧ { u with cores := s.cores } = s
          ∧ u.portQueue c i dir w = (if keep then e :: rest else rest) ∧ others u c i dir w ∧ u.me = s.me
      let parks (x : Instr) (push w : Bool) : Prop := ∃ u n, exec x s = .next u ∧ u.me.state = .parked
        ∧ u.me.wait = some (.port k.toNat push w n) ∧ u.mem = s.mem ∧ ∀ c2 i2 d2 w2, u.portQueue c2 i2 d2 w2 = s.portQueue c2 i2 d2 w2
      (s.Clean [d] → (s.portQueue t j dir.opposite false).length < 4 → pushes (.push st d k m) false [s.reg d])
      ∧ (s.Clean [d] → 4 ≤ (s.portQueue t j dir.opposite false).length → parks (.push st d k m) true false)
      ∧ ((∀ x ∈ s.vreg v, x.poison = false) → (s.portQueue t j dir.opposite true).length < 2 →
          pushes (.pushv st v k m) true (s.vreg v))
      ∧ ((∀ x ∈ s.vreg v, x.poison = false) → 2 ≤ (s.portQueue t j dir.opposite true).length → parks (.pushv st v k m) true true)
      ∧ pops (.pop st d k b) false false (fun e => s.regWrite c i d (e.words.getD 0 ⟨0, false⟩))
      ∧ pops (.peek st d k b) false true (fun e => s.regWrite c i d (e.words.getD 0 ⟨0, false⟩))
      ∧ pops (.popv st v k b) true false vec
      ∧ (s.portQueue c i dir false = [] → parks (.pop st d k b) false false ∧ parks (.peek st d k b) false false))
    ∧ (s.groupPeer c i dir = none →
      let stops (x : Instr) : Prop := exec x s = .next (s.raise ⟨9, 2, wordOf dir.code, 0, .own, 3, false, false⟩)
      stops (.push st d k m) ∧ stops (.pushv st v k m) ∧ stops (.pop st d k b) ∧ stops (.popv st v k b) ∧ stops (.peek st d k b))

/-- PCFG returns the queue counts, full bits and peers of the six directions, or one peer's place; the next slot of the core is
the peer in direction LP, the one before in LM; a port wait longer than its limit raises PORT_TIMEOUT (R217, R218, R352). That PORTQ
and PEEK change nothing, and which FTMO times a port out, is the model's choice, log entry 27. -/
def Sys2Proof.Spec.PortStatusAndTimeout : Prop :=
  (∀ (s : State) (st : Stall) (d a : Reg), s.Quiet → s.Clean [a] →
    let c := s.cur.1
    let i := s.cur.2
    let x := (s.reg a).val.toNat
    let full (dir : Dir) (v : Bool) : Bool := (s.groupPeer c i dir).any fun p =>
      decide ((if v then 2 else 4) ≤ (s.portQueue p.1 p.2 dir.opposite v).length)
    let byte (dir : Dir) : Nat := (s.portQueue c i dir false).length + 8 * (s.portQueue c i dir true).length
      + 32 * (full dir false).toNat + 64 * (full dir true).toNat + 128 * (s.groupPeer c i dir).isSome.toNat
    let gives (v : Nat) : Prop := exec (.pcfg st d a) s = .next (s.results st 4 [(1, s.wr d (BitVec.ofNat 64 v) false)])
    (x % 8 = 0 → gives (byte .e + byte .w * 2 ^ 8 + byte .n * 2 ^ 16 + byte .s * 2 ^ 24 + byte .lp * 2 ^ 32 + byte .lm * 2 ^ 40))
    ∧ (∀ dir, x % 8 = 1 → Dir.ofCode (x / 2 ^ 8 % 8) = some dir →
        (s.groupPeer c i dir = none → gives (2 ^ 63))
        ∧ ∀ t j, s.groupPeer c i dir = some (t, j) → gives (Site.die t * 2 ^ 24 + Site.y t * 2 ^ 16 + Site.x t * 2 ^ 8 + j))
    ∧ (2 ≤ x % 8 → gives 0))
  ∧ (∀ (s : State) (c i : Nat), (i < 10 → s.peer c i .lp = some (c, i + 1)) ∧ (0 < i → s.peer c i .lm = some (c, i - 1)))
  ∧ (∀ (s : State) (c i k n : Nat) (push v : Bool), (s.slot c i).wait = some (.port k push v n) →
      exec (.portTimeout c i) s = .next (if n < s.cyc then s.raiseAt c i ⟨9, 1, wordOf k, 0, .own, 3, false, false⟩ else s))

/-! ### Strands -/

/-- The edit procedures keep positions and balance (R138, R139): Join of two balanced trees has the positions of both and a height
of the higher or one more; Split at q gives q positions and the rest; Splice adds the inserted positions. -/
def Obligations.StrandEditsKeepShape : Prop :=
  (∀ (f : Nat) (l r t : SM.Tree) (w w' : SWork), Balanced l → Balanced r → (SM.join2 f l r).run w = (.ok t, w') →
    Balanced t ∧ t.n = l.n + r.n ∧ max l.h r.h ≤ t.h ∧ t.h ≤ 1 + max l.h r.h)
  ∧ (∀ (f rsz q : Nat) (t : SM.Tree) (a b : Option SM.Tree) (w w' : SWork), Balanced t → q ≤ t.n →
      (SM.split rsz f t q).run w = (.ok (a, b), w') →
      BalancedStrand a ∧ BalancedStrand b ∧ positions a = q ∧ positions b = t.n - q)
  ∧ (∀ (f rsz q : Nat) (t u : SM.Tree) (r : Option SM.Tree) (w w' : SWork), Balanced t → Balanced u → q ≤ t.n →
      (SM.splice rsz f t q u).run w = (.ok r, w') → BalancedStrand r ∧ positions r = t.n + u.n)

/-- Every strand instruction, once its release is carried out, writes the result of its operation, releases the roots it pinned and
goes on; one that ends in a status gives its failure value, one that meets header damage marks the arena lost and raises
STRAND_DAMAGED, and a fault of an access is raised: the storage it took and the roots it pinned are given back first. However it ends, the slot is told
of each bead whose payload it found poisoned. An operation that would write a reserved word waits (R128, R145, R150, R153, R154, R186, R200, R355, R356, R357, R358, R359, R360). -/
def Obligations.StrandOutcomes : Prop :=
  (∀ (s : State) (st : Stall) (d a b c : Reg) (vd : VReg) (fi : BitVec 2), StrandReady s → s.Clean [a, b, c] →
    let x := (s.reg a).val
    let y := (s.reg b).val
    let z := (s.reg c).val
    let k := s.me.ctx
    let u := released s .dev
    let w0 : SWork := ⟨u, k, s.cur.1, s.cur.2, [], []⟩
    let lost : Trap := ⟨0x10, 2, wordOf (SM.arenaBase s.myCtx), 0, .own, 3, false, false⟩
    let fails (n : Nat) : Word := BitVec.ofNat 64 (2 ^ 63 + n)
    let one (v : Word) : List WordWrite := s.wr d v false
    let two (v w : Word) : List WordWrite := s.wr d v false ++ s.wr (d + 1) w false
    let ends {α : Type} (i : Instr) (len : Nat) (op : SM α) (out : α → List WordWrite) (bad : Nat → List WordWrite) : Prop :=
      let ended (w : SWork) (t : State) : Prop := exec i s = .next (t.beadNotices s.cur.1 s.cur.2 w.hurt)
      (∀ v w, (pinned op).run w0 = (.ok v, w) → ended w (w.s.done len (out v)))
      ∧ (∀ n w, (pinned op).run w0 = (.error (.status n), w) → ended w ((State.undone w u).done len (bad n)))
      ∧ (∀ w, (pinned op).run w0 = (.error .damage, w) → ∃ t : State, ended w (t.raise lost)
          ∧ t.mem = (State.undone w u).mem ∧ (t.ctx k).arena1.getLsbD 51 = true)
      ∧ (∀ e w, (pinned op).run w0 = (.error (.trap e), w) → ended w ((State.undone w u).raise e))
      ∧ (∀ w, (pinned op).run w0 = (.error .wait, w) → exec i s = .next (u.parkMe .strand))
    let addr (i : Instr) (len : Nat) (op : SM Nat) : Prop := ends i len op (fun n => one (wordOf n)) (fun n => one (fails n))
    addr (.snewBead st d a b c) 8 (SM.newBead x y z) ∧ addr (.snewDesc st d a) 4 (SM.newDesc x)
    ∧ addr (.scat st d a b) 8 (SM.cat x y) ∧ addr (.ssplice st d a b c) 8 (SM.spliceOp x y z)
    ∧ ends (.ssplit st d a b) 8 (SM.splitOp x y) (fun r => two (wordOf r.1) (wordOf r.2)) (fun n => two (fails n) 0)
    ∧ ends (.sloc st d a b) 8 (do
          let r ← SM.locOp x y
          let p ← SM.usePayload r.1
          return (p.1 + wordOf ((r.2.2.1 - r.2.1) * r.2.2.2), p.2, r.1.addr))
        (fun r => s.wr d r.1 r.2.1 ++ s.wr (d + 1) (wordOf r.2.2) false) (fun n => two (fails n) 0)
    ∧ ends (.sstep st d a b) 8 (SM.locOp x y) (fun (t, base, _, _) => two (wordOf t.addr) (wordOf (base + t.n * 2 ^ 32)))
        (fun n => two (fails n) 0)
    ∧ ends (.ssum st vd a b c fi) 8 (SM.sumOp x y z fi.toNat) (fun r => s.sumWrites vd r.1 r.2 0) (fun n => s.sumWrites vd [] false n)
    ∧ ends (.srefHold st d a) 4 (SM.refOp x true) (fun _ => one 0) (fun n => one (wordOf n))
    ∧ ends (.srefRel st d a) 4 (SM.refOp x false) (fun _ => one 0) (fun n => one (wordOf n))
    ∧ ends (.scommit st d a b c) 8 (SM.commitOp x y z) (fun (n, it, p) => s.wr d (wordOf n) p ++ s.wr (d + 1) it p)
        (fun n => two (wordOf n) 0)
    ∧ (x.toNat % 8 = 0 → addr (.kvpgAlloc st d a) 4 (SM.allocBeadPage x))
    ∧ (y.toNat % 8 = 0 → ends (.kvpgFree st d a b) 8 (SM.freeBeadPage x y) (fun _ => one 0) (fun n => one (wordOf n)))
    ∧ ends (.kvpgSlot st d a b) 8 (SM.slotOp x y) (fun r => s.wr d r.1 r.2) (fun n => one (wordOf (n * 2 ^ 24))))
  ∧ (∀ (s : State) (c : Site) (i : Nat), s.beadNotices c i [] = s
      ∧ ∀ a l, s.beadNotices c i (a :: l) = (s.notice c i ⟨0x10, 1, wordOf a, 0, .own, 3, false, false⟩).beadNotices c i l)
  ∧ ∀ (w : SWork) (s : State), w.pins = [] → (State.undone w s).mem = w.s.mem
      ∧ ((State.undone w s).ctx w.k).arenaUsed = (s.ctx w.k).arenaUsed ∧ ((State.undone w s).ctx w.k).frees = (s.ctx w.k).frees

/-- Strand instructions on a strand of one bead. SLOC and SSTEP find a position in it, SSUM of an integer SUM facet adds its elements
modulo 2^32, and KVPG.SLOT compares the generation tag of the position's ring slot, each with the root pinned by a reference that it
gives back. SREF.HOLD raises REFCNT by one and SREF.REL lowers it; SCAT with the empty strand and a split at the end give the bead
one reference more, and so does SSPLICE of it into the empty strand, a choice of the model (log entry 34) (R126, R133, R139, R142,
R143, R145, R152, R358, R359, R360). -/
def Sys2Proof.Spec.StrandOfOneBead : Prop :=
  ∀ (s : State) (st : Stall) (d a b c : Reg) (vd : VReg) (at_ r n p : Nat) (pay : Word) (e : SDesc), StrandReady s →
    s.Clean [a, b, c] →
    let u := released s .dev
    BeadAt u at_ r n pay e → (s.reg a).val = wordOf at_ → Counter u at_ p r →
    let q := (s.reg b).val.toNat
    let counted (t : State) (m : Nat) : State := t.bankSetWord p ⟨mkHdr 2 0 m 0 (arenaOf s), false⟩
    let held := counted u (r + 1)
    (exec (.srefHold st d a) s = .next (held.done 4 (s.wr d 0 false))
      ∧ (2 ≤ r → exec (.srefRel st d a) s = .next ((counted u (r - 1)).done 4 (s.wr d 0 false))))
    ∧ (Counter held at_ p (r + 1) →
      let back := counted held r
      (q < n →
        exec (.sloc st d a b) s
          = .next (back.done 8 (s.wr d (pay + wordOf (q * e.rsz)) false ++ s.wr (d + 1) (wordOf at_) false))
        ∧ exec (.sstep st d a b) s
          = .next (back.done 8 (s.wr d (wordOf at_) false ++ s.wr (d + 1) (wordOf (n * 2 ^ 32)) false)))
      ∧ (∀ (f : Facet) (fi : BitVec 2) (v : Nat → Nat), e.facets.getD fi.toNat none = some f → f.kind = 1 → f.et = 0 → f.shc = 2 →
          f.srct = 1 → f.lanes = 1 → q < (s.reg c).val.toNat → (s.reg c).val.toNat ≤ n → pay.toNat < 2 ^ 40 → f.off < 2 ^ 20 →
          e.rsz ≤ 1024 → (∀ j, q ≤ j → j < (s.reg c).val.toNat → Reads4 held (pay.toNat + j * e.rsz + f.off) (v j)) →
          let sum := ((List.range ((s.reg c).val.toNat - q)).map fun j => v (q + j)).sum % 2 ^ 32
          exec (.ssum st vd a b c fi) s = .next (back.done 8 (s.sumWrites vd [⟨sum, 0, false, false⟩] true 0)))
      ∧ (∀ v, e.win = true → n = e.sink + e.ring → 0 < e.ring → q < 2 ^ 32 → pay.toNat < 2 ^ 40 → e.rsz ≤ 1024 →
          let slot := if q < e.sink then q else e.sink + (q - e.sink) % e.ring
          let g := if q < e.sink then 0 else (q - e.sink) / e.ring
          Reads4 held (pay.toNat + slot * e.rsz) v →
          exec (.kvpgSlot st d a b) s
            = .next (back.done 8 (s.wr d (wordOf (g * 2 ^ 32 + (if v = g then 0 else 2 ^ 31) + slot)) false)))
      ∧ (Counter (counted held (r + 2)) at_ p (r + 2) →
        let more := counted (counted held (r + 2)) (r + 1)
        ((s.reg b).val = 0 → exec (.scat st d a b) s = .next (more.done 8 (s.wr d (wordOf at_) false)))
        ∧ (q = n → exec (.ssplit st d a b) s = .next (more.done 8 (s.wr d (wordOf at_) false ++ s.wr (d + 1) 0 false)))
        ∧ ((s.reg c).val = 0 → q = 0 → exec (.ssplice st d c b a) s = .next (more.done 8 (s.wr d (wordOf at_) false)))))

/-- SCOMMIT writes the new root and ITER + 1 when ITER matches, and queues the release of the old root; it writes nothing when ITER
does not match or the root is that already. STRAND_FREE takes the first task queued: the release of a bead lowers its REFCNT by one, an
old root outside the arena names no node and is passed over (log entry 34), and a descriptor to be freed is marked freed and gives its
unit back (R125, R128, R143, R146, R148). -/
def Sys2Proof.Spec.StrandCommitAndFree : Prop :=
  (∀ (s : State) (st : Stall) (d a b c : Reg) (it root : Word), StrandReady s → PlainMemory s → s.Clean [a, b, c] →
    let u := released s .dev
    let at_ := (s.reg a).val.toNat
    at_ % 16 = 0 → (s.reg c).val = 0 → UnitHolds u at_ [root, it] →
    let ends (t : State) (n : Nat) (i : Word) : Out := .next (t.done 8 (s.wr d (wordOf n) false ++ s.wr (d + 1) i false))
    ∀ p p8, Writes u at_ p →
      (root = 0 → exec (.scommit st d a b c) s = ends u 1 it)
      ∧ (root ≠ 0 → (s.reg b).val.toNat < it.toNat → exec (.scommit st d a b c) s = ends u 2 it)
      ∧ (root ≠ 0 → it.toNat < (s.reg b).val.toNat → exec (.scommit st d a b c) s = ends u 3 it)
      ∧ (root ≠ 0 → (s.reg b).val = it → Writes u (at_ + 8) p8 →
          let t1 := u.bankSetWord p8 ⟨it + 1, false⟩
          t1.reservations = [] → Writes t1 at_ p →
          let t2 := t1.bankSetWord p ⟨0, false⟩
          exec (.scommit st d a b c) s = ends (t2.modCtx s.me.ctx fun x =>
            { x with frees := x.frees ++ [⟨root.toNat, true, s.cur.1, s.cur.2⟩] }) 0 (it + 1)))
  ∧ ∀ (s : State) (k at_ p m kind : Nat) (c : Site) (i : Nat) (release v : Bool) (rest : List StrandTask), PlainMemory s → NoReservation s →
    NoWatcher s → (s.ctx k).frees = ⟨at_, release, c, i⟩ :: rest →
    let u := s.modCtx k fun x => { x with frees := rest }
    let arena := fieldOf (s.ctx k).arena1 52 12
    State.isMesh (wordOf at_) = false → u.translateDirect k (wordOf at_) .read = .ok (p, v, u) →
    u.translateDirect k (wordOf at_) .write = .ok (p, false, u) → u.word p = ⟨mkHdr kind 0 m 0 arena, false⟩ →
    (release = true → SM.inArena (s.ctx k) at_ = false → exec (.strandFree k) s = .next u)
    ∧ (release = true → SM.inArena (s.ctx k) at_ = true → kind = 2 → 2 ≤ m → m < 0x3FFFFF → ∃ t, exec (.strandFree k) s = .next t
      ∧ t.word p = ⟨mkHdr 2 0 (m - 1) 0 arena, false⟩ ∧ (t.ctx k).frees = rest
      ∧ ∀ x, (x < p ∨ p + 8 ≤ x) → mget t.mem x = mget s.mem x)
    ∧ (release = false → kind = 3 → m = 0 → ∃ t, exec (.strandFree k) s = .next t
      ∧ fieldOf (t.word p).val 60 4 = 0 ∧ (t.ctx k).frees = rest
      ∧ (∀ x ∈ (t.ctx k).arenaUsed, x.1 ≠ (at_ - SM.arenaBase (s.ctx k)) / 64)
      ∧ ∀ x, (x < p ∨ p + 8 ≤ x) → mget t.mem x = mget s.mem x)

/-! ### Views -/

/-- VIEW.REG puts a checked descriptor into a handle slot, charges its records, and queues every block of a new view for its first
refresh; a refusal returns its status in the ADDR form; VIEW.DROP empties the slot, whose generation rises, and refunds; a
master with views stays, with status 4; that VIEW.DROP looks at bits [31:0] of its register only, in its effect and in HANDLE's
FLT1, is a choice of the model (log entry 35) (R104, R105, R107, R112, R117, R121, R361). -/
def Obligations.ViewHandles : Prop :=
  ∀ (s : State) (st : Stall) (d a : Reg), s.me.pend = [] → s.reqs = [] → PlainMemory s → s.Clean [a] →
    let u := released s .dev
    let k := s.me.ctx
    let va := (s.reg a).val
    let gen (n : Nat) : Nat := ((s.ctx k).handleAt n).1
    let ends (t : State) (v : Nat) : Out := .next (t.done 4 (s.wr d (BitVec.ofNat 64 v) false))
    let only (t : State) (n : Nat) : Prop := (∀ m, m ≠ n → (t.ctx k).handleAt m = (s.ctx k).handleAt m)
      ∧ { t with ctxs := s.ctxs, dies := s.dies } = u
    (∀ w0 w1, va.toNat % 16 = 0 → Holds u va.toNat [w0, w1] →
      let nblk := w1.toNat % 2 ^ 25
      (∀ n, u.masterCheck k [⟨w0, false⟩, ⟨w1, false⟩] = .ok n → ∃ t, exec (.viewRegMst st d a) s = ends t (n * 4096 + gen n)
        ∧ (t.ctx k).handleAt n = (gen n, .master w0 w1) ∧ only t n
        ∧ (t.ctx k).usedOf .memBytes = (s.ctx k).usedOf .memBytes + 8 * nblk)
      ∧ (∀ m, u.masterCheck k [⟨w0, false⟩, ⟨w1, false⟩] = .error (.status m) →
          exec (.viewRegMst st d a) s = ends u (2 ^ 63 + m))
      ∧ ∀ e, u.masterCheck k [⟨w0, false⟩, ⟨w1, false⟩] = .error (.trap e) → exec (.viewRegMst st d a) s = .next (u.raise e))
    ∧ (∀ w0 w1 w2 w3, va.toNat % 32 = 0 → Holds u va.toNat [w0, w1, w2, w3] →
      (∀ n m nblk, u.viewCheck k [⟨w0, false⟩, ⟨w1, false⟩, ⟨w2, false⟩, ⟨w3, false⟩] = .ok (n, m, nblk) →
        let die := fieldOf w0 10 2
        (s.die die).churn.length + nblk ≤ 4096 →
        ∃ t, exec (.viewRegDrv st d a) s = ends t (n * 4096 + gen n)
          ∧ (t.ctx k).handleAt n = (gen n, .view m w0 w1 w2 s.cur.1 s.cur.2) ∧ only t n
          ∧ (t.ctx k).usedOf .memBytes = (s.ctx k).usedOf .memBytes + 8 * nblk
          ∧ ∀ b, b < nblk → (⟨k, n, b⟩ : ChurnItem) ∈ (t.die die).churn)
      ∧ ∀ m, u.viewCheck k [⟨w0, false⟩, ⟨w1, false⟩, ⟨w2, false⟩, ⟨w3, false⟩] = .error (.status m) →
          exec (.viewRegDrv st d a) s = ends u (2 ^ 63 + m))
    ∧ (let h := va.toNat % 2 ^ 32
      let dropped (t : State) (n nblk : Nat) : Prop := (gen n < 0xFFF → (t.ctx k).handleAt n = (gen n + 1, .empty))
        ∧ (gen n = 0xFFF → (t.ctx k).handleAt n = (0xFFF, .retired)) ∧ only t n
        ∧ (t.ctx k).usedOf .memBytes = (s.ctx k).usedOf .memBytes - 8 * nblk
      (∀ n w0 w1, (s.ctx k).lookup h = some (n, .master w0 w1) →
        (State.viewsOf (s.ctx k) n = [] → ∃ t, exec (.viewDrop st d a) s = ends t 0 ∧ dropped t n (w1.toNat % 2 ^ 25))
        ∧ (State.viewsOf (s.ctx k) n ≠ [] → exec (.viewDrop st d a) s = ends u 4))
      ∧ (∀ n m w0 w1 w2 c i m0 m1, (s.ctx k).lookup h = some (n, .view m w0 w1 w2 c i) →
        ((s.ctx k).handleAt m).2 = .master m0 m1 → ∃ t, exec (.viewDrop st d a) s = ends t 0 ∧ dropped t n (m1.toNat % 2 ^ 25)
          ∧ ∀ b, (⟨k, n, b⟩ : ChurnItem) ∉ (t.die (fieldOf w0 10 2)).churn)
      ∧ ((s.ctx k).lookup h = none →
          exec (.viewDrop st d a) s = .next (u.raise ⟨0x0D, 0, BitVec.ofNat 64 h, 0, .own, 3, false, false⟩)))

/-- VIEW.LD and VIEW.WAIT send a request to the view's churn and park, VIEW.LD with its destination held; a block past the end
returns RANGE. The churn answers a fresh block with its version (and VIEW.LD's data, not shown here), a stale one by the view's
policy: WAIT keeps the request, LATEST returns the last publication, or tag 0 with STALE when there is none, and FAULT raises
VIEW_STALE with the handle and the block; a request that WAIT keeps for a stale block raises SYNC_TIMEOUT with detail VIEWWAIT past
FTMO, and no other does. Two points are the model's choice: bits [63:32] of the handle's register are not looked at (log entry 35),
and FLT1 of VIEWWAIT is the handle (log entry 13) (R71, R104, R118, R119, R361, R362). -/
def Sys2Proof.Spec.ViewReads : Prop :=
  (∀ (s : State) (st : Stall) (d a b c : Reg) (n m : Nat) (w0 w1 w2 m0 m1 : Word) (rc : Site) (ri : Nat), s.me.pend = [] →
    s.me.parkedSince = none → s.Clean [a, b, c] →
    let h := (s.reg a).val.toNat % 2 ^ 32
    let blk := (s.reg b).val.toNat
    let die := fieldOf w0 10 2
    s.myCtx.lookup h = some (n, .view m w0 w1 w2 rc ri) → (s.myCtx.handleAt m).2 = .master m0 m1 →
    let asks (i : Instr) (r : ViewReq) : Prop := ∃ t, exec i s = .next t ∧ t.me.state = .parked
      ∧ t.me.wait = some (.view die s.serial (BitVec.ofNat 64 h) (s.cyc + s.me.ftmo)) ∧ (t.die die).viewReqs = (s.die die).viewReqs ++ [r]
      ∧ t.mem = s.mem ∧ ∀ p, r.dst = some p → p / 8 * 8 = p → 2 ^ 40 ≤ p → p < 2 ^ 80 → ((p - 2 ^ 40) / 2 ^ 17 % 8 = 1 ∨ (p - 2 ^ 40) / 2 ^ 17 % 8 = 3) →
          8 ≤ r.bytes → t.isFull p = false ∧ t.isHeld p = true
    let req (pol bytes : Nat) (dst : Option Nat) : ViewReq := ⟨s.serial, s.cur.1, s.cur.2, s.me.ctx, n, blk, pol, dst, bytes, d, 8,
      s.cyc, s.me.ftmo, false⟩
    let range : Out := .next (s.done 8 (s.wr d (2 ^ 26) false))
    let elems : Nat := if m0.toNat % 4 = 0 then 1024 else 2048
    (blk < m1.toNat % 2 ^ 25 → asks (.viewWait st d a b) (req 0 0 none)
      ∧ ∀ p, State.viewDst s (s.reg c).val (vBytes w0 elems) = .ok p →
          asks (.viewLd st d a b c) (req (fieldOf w0 14 2) (vBytes w0 elems) (some p)))
    ∧ (m1.toNat % 2 ^ 25 ≤ blk → exec (.viewWait st d a b) s = range
      ∧ ∀ p, State.viewDst s (s.reg c).val (vBytes w0 elems) = .ok p → exec (.viewLd st d a b c) s = range))
  ∧ (∀ (s : State) (die : Nat) (r : ViewReq) (n m g until_ : Nat) (h w0 w1 w2 tag : Word) (c : Site) (i : Nat),
    (s.die die).viewReqs = [r] → r.waiting = false → r.dst = none → (s.slot r.core r.slot).wait = some (.view die r.n h until_) →
    (s.ctx r.ctx).lookup h.toNat = some (n, .view m w0 w1 w2 c i) → aget (s.ctx r.ctx).tags 0 (n * 2 ^ 32 + r.block) = tag →
    (aget (s.ctx r.ctx).versions 0 (m * 2 ^ 32 + r.block)).toNat = g →
    let answer (w : Nat) : Out := .next ((s.modDie die fun x => { x with viewReqs := [] }).complete r.core r.slot r.len
      (s.regWrite r.core r.slot r.d ⟨BitVec.ofNat 64 w, false⟩))
    (tag.getLsbD 31 = true → fieldOf tag 32 32 = g →
      exec (.churnServe die r.n) s = answer (g * 2 ^ 32 + (tag.getLsbD 30).toNat * 2 ^ 30))
    ∧ (tag.getLsbD 31 = true → fieldOf tag 32 32 ≠ g → r.pol = 1 →
        exec (.churnServe die r.n) s = answer (fieldOf tag 32 32 * 2 ^ 32 + 2 ^ 31 + (tag.getLsbD 30).toNat * 2 ^ 30))
    ∧ (tag.getLsbD 31 = false → r.pol = 1 → exec (.churnServe die r.n) s = answer (2 ^ 31 + r.bytes))
    ∧ (¬(tag.getLsbD 31 = true ∧ fieldOf tag 32 32 = g) → r.pol = 2 → exec (.churnServe die r.n) s
        = .next ((s.endViewReq r.core r.slot).raiseAt r.core r.slot ⟨0x0E, 0, h, BitVec.ofNat 64 r.block, .own, 3, false, false⟩))
    ∧ (¬(tag.getLsbD 31 = true ∧ fieldOf tag 32 32 = g) → r.pol = 0 → ∃ t, exec (.churnServe die r.n) s = .next t
        ∧ (t.die die).viewReqs = [{ r with waiting := true }] ∧ t.mem = s.mem ∧ t.cores = s.cores))
  ∧ (∀ (s : State) (c i die n until_ : Nat) (h : Word), (s.slot c i).wait = some (.view die n h until_) →
      (until_ ≤ s.cyc → die < 4 → (∃ q ∈ (s.die die).viewReqs, q.core = c ∧ q.slot = i ∧ q.waiting = true) →
        exec (.viewWaitTimeout c i) s = .next ((s.endViewReq c i).raiseAt c i ⟨8, 3, h, 0, .own, 0, false, false⟩))
      ∧ ((s.cyc < until_ ∨ ∀ d < 4, ∀ q ∈ (s.die d).viewReqs, q.core = c → q.slot = i → q.waiting = false) →
        exec (.viewWaitTimeout c i) s = .next s))

/-- The churn's refresh of a stale block of master and view data that it can read and publish: the words of the converted block, the
tag record's new version with VALID set, and the block leaves the queue; a block that is fresh already only leaves it. PEND_TAKE moves a pending block to the queue (R115, R116,
R117, R118). Which pending block is taken first is the model's choice, log entry 35. -/
def Sys2Proof.Spec.ViewRefreshes : Prop :=
  (∀ (s u : State) (die g n m : Nat) (b : Nat) (k : Nat) (rest : List ChurnItem) (w0 w1 w2 m0 m1 : Word) (c : Site) (i : Nat)
      (l : List Tagged) (u' : State) (targets : List Nat), PlainMemory s → NoWatcher s → NoReservation s → (∀ o, (s.core o).park = []) →
    (s.die die).churn = ⟨k, n, b⟩ :: rest → (s.ctx k).handleAt n = (g, .view m w0 w1 w2 c i) →
    ((s.ctx k).handleAt m).2 = .master m0 m1 → b < 2 ^ 32 →
    let v := s.modDie die fun x => { x with churn := rest }
    let e : Nat := if m0.toNat % 4 = 0 then 1024 else 2048
    let old := aget (s.ctx k).tags 0 (n * 2 ^ 32 + b)
    let version := (aget (s.ctx k).versions 0 (m * 2 ^ 32 + b)).toNat
    (old.getLsbD 31 = true → fieldOf old 32 32 = version → exec (.churnRefresh die) s = .next v) ∧
    (¬(old.getLsbD 31 = true ∧ fieldOf old 32 32 = version) →
    v.readBlock k (wordOf (fieldOf m0 12 36 * 4096 + 4096 * b)) 512 = .ok (l, u') → (∀ t ∈ l, t.poison = false) →
    v.publishTargets k w0 w1 w2 e b = some (targets, u) → u = v →
    targets.Pairwise (fun x y => x + 8 ≤ y ∨ y + 8 ≤ x) → (∀ x ∈ targets, x % 8 = 0) →
    let data := viewBlock m0 w0 (l.flatMap fun t => leBytesOf 8 t.val.toNat)
    let bytes := data.1 ++ data.2
    ∃ t, exec (.churnRefresh die) s = .next t ∧ (t.die die).churn = rest
      ∧ (∀ j, (h : j < targets.length) → t.word targets[j] = ⟨BitVec.ofNat 64 (bytesNat ((bytes.drop (8 * j)).take 8)), false⟩)
      ∧ (let tag := aget (t.ctx k).tags 0 (n * 2 ^ 32 + b)
         fieldOf tag 32 32 = version ∧ tag.getLsbD 31 = true ∧ tag.getLsbD 30 = false)))
  ∧ (∀ (m0 w0 : Word) (bs : List Byte) (i : Nat), m0.toNat % 4 = 0 → vType w0 = 4 → vTrans w0 = false → vScaled w0 = false →
      bs.length = 4096 → i < 1024 →
      let x := bytesNat ((bs.drop (4 * i)).take 4)
      let r := bytesNat (((viewBlock m0 w0 bs).1.drop (2 * i)).take 2)
      finite 8 23 x = true → ∀ c < 2 ^ 16, finite 8 7 c = true → value 8 7 c = value32 x → value32 x ≠ 0 → r = c)
  ∧ (∀ (s : State) (die n key : Nat), (s.die die).churn.length < 4096 → s.pendingBlock die = some (n, key) →
      ∃ t, exec (.pendTake die) s = .next t ∧ (t.die die).churn = (s.die die).churn ++ [⟨n, key / 2 ^ 32, key % 2 ^ 32⟩]
        ∧ (aget (t.ctx n).tags 0 key).getLsbD 29 = false ∧ t.mem = s.mem)

/-! ### Copy engines -/

/-- ENG.CPY joins its cluster's queue with its promise, which it returns; ENG.POOLRD and ENG.POOLWR join it and park; ENG.SLEEPU
parks until its wake cycle (R67, R69, R70, R71, R74, R85, R364). The order of the checks, and that a command which fails one is not
queued, is the model's choice, log entry 11. -/
def Sys2Proof.Spec.EngineCommands : Prop :=
  ∀ (s : State) (st : Stall) (d a b c : Reg), s.me.pend = [] → s.reqs = [] → s.Clean [a, b, c] →
    let u := released s .dev
    let dst := (s.reg a).val
    let src := (s.reg b).val
    let len := (s.reg c).val.toNat
    let cl := Site.cluster s.cur.1
    let queue := (s.cluster cl).engine
    let aligned (limit : Nat) : Prop := dst.toNat % 8 = 0 ∧ src.toNat % 8 = 0 ∧ len % 8 = 0 ∧ 8 ≤ len ∧ len ≤ limit
    let first (l : List HeldWord) : Nat := match l with | x :: _ => x.addr | [] => 0
    let dist (x y : Nat) : Nat := (if x % 2 = y % 2 then 0 else 1) + (if x / 2 = y / 2 then 0 else 1)
    let lat (va : Word) (p : Nat) : Nat := if va.getLsbD 63 then 20 * dist (Site.die s.cur.1) (Site.die (State.ownerOf p)) else 64
    (∀ ds ss, aligned 0x100000 → queue.length < 16 → u.heldRange s.cur.1 s.me.ctx dst len .write = .ok (ds, u) →
      u.heldRange s.cur.1 s.me.ctx src len .read = .ok (ss, u) → ds.length = len / 8 → ss.length = len / 8 →
      let tail : Nat := match queue.getLast? with | some e => e.promise | none => 0
      let bw := if dst.getLsbD 63 && src.getLsbD 63 then 64 else 32
      let p := max (s.cyc + (40 + lat src (first ss) + lat dst (first ds))) tail + (len + bw - 1) / bw
      ∃ (t : State) (ws : List EngWord), exec (.engCpy st d a b c) s = .next (t.done 8 (s.wr d (BitVec.ofNat 64 p) false))
        ∧ (t.cluster cl).engine = queue ++ [⟨s.serial, .cpy, s.me.ctx, s.me.gen, s.cur.1, s.cur.2, ws, p, none, s.me.wp, d, 0, none⟩]
        ∧ t.me.promises = s.me.promises ++ [(s.serial, p)] ∧ t.mem = s.mem ∧ t.poison = s.poison
        ∧ ws.length = len / 8
        ∧ (∀ j (hd : j < ds.length) (hs : j < ss.length) (hw : j < ws.length),
            ws[j].src = some ss[j].addr ∧ ws[j].dst = some ds[j].addr))
    ∧ (∀ ds ps, aligned 0x40000 → queue.length < 16 → u.heldRange s.cur.1 s.me.ctx dst len .write = .ok (ds, u) →
      u.poolPieces s.me.ctx .read (pieces (len / 4096 + 2) src.toNat len) = .ok ps →
      ∃ (t : State) (ws : List EngWord), exec (.engPoolrd st d a b c) s = .next t ∧ t.me.state = .parked ∧ t.me.wait = some (.pool s.serial d 8)
        ∧ (t.cluster cl).engine = queue ++ [⟨s.serial, .poolrd, s.me.ctx, s.me.gen, s.cur.1, s.cur.2, ws, 0, none, s.me.wp, d, 0, none⟩]
        ∧ t.mem = s.mem)
    ∧ (∀ ss ps, aligned 0x40000 → queue.length < 16 → u.heldRange s.cur.1 s.me.ctx src len .read = .ok (ss, u) →
      u.poolPieces s.me.ctx .write (pieces (len / 4096 + 2) dst.toNat len) = .ok ps →
      ∃ (t : State) (ws : List EngWord), exec (.engPoolwr st d a b c) s = .next t ∧ t.me.state = .parked ∧ t.me.wait = some (.pool s.serial d 8)
        ∧ (t.cluster cl).engine = queue ++ [⟨s.serial, .poolwr, s.me.ctx, s.me.gen, s.cur.1, s.cur.2, ws, 0, none, s.me.wp, d, 0, none⟩]
        ∧ t.mem = s.mem)
    ∧ (dst.toNat ≤ s.cyc → exec (.engSleepu st a) s = .next (s.done 4 []))
    ∧ (s.cyc < dst.toNat → ∃ t, exec (.engSleepu st a) s = .next t ∧ t.me.state = .parked
        ∧ t.me.wait = some (.sleepu dst.toNat 4) ∧ t.mem = s.mem)

/-- The events of engines and of the pool: a command starts, completes and leaves its queue; a sleeper wakes at its cycle; a
missed promise is told to its slot; a pool line is accepted by the frame's owner only, a silent pool ends with TIMEOUT, and the
directory names a new owner in one step. The lines of a frame that a POOLWR has begun are accepted before the move, the model's way to
handle a frame as a unit (log entry 11) (R52, R67, R70, R72, R74, R85, R86, R182, R184, R412). -/
def Sys2Proof.Spec.EngineEvents : Prop :=
  ∀ (s : State) (cl : Nat) (e : EngCmd) (rest : List EngCmd), (s.cluster cl).engine = e :: rest →
    let key (p : Nat) : Nat := (p - 2 ^ 80) / 2 ^ 21
    let owner (t : State) (f : Nat) : Option Nat := (t.pkg.owners.find? fun o => o.1 = f).map (·.2)
    let begun (n f : Nat) : Prop := ∃ x, (s.cluster n).engine.head? = some x ∧ x.frame = some f
    (e.started = none → ∃ t, exec (.copyStart cl) s = .next t ∧ (t.cluster cl).engine = { e with started := some s.cyc } :: rest
      ∧ t.mem = s.mem)
    ∧ (∀ t0, e.started = some t0 → e.words = [] → e.kind = .cpy → (∀ c i, (s.slot c i).wait = none) →
        ∃ t, exec (.copyComplete cl) s = .next t ∧ (t.cluster cl).engine = rest ∧ t.mem = s.mem ∧ t.replies = s.replies)
    ∧ (∀ t0, e.started = some t0 → e.words = [] → e.kind = .poolrd ∨ e.kind = .poolwr → (∀ c i, (s.slot c i).wait = none) →
        ∃ t, exec (.copyComplete cl) s = .next t ∧ (t.cluster cl).engine = rest
          ∧ t.replies = s.replies ++ [⟨e.id, e.core, e.ctx, e.gen, e.slot, e.wp, some (e.d, wordOf e.status), none, none⟩])
    ∧ (∀ t0 a p w, e.started = some t0 → e.status = 0 → e.kind = .poolwr → e.words = [w] → w.src = some a → w.dst = some p →
        2 ^ 80 ≤ p → PlainMemory s → NoReservation s → owner s (key p) = some s.pkg.device.toNat →
        (∃ t, exec (.poolLineAccept cl) s = .next t
          ∧ (t.cluster cl).engine = { e with words := [], frame := some (key p) } :: rest ∧ (p % 8 = 0 → t.word p = s.word a))
        ∧ ∀ pool frame o, e.frame = some (pool * 2 ^ 36 + frame) → key p = pool * 2 ^ 36 + frame →
            (∀ n, n ≠ cl → ¬begun n (pool * 2 ^ 36 + frame)) → ∃ t, exec (.ownershipMove pool frame o) s = .next t
              ∧ owner t (pool * 2 ^ 36 + frame) = some o ∧ (p % 8 = 0 → t.word p = s.word a))
    ∧ (∀ t0 w ws o a p, e.started = some t0 → e.status = 0 → e.kind = .poolwr → e.words = w :: ws → w.src = some a → w.dst = some p →
        NoReservation s → owner s (key p) = some o → o ≠ s.pkg.device.toNat →
        ∃ t, exec (.poolLineAccept cl) s = .next t ∧ (t.cluster cl).engine = { e with words := [], status := 1 } :: rest
          ∧ t.mem = s.mem)
    ∧ (∀ t0, e.started = some t0 → e.kind = .poolwr → e.words ≠ [] → t0 + 1750000 ≤ s.cyc →
        ∃ t, exec (.poolTimeout cl) s = .next t ∧ (t.cluster cl).engine = { e with words := [], status := 3 } :: rest ∧ t.mem = s.mem)
    ∧ (∀ pool frame o, (∀ n, ¬begun n (pool * 2 ^ 36 + frame)) → ∃ t, exec (.ownershipMove pool frame o) s = .next t
        ∧ owner t (pool * 2 ^ 36 + frame) = some o ∧ { t with pkg := s.pkg } = s)
    ∧ (∀ c i wake len, (s.slot c i).wait = some (.sleepu wake len) → wake ≤ s.cyc →
        exec (.sleepuWake c i) s = .next (s.complete c i len []))
    ∧ (∀ c i id p wake len, Site.cluster c = cl → (s.slot c i).promises = [(id, p)] → p ≤ s.cyc → e.id = id →
        (s.slot c i).state = .parked → (s.slot c i).wait = some (.sleepu wake len) →
        exec (.promiseMiss c i) s = .next ((s.modSlot c i fun x => { x with promises := [] }).raiseAt c i
          ⟨0x0A, 0, wordOf p, wordOf s.cyc, .own, 3, false, false⟩))

/-! ### Helpers and launch -/

/-- START loads a FREE helper slot with a workspace and a PC and returns 0, or 1 for a slot that is not FREE; a dormant fibre that it
resumes waits for the status of the pool command that its workspace issued (R237); JOIN returns an EXITED
helper's value with bit 63 clear and frees its slot, NOTLIVE for a FREE one, and else parks; both raise ILL outside the
control context and for a slot number 0 or above 10; EXIT of a helper keeps its operand for
JOIN, and EXIT of the control context, once no helper is live, frees every slot and tells the sequencer (R202, R212, R213, R375,
R376). -/
def Obligations.HelperResults : Prop :=
  ∀ (s : State) (st : Stall) (d a b c : Reg), s.me.pend = [] → s.reqs = [] → s.resQueue = [] → PlainMemory s →
    let core := s.cur.1
    let h := (s.reg a).val.toNat
    let pc := (s.reg b).val
    let wp := (s.reg c).val
    let u := released s .dev
    let due : Prop := (∃ e ∈ (s.cluster (Site.cluster core)).engine, e.kind ≠ .cpy ∧ e.core = core ∧ e.ctx = s.me.ctx ∧ e.gen = s.me.gen
        ∧ e.wp = wp.setWidth 5)
      ∨ ∃ q ∈ s.replies, q.status ≠ none ∧ q.core = core ∧ q.ctx = s.me.ctx ∧ q.gen = s.me.gen ∧ q.wp = wp.setWidth 5
    (s.cur.2 = 0 → s.Clean [a, b, c] → 1 ≤ h → h ≤ 10 →
      (pc.toNat % 4 = 0 → wp.toNat / 16 % 2 = 0 ∨ wp.toNat % 16 < 12 →
        ((s.slot core h).state = .free → ∃ t : State, exec (.start st d a b c) s = .next (t.done 8 (s.wr d 0 false))
          ∧ t.mem = s.mem ∧ t.reqs = [] ∧ (pc ≠ 0 ∨ ¬due → (t.slot core h).state = .ready)
          ∧ (pc = 0 → due → (t.slot core h).state = .parked ∧ (t.slot core h).wait = some .status)
          ∧ (t.slot core h).ctx = s.me.ctx ∧ (t.slot core h).gen = s.me.gen
          ∧ (t.slot core h).wp = wp.setWidth 5 ∧ (t.slot core h).pend = []
          ∧ (pc ≠ 0 → (t.slot core h).pc = pc ∧ (t.slot core h).resid = 0 ∧ (t.slot core h).act = false)
          ∧ (pc = 0 → (t.slot core h).pc = (s.word (bufAddr core (if wp.toNat / 16 % 2 = 1 then .s else .a) (wp.toNat % 16 * 4096) + 0xA00)).val)
          ∧ ∀ x i, (x, i) ≠ (core, h) → t.slot x i = u.slot x i)
        ∧ ((s.slot core h).state ≠ .free → exec (.start st d a b c) s = .next (u.done 8 (s.wr d 1 false))))
      ∧ ((s.slot core h).state = .free → exec (.join st d a) s = .next (s.done 4 (s.wr d 0x8000000000000001 false)))
      ∧ ((s.slot core h).state = .exited → ∃ t : State, exec (.join st d a) s = .next (t.done 4
            (s.wr d (BitVec.ofNat 64 ((s.slot core h).exitVal.val.toNat % 2 ^ 63)) (s.slot core h).exitVal.poison))
          ∧ (t.slot core h).state = .free ∧ t.mem = s.mem ∧ ∀ x i, (x, i) ≠ (core, h) → t.slot x i = s.slot x i)
      ∧ ((s.slot core h).state ≠ .free → (s.slot core h).state ≠ .exited → ∃ t : State, exec (.join st d a) s = .next t
          ∧ t.me.state = .parked ∧ t.me.wait = some (.join h) ∧ t.mem = s.mem))
    ∧ (s.Clean [a, b, c] → s.cur.2 ≠ 0 ∨ h = 0 ∨ 10 < h →
      (∃ w, exec (.start st d a b c) s = .next (s.raise ⟨1, 0, w, 0, .own, 3, false, false⟩))
      ∧ ∃ w, exec (.join st d a) s = .next (s.raise ⟨1, 0, w, 0, .own, 3, false, false⟩))
    ∧ ((s.core core).matrix = [] →
      (s.cur.2 ≠ 0 → ∃ t : State, exec (.exit st a) s = .next t ∧ t.me.state = .exited ∧ t.me.exitVal = s.reg a
        ∧ (∀ x i, (x, i) ≠ s.cur → sansMonitors (t.slot x i) = sansMonitors (s.slot x i))
        ∧ ∀ p, (p < bufAddr core (if s.me.wp.toNat ≥ 16 then .s else .a) (s.me.wp.toNat % 16 * 4096) + 0xA00
            ∨ bufAddr core (if s.me.wp.toNat ≥ 16 then .s else .a) (s.me.wp.toNat % 16 * 4096) + 0xB00 ≤ p) → mget t.mem p = mget s.mem p)
      ∧ (s.cur.2 = 0 → (∀ j, 1 ≤ j → j ≤ 10 → (s.slot core j).state = .free ∨ (s.slot core j).state = .exited) →
        ∃ t : State, exec (.exit st a) s = .next t ∧ (∀ j, j ≤ 10 → (t.slot core j).state = .free)
          ∧ (t.core core).placed = (s.core core).placed.map (fun p => { p with exited := true })
          ∧ ∀ x i, x ≠ core → sansMonitors (t.slot x i) = sansMonitors (s.slot x i))
      ∧ (s.cur.2 = 0 → (∃ j, 1 ≤ j ∧ j ≤ 10 ∧ (s.slot core j).state ≠ .free ∧ (s.slot core j).state ≠ .exited) →
        ∃ t : State, exec (.exit st a) s = .next t ∧ t.me.state = .parked ∧ t.me.wait = some .exit ∧ t.mem = s.mem))

/-- LAUNCH queues its record at the issuer's die under a group and charges the budget, or refuses it: BADREC, NOQUEUE, NOGROUP
(R377, R394, R396, R403). The order of the refusals is the model's choice, log entry 17. -/
def Sys2Proof.Spec.LaunchResult : Prop :=
  ∀ (s : State) (st : Stall) (d a : Reg) (ws : List Word), s.me.pend = [] → s.reqs = [] → PlainMemory s → s.Clean [a] →
    let va := (s.reg a).val
    let u := released s .dev
    let k := s.me.ctx
    let die := s.cur.1 / 1024
    va.toNat % 64 = 0 → ws.length = 8 → Holds u va.toNat ws →
    let prio := fieldOf (ws.getD 1 0) 57 3
    let name := fieldOf (ws.getD 0 0) 48 16
    let live (g : Nat) : Prop := g ∈ (s.ctx k).groups.map (fun x => x.1)
    let fails (n : Nat) : Out := .next (u.done 4 (s.wr d (BitVec.ofNat 64 (2 ^ 63 + n)) false))
    (badRecord ws = true → exec (.launch st d a) s = fails 1)
    ∧ (badRecord ws = false →
      ((s.ctx k).prioMask.testBit prio = false → exec (.launch st d a) s = fails 2)
      ∧ ((s.ctx k).prioMask.testBit prio = true →
        (name ≠ 0 → ¬live name → exec (.launch st d a) s = fails 3)
        ∧ ∀ g, (if name = 0 then 1 ≤ g ∧ g ≤ 0xFFFF ∧ ¬live g ∧ ∀ x, 1 ≤ x → x < g → live x else g = name ∧ live name) →
          ((s.ctx k).usedOf .launches < (s.ctx k).launches → ∃ (t : State) (r : LaunchRec),
              exec (.launch st d a) s = .next (t.done 4 (s.wr d (BitVec.ofNat 64 g) false))
            ∧ (t.die die).queue.map (fun x => x.n) = (s.die die).queue.map (fun x => x.n) ++ [s.serial]
            ∧ r ∈ (t.die die).queue ∧ r.n = s.serial ∧ r.words = ws ∧ r.addr = va ∧ r.ctx = k ∧ r.gen = s.me.gen ∧ r.prio = prio ∧ r.group = g
            ∧ (t.ctx k).usedOf .launches = (s.ctx k).usedOf .launches + 1
            ∧ aget (t.ctx k).groups 0 g = aget (s.ctx k).groups 0 g + 1 ∧ t.mem = s.mem ∧ t.cores = u.cores)
          ∧ ((s.ctx k).launches ≤ (s.ctx k).usedOf .launches → exec (.launch st d a) s
              = .next (u.raise ⟨0x13, 0, 5, 1, .parent, 3, false, false⟩))))

/-- The sequencer: an eligible head of one work item is placed and its core loaded at CODE with WID and the record's address; a head
that has waited its AGE moves up one priority; when every work item has exited, the next iteration starts, and after the last one a
launch without a completion signal leaves the sequencer and returns its budget; one with a signal does so when a bank has accepted the
decrement (R394, R398, R400, R401, R402, R403, R451). How the wait word is read, and what the end of an iteration drops, is the
model's choice, log entry 17. -/
def Sys2Proof.Spec.SequencerEvents : Prop :=
  (∀ (s : State) (die : Nat) (r : LaunchRec) (k j : Nat) (c : Site) (cl : List Nat), (s.die die).queue = [r] → r.prio < 8 →
    r.wait = 0 → r.ws = 0 → (s.ctx r.ctx).live = true → (s.ctx r.ctx).gen = r.gen → s.isStopped 8 r.ctx = false →
    PlainMemory s → NoWatcher s → (∀ x, (s.core x).park = []) → c < 4096 → s.fits die r = some ([(k, j, [c])], cl) →
    let base := bufAddr c .s (11 * 4096)
    ∃ t run, exec (.sequencerChoose die) s = .next t ∧ (t.die die).queue = [] ∧ (t.die die).running = (s.die die).running ++ [run]
      ∧ run.rec_ = r ∧ run.iteration = 0 ∧ run.clusters = cl ∧ run.ended = false ∧ run.decrement = none
      ∧ (t.slot c 0).state = .ready ∧ (t.slot c 0).ctx = r.ctx ∧ (t.slot c 0).gen = r.gen ∧ (t.slot c 0).wp = 0x1B
      ∧ (t.slot c 0).pc = r.code ∧ (t.slot c 0).resid = 0 ∧ (t.slot c 0).um = false ∧ (t.core c).placed = some ⟨r.n, k * 2 ^ 16 + j, 0, false⟩
      ∧ (t.core c).group = some (r.ctx, r.group) ∧ (∀ i, i < 11 → (t.slot c i).table = none)
      ∧ t.word (base + 8) = ⟨BitVec.ofNat 64 (widOf k j 0 (widFields (r.word 1)) 0 0), false⟩ ∧ t.word (base + 16) = ⟨r.addr, false⟩
      ∧ (∀ i, 3 ≤ i → i < 320 → t.word (base + 8 * i) = ⟨0, false⟩)
      ∧ ∀ x, (x < base ∨ base + 4096 ≤ x) → mget t.mem x = mget s.mem x)
  ∧ (∀ (s : State) (die : Nat) (r : LaunchRec), (s.die die).queue = [r] →
    (∀ t0, r.prio < 7 → r.headSince = some t0 → t0 + r.age ≤ s.cyc → ∃ t r', exec (.agePromotion die) s = .next t
      ∧ (t.die die).queue = [r'] ∧ r'.n = r.n ∧ r'.words = r.words ∧ r'.prio = r.prio + 1 ∧ r'.headSince = some s.cyc ∧ t.mem = s.mem ∧ t.cores = s.cores)
    ∧ (r.prio = 7 ∨ (∀ t0, r.headSince = some t0 → s.cyc < t0 + r.age) → exec (.agePromotion die) s = .next s))
  ∧ (∀ (s : State) (n die : Nat) (run : Running), s.runningN n = some (die, run) → run.rec_.n = n →
    let r := run.rec_
    let isOver (t : State) : Prop := (∀ x ∈ (t.die die).running, x.rec_.n ≠ n) ∧ t.reqs = s.reqs ∧ t.mem = s.mem
      ∧ (t.ctx r.ctx).usedOf .launches = (s.ctx r.ctx).usedOf .launches - 1
    (∀ m, run.decrement = some m → ((∃ q ∈ s.reqs, q.n = m) → exec (.iterationEnd n) s = .next s)
      ∧ ((∀ q ∈ s.reqs, q.n ≠ m) → ∃ t, exec (.iterationEnd n) s = .next t ∧ isOver t ∧ t.cores = s.cores))
    ∧ (run.decrement = none → run.ended = true → s.allSettled run = false → exec (.iterationEnd n) s = .next s)
    ∧ (run.decrement = none → run.ended = false →
      (s.allExited run = false → exec (.iterationEnd n) s = .next s)
      ∧ (∀ k j c, s.allExited run = true → run.iteration + 1 < r.iterations → run.gangs = [(k, j, [c])] → run.template = [] →
          s.isStopped 8 r.ctx = false → PlainMemory s → NoWatcher s → (∀ x, (s.core x).park = []) →
          ∃ t, exec (.iterationEnd n) s = .next t ∧ (∀ x ∈ (t.die die).running, x.rec_.n = n → x.iteration = run.iteration + 1)
            ∧ (t.slot c 0).state = .ready ∧ (t.slot c 0).pc = r.code ∧ (t.core c).placed = some ⟨n, k * 2 ^ 16 + j, 0, false⟩
            ∧ t.word (bufAddr c .s (11 * 4096) + 8) = ⟨BitVec.ofNat 64 (widOf k j 0 (widFields (r.word 1)) (run.iteration + 1) 0), false⟩)
      ∧ (s.allExited run = true → r.iterations ≤ run.iteration + 1 → s.allSettled run = true →
          (r.done = 0 → ∃ t, exec (.iterationEnd n) s = .next t ∧ isOver t)
          ∧ (∀ a, r.done ≠ 0 → s.translateDirect r.ctx r.done .write = .ok (a, false, s) → PlainMemory s →
              ∃ (t : State) (q : Request), exec (.iterationEnd n) s = .next t ∧ t.reqs = s.reqs ++ [q] ∧ q.addr = a ∧ q.sig = some 1
                ∧ (∀ x ∈ (t.die die).running, x.rec_.n = n → x.decrement = some q.n ∧ x.clusters = []) ∧ t.mem = s.mem
                ∧ (t.ctx r.ctx).usedOf .launches = (s.ctx r.ctx).usedOf .launches))))

/-! ### The context tree -/

/-- CTX.NEW makes a child in the lowest free number: one deeper, stopped, at its next generation, with the block's fields, an empty
stage-2 array and its budgets carved from the issuer's; BADBLOCK, DEPTH, NOTHELD and BUDGET refuse it (R380, R403). What is charged
to which budget, and the order of the refusals, is the model's choice, log entries 7 and 19. -/
def Obligations.ContextCreated : Prop :=
  ∀ (s : State) (st : Stall) (d a : Reg) (ws : List Word), s.me.pend = [] → s.reqs = [] → s.treeOps = [] → PlainMemory s → s.Clean [a] →
    let u := released s .dev
    let me := s.me.ctx
    let k := s.ctx me
    let w (i : Nat) : Word := ws.getD i 0
    let site : Site := Site.mk (fieldOf (w 2) 24 2) (fieldOf (w 2) 8 5) (fieldOf (w 2) 16 5)
    let fails (n : Nat) : Out := .next (u.done 4 (s.wr d (BitVec.ofNat 64 (2 ^ 63 + n)) false))
    let block : List Tagged := ws.map fun x => ⟨x, false⟩
    let cost := (w 4).toNat + Config.metaBytes + Config.handleBytes * fieldOf (w 1) 0 20
    (s.reg a).val.toNat % 64 = 0 → ws.length = 8 → Holds u (s.reg a).val.toNat ws →
    (State.badCreation block = true → exec (.ctxNew st d a) s = fails 5)
    ∧ (State.badCreation block = false →
      (7 ≤ k.depth → exec (.ctxNew st d a) s = fails 6)
      ∧ ∀ n, k.depth < 7 → n < 65536 → (s.ctx n).live = false → (∀ m, m < n → (s.ctx m).live = true) → k.live = true → n ≠ me →
        (s.live site = false ∨ s.holder site ≠ (me, s.me.gen) → exec (.ctxNew st d a) s = fails 7)
        ∧ (s.live site = true → s.holder site = (me, s.me.gen) →
          (k.left .children = 0 → exec (.ctxNew st d a) s = .next (u.raise ⟨0x13, 0, 4, 1, .parent, 3, false, false⟩))
          ∧ (k.left .weight < fieldOf (w 3) 32 32 → k.left .children ≠ 0 →
              exec (.ctxNew st d a) s = .next (u.raise ⟨0x13, 0, 1, BitVec.ofNat 64 (fieldOf (w 3) 32 32), .parent, 3, false, false⟩))
          ∧ (fieldOf (w 3) 32 32 ≤ k.left .weight → 1 + fieldOf (w 3) 16 16 ≤ k.left .children → fieldOf (w 3) 0 16 ≤ k.left .launches →
              cost ≤ k.left .memBytes → (w 5).toNat ≤ k.left .poolPages →
              let gen := ((s.ctx n).gen + 1) % 256
              ∃ t : State, exec (.ctxNew st d a) s = .next (t.done 4 (s.wr d (BitVec.ofNat 64 (n * 2 ^ 16 + gen)) false))
                ∧ t.mem = s.mem ∧ (∀ m, m ≠ n → m ≠ me → t.ctx m = s.ctx m)
                ∧ (t.ctx n).live = true ∧ (t.ctx n).stopped = true ∧ (t.ctx n).everRun = false ∧ (t.ctx n).gen = gen
                ∧ (t.ctx n).depth = k.depth + 1 ∧ (t.ctx n).parent = me ∧ (t.ctx n).s2 = [] ∧ (t.ctx n).darr = 0 ∧ (t.ctx n).grants = []
                ∧ (t.ctx n).s1root = fieldOf (w 0) 12 28 ∧ (t.ctx n).s2len = fieldOf (w 1) 24 20 ∧ (t.ctx n).hcap = fieldOf (w 1) 0 20
                ∧ (t.ctx n).reflect = site ∧ (t.ctx n).prioMask = 0 ∧ (t.ctx n).dieMask = 0 ∧ (t.ctx n).used = []
                ∧ (t.ctx n).weight = fieldOf (w 3) 32 32 ∧ (t.ctx n).children = fieldOf (w 3) 16 16 ∧ (t.ctx n).launches = fieldOf (w 3) 0 16
                ∧ (t.ctx n).memBytes = (w 4).toNat ∧ (t.ctx n).poolPages = (w 5).toNat
                ∧ (t.ctx me).usedOf .weight = k.usedOf .weight + fieldOf (w 3) 32 32
                ∧ (t.ctx me).usedOf .children = k.usedOf .children + (1 + fieldOf (w 3) 16 16)
                ∧ (t.ctx me).usedOf .launches = k.usedOf .launches + fieldOf (w 3) 0 16
                ∧ (t.ctx me).usedOf .memBytes = k.usedOf .memBytes + cost
                ∧ (t.ctx me).usedOf .poolPages = k.usedOf .poolPages + (w 5).toNat
                ∧ (gen = 0 → ∀ c, ∀ e ∈ (t.core c).dtlb, e.ctx ≠ n))))

/-- CTX.GIVE and CTX.REVOKE of frames, cores and queues: each frame composed from the parent's entry, or a status for the first that
cannot be; every entry of a revoked range marked with V = 0 and RVK = 1, valid or not, and its translations gone from the TLBs; grant chains and launch rights extended and
withdrawn; NOTCHILD first. A child that is left stopped with nothing is retired, and its budgets return (R32, R40, R42, R378,
R381, R404). Who holds a core, which bits of SRC are reserved, what a grant over frames held before does, and what is charged, is
the model's choice, log entries 18 and 19. -/
def Obligations.ContextGrants : Prop :=
  ∀ (s : State) (st : Stall) (d a b : Reg) (w0 w1 w2 w3 : Word), s.me.pend = [] → s.reqs = [] → s.treeOps = [] → PlainMemory s → s.Clean [a, b] →
    let u := released s .dev
    let me := s.me.ctx
    let ends (t : State) (v : Nat) : Out := .next (t.done 8 (s.wr d (BitVec.ofNat 64 v) false))
    let block : List Tagged := [⟨w0, false⟩, ⟨w1, false⟩, ⟨w2, false⟩, ⟨w3, false⟩]
    let old (i : Nat) : Word := aget (s.ctx me).s2 0 (w1.toNat + i)
    let cnt := w3.toNat
    let dst := w2.toNat
    let named : List Site := (List.range cnt).map (fun j => Site.mk (fieldOf w1 24 2) (fieldOf w1 8 5) (fieldOf w1 16 5) + j)
    let sites := named.filter s.live
    (s.reg b).val.toNat % 32 = 0 → Holds u (s.reg b).val.toNat [w0, w1, w2, w3] →
    (s.childRef (s.reg a).val = none → exec (.ctxGive st d a b) s = ends u 1 ∧ exec (.ctxRevoke st d a b) s = ends u 1)
    ∧ ∀ n, s.childRef (s.reg a).val = some n → n ≠ me →
      (s.badGrant n block true = true → exec (.ctxGive st d a b) s = ends u 5)
      ∧ (s.badGrant n block false = true → exec (.ctxRevoke st d a b) s = ends u 5)
      ∧ (fieldOf w0 60 4 = 0 → s.badGrant n block true = false →
        (∀ i, i < cnt → (∀ j, j < i → (old j).getLsbD 0 = true) → (old i).getLsbD 0 = false →
          exec (.ctxGive st d a b) s = ends u (if (old i).getLsbD 11 then 3 else 2))
        ∧ ((∀ i, i < cnt → (old i).getLsbD 0 = true) → (∀ g ∈ (s.ctx me).grants, g.child ≠ n) → (s.ctx me).grants.length < 4096 →
            (s.ctx me).depth ≠ 0 → (s.ctx me).depth ≤ 7 →
            cnt * 2 ^ 21 + Config.grantBytes ≤ (s.ctx me).left .memBytes → cnt ≤ (s.ctx me).left .poolPages →
            ∃ t : State, exec (.ctxGive st d a b) s = ends t 0 ∧ (t.ctx me).s2 = (s.ctx me).s2 ∧ t.mem = s.mem
              ∧ (∀ g, (g < dst ∨ dst + cnt ≤ g) → aget (t.ctx n).s2 0 g = aget (s.ctx n).s2 0 g)
              ∧ (0 < cnt → ⟨n, w1.toNat, dst, cnt⟩ ∈ (t.ctx me).grants)
              ∧ ∀ i, i < cnt → ∀ j, j < 64 → (aget (t.ctx n).s2 0 (dst + i)).getLsbD j
                  = if j = 4 ∨ j = 11 then false
                    else if 1 ≤ j ∧ j ≤ 3 then (old i).getLsbD j && w0.getLsbD (j - 1)
                    else if j = 7 then w0.getLsbD 3
                    else if 8 ≤ j ∧ j ≤ 10 then (s.ctx me).depth.testBit (j - 8)
                    else (old i).getLsbD j))
      ∧ (fieldOf w0 60 4 = 0 → s.badGrant n block false = false → (s.ctx n).stopped = false → (s.ctx n).grants = [] →
          (s.ctx n).s2.Pairwise (fun x y => x.1 < y.1) → 0 < cnt → 2 * (s.ctx me).grants.length ≤ 4096 →
          ∃ t : State, exec (.ctxRevoke st d a b) s = ends t 0
            ∧ (∀ g, aget (t.ctx n).s2 0 g = if dst ≤ g ∧ g < dst + cnt
                then (aget (s.ctx n).s2 0 g &&& ~~~1) ||| 0x800 else aget (s.ctx n).s2 0 g)
            ∧ (∀ c, ∀ e ∈ (t.core c).dtlb ++ (t.core c).itlb, ¬(e.ctx = n ∧ e.gen = (s.ctx n).gen))
            ∧ ∀ g ∈ (t.ctx me).grants, g.child = n → g.cgfn + g.count ≤ dst ∨ dst + cnt ≤ g.cgfn ∨ g.count = 0)
      ∧ (fieldOf w0 60 4 = 1 → s.badGrant n block true = false →
          (∀ c ∈ sites, (s.core c).chain = (s.core s.cur.1).chain) → s.holder s.cur.1 = (me, s.me.gen) →
          (n, (s.ctx n).gen) ∉ (s.core s.cur.1).chain →
          (∀ c ∈ sites, (∀ x ∈ (s.core c).slots, x.2.state = .free) ∧ (s.core c).park = []) →
          2048 * sites.length ≤ (s.ctx me).left .memBytes →
          (∃ t : State, exec (.ctxGive st d a b) s = ends t 0 ∧ t.mem = s.mem
            ∧ ∀ c, (t.core c).chain = if c ∈ sites then (s.core c).chain ++ [(n, (s.ctx n).gen)] else (s.core c).chain))
      ∧ (fieldOf w0 60 4 = 1 → s.badGrant n block false = false → (s.ctx n).stopped = false → s.resQueue = [] → (∀ c, (s.core c).park = []) →
          let ref := (n, (s.ctx n).gen)
          (∀ c ∈ sites, (s.core c).group = none ∧ c ≠ s.cur.1) →
          ∃ t : State, exec (.ctxRevoke st d a b) s = ends t 0
            ∧ (∀ c, (t.core c).chain = if c ∈ sites then (s.core c).chain.takeWhile (fun x => x != ref) else (s.core c).chain)
            ∧ ∀ c ∈ sites, ref ∈ (s.core c).chain → ∀ i, (s.slot c i).ctx = n → (t.slot c i).state = .free)
      ∧ (fieldOf w0 60 4 = 2 →
          (s.badGrant n block true = false → ∃ t : State, exec (.ctxGive st d a b) s = ends t 0 ∧ { t with ctxs := s.ctxs } = u
            ∧ (t.ctx n).prioMask = (s.ctx n).prioMask ||| fieldOf w1 0 8 ∧ (t.ctx n).dieMask = (s.ctx n).dieMask ||| fieldOf w1 8 4
            ∧ ∀ m, m ≠ n → t.ctx m = s.ctx m)
          ∧ (s.badGrant n block false = false → (s.ctx n).stopped = false → ∃ t : State, exec (.ctxRevoke st d a b) s = ends t 0
            ∧ { t with ctxs := s.ctxs } = u
            ∧ (t.ctx n).prioMask = (s.ctx n).prioMask &&& (255 - fieldOf w1 0 8)
            ∧ (t.ctx n).dieMask = (s.ctx n).dieMask &&& (15 - fieldOf w1 8 4) ∧ ∀ m, m ≠ n → t.ctx m = s.ctx m)
          ∧ (s.badGrant n block false = false → (s.ctx n).stopped = true → (s.ctx n).prioMask &&& (255 - fieldOf w1 0 8) = 0 →
              (s.ctx n).dieMask &&& (15 - fieldOf w1 8 4) = 0 → (∀ x ∈ s.cores, (n, (s.ctx n).gen) ∉ x.2.chain) →
              (∀ x ∈ (s.ctx n).s2, x.2.getLsbD 0 = false) → (∀ x ∈ s.ctxs, x.2.live = true → x.2.depth ≠ 0 → x.2.parent ≠ n) →
              ∃ t : State, exec (.ctxRevoke st d a b) s = ends t 0 ∧ (t.ctx n).live = false ∧ (t.ctx n).gen = (s.ctx n).gen
                ∧ (t.ctx me).usedOf .children = (s.ctx me).usedOf .children - (1 + (s.ctx n).children)
                ∧ (t.ctx me).usedOf .weight = (s.ctx me).usedOf .weight - (s.ctx n).weight
                ∧ ∀ i, ∀ r ∈ (t.die i).queue, r.ctx ≠ n))

/-- CTX.RUN makes READY the HALTED slots of a stopped child, and of those of its descendants that their own parents left running, a
reading of R382 (log entry 18); CTX.STOP halts the slots of the child and its descendants and parks until
the halt completes; HALT_COMPLETE wakes the issuer with 0; of a running child, and of a stopped one, each changes nothing; an operation of the tree logic waits for an earlier one of its
partition (R43, R378, R382, R411). -/
def Sys2Proof.Spec.ContextRunStop : Prop :=
  (∀ (s : State) (st : Stall) (d a : Reg), s.me.pend = [] → s.reqs = [] → s.treeOps = [] → PlainMemory s → s.Clean [a] →
    let u := released s .dev
    let ends (t : State) (v : Nat) : Out := .next (t.done 4 (s.wr d (BitVec.ofNat 64 v) false))
    (s.childRef (s.reg a).val = none → exec (.ctxRun st d a) s = ends u 1 ∧ exec (.ctxStop st d a) s = ends u 1)
    ∧ ∀ n, s.childRef (s.reg a).val = some n →
      ((s.ctx n).stopped = false → exec (.ctxRun st d a) s = ends u 0)
      ∧ ((s.ctx n).stopped = true → exec (.ctxStop st d a) s = ends u 0)
      ∧ ((s.ctx n).stopped = true → (∀ m, s.inTree n 8 m = true → (s.ctx m).replies = []) → (∀ c ∈ s.cores, c.2.matrix = []) →
          (∀ c ∈ s.clusters, c.2.engine = []) → s.replies = [] → ∃ t : State, exec (.ctxRun st d a) s = ends t 0
          ∧ (t.ctx n).stopped = false ∧ (t.ctx n).everRun = true ∧ (∀ m, m ≠ n → t.ctx m = s.ctx m) ∧ t.mem = s.mem
          ∧ ∀ c i, (if (s.slot c i).state = .halted ∧ s.inTree n 8 (s.slot c i).ctx = true ∧ t.isStopped 8 (s.slot c i).ctx = false
                ∧ (s.slot c i).gen = (s.ctx (s.slot c i).ctx).gen
              then (t.slot c i).state = .ready ∧ (t.slot c i).cb = (s.slot c i).cb ∧ (t.slot c i).wp = (s.slot c i).wp
              else t.slot c i = u.slot c i))
      ∧ ((s.ctx n).stopped = false → (∀ c, (s.core c).park = []) → s.resQueue = [] → s.inTree n 8 s.me.ctx = false →
          ∃ t : State, exec (.ctxStop st d a) s = .next t ∧ t.me.state = .parked ∧ t.me.wait = some (.stop n d 4)
          ∧ (t.ctx n).stopped = true ∧ (t.ctx n).halting = true ∧ t.treeOps = [(s.partitionOf 8 s.me.ctx, s.cur.1, s.cur.2)]
          ∧ ∀ c i, s.inTree n 8 (s.slot c i).ctx = true → (s.slot c i).gen = (s.ctx (s.slot c i).ctx).gen →
              (s.slot c i).state = .ready ∨ (s.slot c i).state = .parked ∨ (s.slot c i).state = .faulted → (t.slot c i).state = .halted))
  ∧ (∀ (s : State) (n : Nat), (s.ctx n).halting = true → s.reqs = [] → (∀ c ∈ s.cores, c.2.matrix = []) → s.climbs = [] →
      ∃ t, exec (.haltComplete n) s = .next t
      ∧ (t.ctx n).halting = false ∧ ∀ c i d len, (s.slot c i).wait = some (.stop n d len) →
          (t.slot c i).state = .ready ∧ (t.slot c i).wait = none)
  ∧ (∀ (s : State) (n : Nat), (s.ctx n).halting = false → s.climbs = [] → exec (.haltComplete n) s = .next s)
  ∧ ∀ (s : State) (st : Stall) (d a : Reg) (c : Site) (i p : Nat) (sl : Slot), s.me.pend = [] → s.reqs = [] → s.Clean [a] →
      s.treeOps = [(p, c, i)] → (c, i) ≠ s.cur → p = s.partitionOf 8 s.me.ctx → s.slot c i = sl → sl.waitSince.isSome = true →
      (∃ n d' len, sl.wait = some (.stop n d' len)) → (∃ t : State, exec (.ctxRun st d a) s = .next t ∧ t.me.state = .parked
        ∧ t.me.wait = some .tree ∧ t.treeOps = [(p, c, i), (p, s.cur.1, s.cur.2)] ∧ t.ctxs = s.ctxs ∧ t.mem = s.mem)

/-- CTX.DIRTY copies 64 sub-bitmaps to memory and clears them, and returns how many bits it harvested; CTX.S2MAP narrows the
permissions of its frames and may set DT; its BEAD form enrols the frames too, and zeroes one that changes owner (R80, R384,
R385). That the entries are fields of the context, the order of the checks, and which TLB entries go, is the model's choice, log
entries 18 and 23. -/
def Obligations.ContextMaps : Prop :=
  ∀ (s : State) (st : Stall) (d a b c : Reg), s.me.pend = [] → s.reqs = [] → s.treeOps = [] → PlainMemory s → NoWatcher s → s.Clean [a, b, c] →
    let u := released s .dev
    let ends (t : State) (v : Nat) : Out := .next (t.done 8 (s.wr d (BitVec.ofNat 64 v) false))
    let first := (s.reg b).val.toNat
    ((s.childRef (s.reg a).val = none → exec (.ctxDirty st d a b c) s = ends u 1)
    ∧ ∀ n l, s.childRef (s.reg a).val = some n →
      ((s.reg c).val.toNat % 64 ≠ 0 → exec (.ctxDirty st d a b c) s = .next (u.raise ⟨5, 0, (s.reg c).val, 64, .own, 1, false, false⟩))
      ∧ ((s.reg c).val.toNat % 64 = 0 → NoReservation s → u.dirtyLines s.me.ctx (s.reg c).val 64 = .ok (l, u) → (∀ x ∈ l, x.2 = false) →
        (l.map (fun x => x.1)).Pairwise (fun x y => x + 64 ≤ y ∨ y + 64 ≤ x) →
        let sub (i : Nat) : BitVec 512 := if first + i < (s.ctx n).s2len ∧ (s.ctx n).darr ≠ 0 ∧ (aget (s.ctx n).s2 0 (first + i)).getLsbD 7
          then aget (s.ctx n).sub 0 (first + i) else 0
        ∃ t : State, exec (.ctxDirty st d a b c) s
            = ends t ((List.range 64).map fun i => ((List.range 512).filter (sub i).getLsbD).length).sum
          ∧ (∀ i, (h : i < l.length) → ∀ j, j < 64 → mget t.mem (l[i].1 + j) = BitVec.ofNat 8 ((sub i).toNat / 2 ^ (8 * j)))
          ∧ ∀ i, i < 64 → sub i ≠ 0 → aget (t.ctx n).sub 0 (first + i) = 0 ∧ ∀ x, ∀ e ∈ (t.core x).dtlb, ¬(e.ctx = n ∧ e.gen = (s.ctx n).gen)))
    ∧ ∀ w0 w1 w2 w3, first % 32 = 0 → Holds u first [w0, w1, w2, w3] →
      let own := decide ((s.reg a).val = 0)
      let gfn := w1.toNat
      let cnt := w2.toNat
      ((s.reg a).val ≠ 0 → s.childRef (s.reg a).val = none →
        exec (.ctxS2map st d a b) s = ends u 1 ∧ exec (.ctxS2mapBead st d a b) s = ends u 1)
      ∧ ∀ n, (if own then n = s.me.ctx else s.childRef (s.reg a).val = some n) →
        let bad : Prop := fieldOf w0 5 59 ≠ 0 ∨ fieldOf w3 48 16 ≠ 0 ∨ fieldOf w3 0 21 ≠ 0 ∨ (s.ctx n).s2len < gfn + cnt
        let old (g : Nat) : Word := aget (s.ctx n).s2 0 g
        let bead (g : Nat) : Bool := (old g).getLsbD 0 && (old g).getLsbD 5 && !(old g).getLsbD 6
        let mapped (t : State) : Prop := (∀ g j, j < 64 → (aget (t.ctx n).s2 0 g).getLsbD j = if g < gfn ∨ gfn + cnt ≤ g then (old g).getLsbD j
            else if 1 ≤ j ∧ j ≤ 3 then (old g).getLsbD j && w0.getLsbD (j - 1)
            else if j = 7 ∧ w0.getLsbD 4 = true then w0.getLsbD 3 else (old g).getLsbD j)
          ∧ ∀ x, ∀ e ∈ (t.core x).dtlb ++ (t.core x).itlb, ¬(e.ctx = n ∧ e.gen = (s.ctx n).gen)
        (bad → exec (.ctxS2map st d a b) s = ends u 5 ∧ exec (.ctxS2mapBead st d a b) s = ends u 5)
        ∧ (¬bad → own = true → w0.getLsbD 4 = true → exec (.ctxS2map st d a b) s = ends u 15)
        ∧ (¬bad → own = false ∨ w0.getLsbD 4 = false → ∃ t : State, exec (.ctxS2map st d a b) s = ends t 0 ∧ mapped t ∧ t.mem = s.mem ∧ t.enrol = s.enrol)
        ∧ (¬bad → (∃ g, gfn ≤ g ∧ g < gfn + cnt ∧ bead g = false) → exec (.ctxS2mapBead st d a b) s = ends u 5)
        ∧ (¬bad → (∀ g, gfn ≤ g → g < gfn + cnt → bead g = true) → own = false ∨ w0.getLsbD 4 = false → cnt = 1 →
          let e := old gfn
          let key := fieldOf e 12 8 * 2048 + fieldOf e 20 11
          let was := (aget s.enrol Enrol.reset key).rec_
          let same : Prop := was.getLsbD 0 = true ∧ fieldOf was 48 16 = n ∧ fieldOf was 40 8 = (s.ctx n).gen
          n < 2 ^ 16 → (s.ctx n).gen < 2 ^ 8 →
          ∃ t : State, exec (.ctxS2mapBead st d a b) s = ends t 0 ∧ mapped t
            ∧ (let r := (aget t.enrol Enrol.reset key).rec_
               fieldOf r 48 16 = n ∧ fieldOf r 40 8 = (s.ctx n).gen ∧ fieldOf r 13 27 = fieldOf w3 21 27 ∧ fieldOf r 0 1 = 1)
            ∧ (same → t.mem = s.mem)
            ∧ (¬same → ∀ x, x < 2 ^ 21 → mget t.mem (devAddr (s.physSlice (fieldOf e 12 8)) (2 ^ 32 - s.pkg.cbs + fieldOf e 20 11 * 2 ^ 21) + x) = 0))

/-- CTX.SAVE of a stopped child writes its image and the image's size, or on SPACE the size alone; a running child returns RUNNING.
CTX.LOAD restores an image of a child without cores into a stopped child that has never run, which takes the saved context's state
under its own number, generation and budgets, and writes the RENAME pair; a running child, one that has run, an image that is not one,
and one of another version are refused. The rest of an image's layout is the model's (log entry 20; R383, R415, R416, R419). -/
def Obligations.ContextSaveLoad : Prop :=
  ∀ (s : State) (st : Stall) (d a b : Reg) (n : Nat), s.me.pend = [] → s.reqs = [] → s.treeOps = [] → PlainMemory s → NoWatcher s → NoReservation s → s.Clean [a, b] →
    s.childRef (s.reg a).val = some n →
    let u := released s .dev
    let va := (s.reg b).val
    let k := s.ctx n
    let ends (t : State) (v : Nat) : Out := .next (t.done 8 (s.wr d (BitVec.ofNat 64 v) false))
    let words (m : Nat) (bs : List Byte) : List Nat := (List.range m).map fun j => bytesNat ((bs.drop (8 * j)).take 8)
    (∀ base cap, va.toNat % 16 = 0 → Holds u va.toNat [base, cap] →
      (k.stopped = false → exec (.ctxSave st d a b) s = ends u 9)
      ∧ (k.stopped = true → (∀ x ∈ s.clusters, x.2.engine = []) → (∀ x ∈ s.cores, x.2.matrix = []) →
        (base.toNat % 4096 ≠ 0 → exec (.ctxSave st d a b) s = ends u 5)
        ∧ (base.toNat % 4096 = 0 → ∀ p8, p8 % 8 = 0 → Writes u (va.toNat + 8) p8 →
          n < 2 ^ 16 → k.gen < 2 ^ 8 → k.depth < 8 → (s.treeOf n).length < 2 ^ 16 → (s.coresOf n).length < 2 ^ 16 →
          ∃ bs : List Byte, words 6 bs = [0x100, bs.length % 2 ^ 64, s.pkg.feat.toNat % 2 ^ 64, s.pkg.feat.toNat / 2 ^ 64,
              n * 2 ^ 48 + k.gen * 2 ^ 40 + k.depth * 2 ^ 37 + (s.treeOf n).length, (s.coresOf n).length * 2 ^ 32 + s.liveSlices]
            ∧ (cap.toNat < bs.length → ∃ t : State, exec (.ctxSave st d a b) s = ends t 13
                ∧ t.word p8 = ⟨BitVec.ofNat 64 bs.length, false⟩ ∧ ∀ x, (x < p8 ∨ p8 + 8 ≤ x) → mget t.mem x = mget s.mem x)
            ∧ (bs.length ≤ cap.toNat → ∀ p, (∀ j, j < bs.length → j % 4096 = 0 → Writes u (base.toNat + j) (p + j)) →
                base.toNat + bs.length ≤ 2 ^ 48 → p8 + 8 ≤ p ∨ p + bs.length ≤ p8 →
                ∃ t : State, exec (.ctxSave st d a b) s = ends t 0 ∧ t.word p8 = ⟨BitVec.ofNat 64 bs.length, false⟩
                  ∧ ∀ j, (h : j < bs.length) → mget t.mem (p + j) = bs[j]))))
    ∧ (va.toNat % 4096 ≠ 0 → exec (.ctxLoad st d a b) s = .next (s.raise ⟨5, 0, va, 4096, .own, 0, false, false⟩))
    ∧ (va.toNat % 4096 = 0 → k.stopped = false ∨ k.everRun = true → exec (.ctxLoad st d a b) s = ends u 9)
    ∧ (∀ (img : Image) (c0 p : Nat) (k0 : Ctx) (id : Word), va.toNat % 4096 = 0 → k.stopped = true → k.everRun = false →
      let head : List Word := [0x100, 320, s.pkg.feat.setWidth 64, (s.pkg.feat >>> 64).setWidth 64, id, 0, 0, 0]
        ++ (List.replicate 11 [256, 0]).flatten ++ [256, 16]
      fieldOf id 0 16 = 1 → s.images = [img] → img.key = head.flatMap (fun w => leBytesOf 8 w.toNat) → img.child = c0 → img.ctxs = [(c0, k0)] →
      img.frames = [] → img.cores = [] → img.churn = [] → img.red = [] → img.enrol = [] → img.queue = [] → img.running = [] → img.pass = [] →
      k0.used = [] → s.myCtx.depth < 7 → s.myCtx.grants.length ≤ 4096 →
      Config.handleBytes * k0.hcap ≤ s.myCtx.left .memBytes + Config.handleBytes * k.hcap → Holds u va.toNat (head ++ List.replicate 8 0) → Writes u (va.toNat + 256) p → p % 8 = 0 → n ≠ s.me.ctx →
      ∃ t : State, exec (.ctxLoad st d a b) s = ends t 0
        ∧ (t.ctx n).s1root = k0.s1root ∧ (t.ctx n).hcap = k0.hcap ∧ (t.ctx n).handles = k0.handles ∧ (t.ctx n).arena0 = k0.arena0
        ∧ (t.ctx n).redrgn = k0.redrgn ∧ (t.ctx n).stopped = true ∧ (t.ctx n).live = true ∧ (t.ctx n).gen = k.gen
        ∧ (t.ctx n).depth = s.myCtx.depth + 1 ∧ (t.ctx n).parent = s.me.ctx ∧ (t.ctx n).weight = k.weight ∧ (t.ctx n).memBytes = k.memBytes
        ∧ t.word p = ⟨BitVec.ofNat 64 (c0 * 2 ^ 16 + k0.gen), false⟩ ∧ t.word (p + 8) = ⟨BitVec.ofNat 64 (n * 2 ^ 16 + k.gen), false⟩)
    ∧ (∀ ws : List Word, va.toNat % 4096 = 0 → k.stopped = true → k.everRun = false → ws.length = 32 → Holds u va.toNat ws →
      (State.badImage (ws.flatMap fun w => leBytesOf 8 w.toNat) = true → exec (.ctxLoad st d a b) s = ends u 14))

/-- A reply is dropped for another generation, completes the slot that waits for it, lands its status where the slot waits for another
or for none, tells a loaded slot of its trap, and is kept for a context
that is stopped while it holds the core (R412, R413). -/
def Sys2Proof.Spec.ReplyHandling : Prop :=
  ∀ (s : State) (r : Reply), s.replies = [r] →
    let u : State := { s with replies := [] }
    let sl := s.slot r.core r.slot
    let mine : Prop := sl.ctx = r.ctx ∧ sl.gen = r.gen
    let holds : Prop := (r.ctx, r.gen) ∈ (s.core r.core).chain
      ∨ ((s.ctx r.ctx).live = true ∧ (s.ctx r.ctx).depth = 0 ∧ (s.ctx r.ctx).gen = r.gen)
    let writes : List WordWrite := match r.status with
      | some (d, v) => if d = 0 then [] else
          [⟨.word (bufAddr r.core (if r.wp.toNat ≥ 16 then .s else .a) (r.wp.toNat % 16 * 4096) + 8 * d.toNat), ⟨v, false⟩, BitVec.allOnes 64⟩]
      | none => []
    ((s.ctx r.ctx).gen ≠ r.gen → exec (.replyArrival r.n) s = .next u)
    ∧ ((s.ctx r.ctx).gen = r.gen →
      (mine → sl.state = .parked → r.trap = none → r.status.isSome = true → ∀ i d len, sl.wait = some (.pool i d len) →
        exec (.replyArrival r.n) s = .next (if i = r.n then u.complete r.core r.slot len writes else u.landAll r.core r.slot writes))
      ∧ (mine → (sl.state = .ready ∨ sl.state = .parked) → ∀ t, r.trap = some t →
        exec (.replyArrival r.n) s = .next (u.raiseAt r.core r.slot t))
      ∧ (sl.state = .halted → ¬holds → exec (.replyArrival r.n) s = .next u)
      ∧ (sl.state = .halted → holds → (s.ctx r.ctx).replies = [] → ∃ t : State, exec (.replyArrival r.n) s = .next t
          ∧ (t.ctx r.ctx).replies = [r] ∧ t.mem = s.mem ∧ t.cores = s.cores)
      ∧ (sl.state = .free → s.isStopped 8 r.ctx = false → exec (.replyArrival r.n) s = .next u))

/-! ### System registers and invalidation -/

/-- CSRR returns the register its number names at distance 1, with the tag of a held control-block word; CSRW changes the writable
bits of a control-block word and no other and keeps its tag, clamps VL to 128, and leaves a read-only register alone; of either, a
number that is not listed raises ILL (R165, R208, R209, R210, R386). That a CSRR of a held word carries its tag is the model's choice, log entry 7. -/
def Sys2Proof.Spec.SystemRegisters : Prop :=
  ∀ (s : State) (st : Stall) (d a : Reg) (csr : BitVec 12), s.me.pend = [] → s.Clean [a] →
    let n := csr.toNat
    let v := (s.reg a).val
    let c := s.cur.1
    let gives (x : Word) (p : Bool) : Prop := exec (.csrr st d csr) s = .next (s.results st 8 [(1, s.wr d x p)])
    let writable (j : Nat) : Bool :=
      if n = 0 ∨ n = 12 ∨ n = 14 ∨ 32 ≤ n then false
      else if n = 1 then j == 0 || decide (4 ≤ j ∧ j ≤ 7) || decide (16 ≤ j ∧ j ≤ 23)
      else if n = 13 then decide (j ≤ 4) || j == 8
      else if n = 16 then decide (j ≤ 23)
      else if n = 17 then decide (j ≤ 15) || decide (20 ≤ j ∧ j ≤ 31) || decide (40 ≤ j)
      else if n = 20 then decide (32 ≤ j) else true
    (n < 32 → n ≠ 20 → gives (s.me.cbWord n) (s.me.cbPoison.contains n))
    ∧ (n = 20 → ∃ x, gives x (s.me.cbPoison.contains 20) ∧ ∀ j, j < 64 → x.getLsbD j = (decide (j < 32) || (s.me.cbWord 20).getLsbD j))
    ∧ (n = 0x20 → gives (s.me.wp.setWidth 64) false)
    ∧ (n = 0x100 → gives (BitVec.ofNat 64 s.cyc) false)
    ∧ (n = 0x101 → gives (BitVec.ofNat 64 (s.logical c)) false)
    ∧ (n = 0x102 → gives (BitVec.ofNat 64 (c / 1024 * 2 ^ 24 + c / 32 % 32 * 2 ^ 16 + c % 32 * 2 ^ 8 + s.cur.2)) false)
    ∧ (n = 0x103 → gives s.pkg.xsplit false)
    ∧ (n = 0x104 → gives (BitVec.ofNat 64 (s.pkg.featAdv.toNat % 2 ^ 64)) false)
    ∧ (n = 0x105 → gives (BitVec.ofNat 64 (s.pkg.featAdv.toNat / 2 ^ 64)) false)
    ∧ (n = 0x106 → gives (BitVec.ofNat 64 (s.pkg.feat.toNat % 2 ^ 64)) false)
    ∧ (n = 0x107 → gives (BitVec.ofNat 64 (s.pkg.feat.toNat / 2 ^ 64)) false)
    ∧ (n = 0x108 → gives (BitVec.ofNat 64 (s.myCtx.depth * 2 ^ 32 + s.me.ctx * 2 ^ 16 + s.me.gen)) false)
    ∧ (n = 0x110 → gives s.myCtx.arena1 false)
    ∧ (n = 0x111 → gives s.myCtx.redrgn false)
    ∧ (n = 0 ∨ n = 12 ∨ n = 14 ∨ n = 0x20 ∨ (0x100 ≤ n ∧ n ≤ 0x108 ∧ n ≠ 0x103 ∧ n ≠ 0x106 ∧ n ≠ 0x107) → exec (.csrw st a csr) s = .next (s.retire st 8))
    ∧ (n < 32 → n ≠ 0 → n ≠ 12 → n ≠ 14 → ∃ t : State, exec (.csrw st a csr) s = .next (t.retire st 8) ∧ OnlySlot s t
        ∧ (∀ j, j ≠ n → t.me.cbWord j = s.me.cbWord j) ∧ t.me.cbPoison = s.me.cbPoison ∧ t.me.pend = []
        ∧ (∀ j, j < 64 → ¬(n = 1 ∧ 128 < v.toNat / 2 ^ 16 % 2 ^ 8 ∧ 16 ≤ j ∧ j ≤ 23) →
            (t.me.cbWord n).getLsbD j = if writable j then v.getLsbD j else (s.me.cbWord n).getLsbD j)
        ∧ (n = 1 → 128 < v.toNat / 2 ^ 16 % 2 ^ 8 → t.me.vl = 128))
    ∧ ((0x20 < n ∧ n < 0x100) ∨ (0x108 < n ∧ n ≠ 0x110 ∧ n ≠ 0x111) →
      (∃ w, exec (.csrr st d csr) s = .next (s.raise ⟨1, 0, w, 0, .own, 3, false, false⟩))
      ∧ ∃ w, exec (.csrw st a csr) s = .next (s.raise ⟨1, 0, w, 0, .own, 3, false, false⟩))

/-- The registers whose write has an effect of its own: ARENA starts the arena anew or leaves it alone; REDRGN takes a region it can
register, and else reads 0; XSPLIT and FEAT are the root's, FEAT until the root has created a partition (R103, R127, R272, R387, R388,
R436). Four points are the model's choice: that a descriptor with a poisoned word leaves the arena alone and that ARENA settles the
slot's earlier accesses first (log entry 28), what a region costs (log entry 19), and that a count above 256 registers none (log
entry 22). -/
def Sys2Proof.Spec.SystemWrites : Prop :=
  ∀ (s : State) (st : Stall) (a : Reg), s.me.pend = [] → s.reqs = [] → PlainMemory s → s.Clean [a] →
    let u := released s .dev
    let v := (s.reg a).val
    let k := s.ctx s.me.ctx
    (∀ w0 w1, v.toNat % 16 = 0 → Holds u v.toNat [w0, w1] → (∀ c i, (s.slot c i).wait ≠ some .strand) →
      (w0.toNat < 2 ^ 48 → w0.toNat % 2 ^ 16 = 0 → w1.toNat < 2 ^ 20 → w1 ≠ 0 → ∃ t : State, exec (.arenaInit st a) s = .next (t.retire st 8)
        ∧ { t with ctxs := s.ctxs } = u ∧ (t.ctx s.me.ctx).arena0 = w0 ∧ fieldOf (t.ctx s.me.ctx).arena1 0 20 = w1.toNat
        ∧ fieldOf (t.ctx s.me.ctx).arena1 52 12 = (if fieldOf k.arena1 52 12 = 4095 then 1 else fieldOf k.arena1 52 12 + 1)
        ∧ (t.ctx s.me.ctx).arena1.getLsbD 51 = false ∧ (t.ctx s.me.ctx).arenaUsed = [] ∧ (t.ctx s.me.ctx).frees = []
        ∧ ∀ m, m ≠ s.me.ctx → t.ctx m = s.ctx m)
      ∧ (2 ^ 48 ≤ w0.toNat ∨ w0.toNat % 2 ^ 16 ≠ 0 ∨ 2 ^ 20 ≤ w1.toNat ∨ w1 = 0 → exec (.arenaInit st a) s = .next (u.retire st 8)))
    ∧ (let cost := fieldOf v 48 9 * s.logical 4096 * Config.redSlotBytes
       k.redrgn = 0 → (∀ x ∈ k.handles, ∀ w0 w1, x.2.2 ≠ .master w0 w1) → v.toNat < 2 ^ 57 →
       (fieldOf v 48 9 = 0 ∨ 256 < fieldOf v 48 9 ∨ v.toNat % 8 ≠ 0 → ∃ t : State, exec (.redrgnWrite st a) s = .next (t.retire st 8)
          ∧ (t.ctx s.me.ctx).redrgn = 0 ∧ { t with ctxs := s.ctxs } = s)
       ∧ (1 ≤ fieldOf v 48 9 → fieldOf v 48 9 ≤ 256 → v.toNat % 8 = 0 → cost ≤ k.left .memBytes → ∃ t : State,
          exec (.redrgnWrite st a) s = .next (t.retire st 8) ∧ (t.ctx s.me.ctx).redrgn = v
          ∧ (t.ctx s.me.ctx).usedOf .memBytes = k.usedOf .memBytes + cost ∧ { t with ctxs := s.ctxs } = s)
       ∧ (1 ≤ fieldOf v 48 9 → fieldOf v 48 9 ≤ 256 → v.toNat % 8 = 0 → k.left .memBytes < cost →
          exec (.redrgnWrite st a) s = .next (s.raise ⟨0x13, 0, 2, BitVec.ofNat 64 cost, .parent, 3, false, false⟩)))
    ∧ (k.depth = 0 → exec (.xsplitWrite st a) s = .next (({ s with pkg := { s.pkg with xsplit := BitVec.ofNat 64 (min 16 (v.toNat % 32)) } }).retire st 8))
    ∧ (k.depth ≠ 0 → exec (.xsplitWrite st a) s = .next (s.retire st 8))
    ∧ (∀ hi : Bool, (k.depth ≠ 0 ∨ s.pkg.partitioned = true → exec (.featWrite st a hi) s = .next (s.retire st 8))
      ∧ (k.depth = 0 → s.pkg.partitioned = false → ∃ f : BitVec 128,
          exec (.featWrite st a hi) s = .next (({ s with pkg := { s.pkg with feat := f } }).retire st 8)
          ∧ ∀ j, j < 128 → f.getLsbD j = if j = 0 then true
              else if decide (64 ≤ j) == hi then v.getLsbD (j % 64) && s.pkg.featAdv.getLsbD j
              else s.pkg.feat.getLsbD j && s.pkg.featAdv.getLsbD j))

/-- TLBINV removes from every TLB in its scope the entries its selector names, and every cached table entry of the selected context, and
keeps every other; ICINV removes lines of the instruction caches. Both complete once nothing of the slot is outstanding; while a site in
its scope has an access that no bank has accepted, TLBINV waits for that site's echo, and completes with the last one (R37, R286,
R391). That every unaccepted access of a site counts, not only one under a removed entry, is the model's choice, log entry 28. -/
def Obligations.Invalidations : Prop :=
  (∀ (s : State) (st : Stall) (a : Reg) (sc : Scope), s.me.pend = [] → s.Clean [a] →
    let v := (s.reg a).val
    let sel := v.toNat / 2 ^ 62
    let child := v.toNat / 2 ^ 16 % 2 ^ 16
    let who (n g : Nat) : Prop := if sel = 2
      then v.toNat / 2 ^ 8 % 2 ^ 8 = 0 ∧ (s.ctx child).live = true ∧ (s.ctx child).depth ≠ 0 ∧ (s.ctx child).parent = s.me.ctx
        ∧ (s.ctx child).gen = v.toNat % 2 ^ 8 ∧ n = child ∧ g = (s.ctx child).gen
      else n = s.me.ctx ∧ g = s.me.gen
    let page := v.toNat / 2 ^ 12 % 2 ^ 36 * 4096
    let picks (e : TlbEntry) : Prop := who e.ctx e.gen ∧ (sel = 0 → e.page ≤ page ∧ page < e.page + e.size)
    let picksLine (l : ILine) : Prop := who l.ctx l.gen ∧ (sel = 0 → l.line / 64 = page / 4096)
    let core (c : Site) : Prop := match sc with
      | .ctx | .core => c = s.cur.1
      | .clu => Site.cluster c = Site.cluster s.cur.1
      | .die => c / 1024 = s.cur.1 / 1024
      | .dev | .pool => True
    let cluster (n : Nat) : Prop := match sc with
      | .ctx | .core | .clu => n = Site.cluster s.cur.1
      | .die => n / 128 = s.cur.1 / 1024
      | .dev | .pool => True
    let removed (t : State) : Prop := t.mem = s.mem
      ∧ (∀ c e, e ∈ (t.core c).dtlb ↔ e ∈ (s.core c).dtlb ∧ ¬(core c ∧ picks e))
      ∧ (∀ c e, e ∈ (t.core c).itlb ↔ e ∈ (s.core c).itlb ∧ ¬(core c ∧ picks e))
      ∧ (∀ n e, .leaf e ∈ (t.cluster n).l2 ↔ .leaf e ∈ (s.cluster n).l2 ∧ ¬(cluster n ∧ picks e))
      ∧ (∀ n e, .table e ∈ (t.cluster n).l2 ↔ .table e ∈ (s.cluster n).l2 ∧ ¬(cluster n ∧ who e.ctx e.gen))
      ∧ ∀ c l, core c → picksLine l → l ∉ (t.core c).icache
    (s.reqs = [] → ∃ t : State, exec (.tlbinv st a sc) s = .next (t.done 8 []) ∧ removed t)
    ∧ ((∀ q ∈ s.reqs, (q.core, q.slot) ≠ s.cur) → (∃ q ∈ s.reqs, core q.core) →
      ∃ (t : State) (l : List Site), exec (.tlbinv st a sc) s = .next t ∧ removed t ∧ t.reqs = s.reqs ∧ t.me.state = .parked
        ∧ t.me.wait = some (.echoes l 0 0 8) ∧ ∀ x, x ∈ l ↔ core x ∧ ∃ q ∈ s.reqs, q.core = x)
    ∧ (s.reqs = [] → (s.core s.cur.1).matrix = [] → ∃ t : State, exec (.icinv st a sc) s = .next (t.done 8 []) ∧ t.mem = s.mem
      ∧ (∀ c, (t.core c).dtlb = (s.core c).dtlb ∧ (t.core c).itlb = (s.core c).itlb)
      ∧ (∀ n, (t.cluster n).l2 = (s.cluster n).l2)
      ∧ (∀ c l, l ∈ (t.core c).icache ↔ l ∈ (s.core c).icache ∧ ¬(core c ∧ picksLine l))
      ∧ ∀ n l, l ∈ (t.cluster n).icache ↔ l ∈ (s.cluster n).icache ∧ ¬(cluster n ∧ picksLine l))
    ∧ (sc = .ctx ∨ sc = .core → (∃ e ∈ (s.core s.cur.1).matrix, e.slot = s.cur.2) → ∃ t : State, exec (.icinv st a sc) s = .next t
      ∧ t.me.state = .parked ∧ ∀ c, (t.core c).icache = (s.core c).icache))
  ∧ ∀ (s : State) (c : Site) (i : Nat) (target : Site) (l : List Site) (d : Reg) (r : Word) (len : Nat),
    (s.slot c i).wait = some (.echoes l d r len) →
    ((∃ q ∈ s.reqs, q.core = target) → exec (.shootdownEcho c i target) s = .next s)
    ∧ ((∀ q ∈ s.reqs, q.core ≠ target) → l = [target] →
        exec (.shootdownEcho c i target) s = .next (s.complete c i len (s.regWrite c i d ⟨r, false⟩)))
    ∧ ((∀ q ∈ s.reqs, q.core ≠ target) → ∀ x ∈ l, x ≠ target → ∃ (t : State) (l' : List Site),
        exec (.shootdownEcho c i target) s = .next t ∧ (t.slot c i).wait = some (.echoes l' d r len) ∧ target ∉ l' ∧ t.mem = s.mem
        ∧ ∀ y, y ≠ target → (y ∈ l' ↔ y ∈ l))

/-! ### Exceptions -/

/-- A trap of a slot whose owner is its own control context: the slot is FAULTED with its fault record in the control block and its PC
saved; slot 0 enters the handler's workspace at the PC kept there with UM = 1, w1 the faulting slot, w2 its workspace and w3 the
interrupted one; while a handler runs the slot is queued (R165, R211, R221, R222). BRK raises such a trap at the next instruction,
TRAP one that the parent takes (R232, R389). In what order kept traps come, and what a bad UPV code does, is the model's choice, log
entries 8 and 31. -/
def Sys2Proof.Spec.ExceptionEntry : Prop :=
  (∀ (s : State) (c : Site) (i : Nat) (tr : Trap), tr.owner = .own → tr.cause ≠ 0x15 ∨ tr.detail ≠ 1 → tr.cause < 2 ^ 8 → tr.detail < 2 ^ 8 → tr.acc < 4 → i < 11 →
    let sl := s.slot c i
    let z := s.slot c 0
    let ws (wp : BitVec 5) : Nat := bufAddr c (if wp.toNat ≥ 16 then .s else .a) (wp.toNat % 16 * 4096)
    let hwp : BitVec 5 := (z.cbWord 13).setWidth 5
    sl.state = .ready → z.state = .ready → sl.pend = [] → z.pend = [] → sl.wp ≠ hwp → z.wp ≠ hwp → (i ≠ 0 → sl.wp ≠ z.wp) →
    sl.ctx < 2 ^ 16 → sl.gen < 2 ^ 8 → (s.ctx sl.ctx).depth < 8 →
    let recorded (t : State) (o : Nat) (w : Word) : Prop := t.word (ws sl.wp + 0xA00 + o) = ⟨w, sl.cbPoison.contains (o / 8)⟩
    let record (t : State) : Prop := recorded t 0 sl.pc ∧ recorded t 0x90 tr.addr ∧ recorded t 0x98 tr.info
      ∧ ∃ f, recorded t 0x88 f ∧ fieldOf f 0 8 = tr.cause ∧ fieldOf f 8 8 = tr.detail ∧ fieldOf f 20 4 = (s.ctx sl.ctx).depth
        ∧ f.getLsbD 24 = tr.straddle ∧ f.getLsbD 25 = tr.ovf ∧ fieldOf f 26 2 = tr.acc ∧ fieldOf f 28 4 = i ∧ fieldOf f 40 8 = sl.gen
        ∧ fieldOf f 48 16 = sl.ctx
    ((z.cbWord 13).getLsbD 8 = true → hwp.toNat < 16 ∨ hwp.toNat % 16 < 12 → z.um = false →
      ∃ t, s.raiseAt c i tr = t ∧ record t ∧ t.ctxs = s.ctxs ∧ t.reqs = s.reqs ∧ t.pkg = s.pkg
        ∧ (i ≠ 0 → (t.slot c i).state = .faulted ∧ (t.slot c i).wp = sl.wp)
        ∧ (t.core c).interrupted = z.wp ∧ (t.slot c 0).state = .ready ∧ (t.slot c 0).wp = hwp ∧ (t.slot c 0).um = true
        ∧ (t.slot c 0).pc = (s.word (ws hwp + 0xA00)).val
        ∧ t.word (ws hwp + 8) = ⟨BitVec.ofNat 64 i, false⟩ ∧ t.word (ws hwp + 16) = ⟨sl.wp.setWidth 64, false⟩
        ∧ t.word (ws hwp + 24) = ⟨z.wp.setWidth 64, false⟩ ∧ ∀ x j, (x, j) ≠ (c, i) → (x, j) ≠ (c, 0) → sansMonitors (t.slot x j) = sansMonitors (s.slot x j))
    ∧ ((z.cbWord 13).getLsbD 8 = true → hwp.toNat < 16 ∨ hwp.toNat % 16 < 12 → z.um = true → i ≠ 0 →
      ∃ t, s.raiseAt c i tr = t ∧ record t ∧ (t.slot c i).state = .faulted ∧ (t.slot c i).queued = true
        ∧ ∀ x j, (x, j) ≠ (c, i) → sansMonitors (t.slot x j) = sansMonitors (s.slot x j)))
  ∧ (∀ (s : State) (st : Stall) (n : BitVec 16),
    exec (.brk st n) s = .next ((s.retire st 8).raiseAt s.cur.1 s.cur.2 ⟨0x14, 0, BitVec.ofNat 64 n.toNat, 0, .own, 3, false, false⟩)
    ∧ exec (.trap st n) s
      = .next ((s.retire st 8).raiseAt s.cur.1 s.cur.2 ⟨0x14, 0, BitVec.ofNat 64 (0x10000 + n.toNat), 0, .parent, 3, false, false⟩))

/-- A trap that its parent owns stops the context, records the fault in the slot with the receiver's depth, and is taken at the
parent's reflection target, or is kept there while that slot is HALTED with the parent; past the root's children it reaches Akmon
(R225, R230, R231). Which reflection target takes the trap is the model's choice, log entry 16. -/
def Sys2Proof.Spec.TrapReflection : Prop :=
  ∀ (s : State) (c : Site) (i : Nat) (tr : Trap),
    let sl := s.slot c i
    let k := s.ctx sl.ctx
    let p := k.parent
    let r := k.reflect
    tr.owner = .parent → tr.cause ≠ 0x15 → i < 11 → sl.state = .ready → sl.gen = k.gen → 1 ≤ k.depth → (s.ctx p).depth + 1 = k.depth → k.depth < 8 → (∀ x, (s.core x).park = []) →
    s.resQueue = [] → s.reqs = [] → (∀ x ∈ s.cores, x.2.matrix = []) → p ≠ sl.ctx → s.inTree sl.ctx 8 p = false →
    ∃ t, s.raiseAt c i tr = t ∧ (t.ctx sl.ctx).stopped = true ∧ (t.slot c i).state = .halted
      ∧ (t.slot c i).cbWord 18 = tr.addr ∧ (t.slot c i).cbWord 19 = tr.info ∧ fieldOf ((t.slot c i).cbWord 17) 0 8 = tr.cause % 2 ^ 8
      ∧ (let z := s.slot r 0
         let here : Prop := z.ctx = p ∧ z.gen = (s.ctx p).gen
         (here → z.state = .ready → z.pend = [] → (z.cbWord 13).getLsbD 8 = true → State.wpOk (z.cbWord 13) = true → z.um = false →
            (t.slot r 0).um = true ∧ (t.slot r 0).wp = (z.cbWord 13).setWidth 5 ∧ (t.slot r 0).state = .ready ∧ t.pkg = s.pkg
            ∧ fieldOf ((t.slot c i).cbWord 17) 20 4 = (s.ctx p).depth)
         ∧ (here → z.state = .halted → ⟨tr, some ⟨sl.ctx, sl.gen, c, i⟩⟩ ∈ (t.slot r 0).kept ∧ t.pkg = s.pkg
            ∧ fieldOf ((t.slot c i).cbWord 17) 20 4 = (s.ctx p).depth)
         ∧ (z.state = .free → k.depth = 1 → t.pkg.akmon = ⟨tr, sl.ctx, sl.gen, i⟩ :: s.pkg.akmon))

/-- UPRET loads the faulted slot with its workspace, which goes on from the PC kept there, and slot 0 with the interrupted one, with
UM = 0; h = 0 resumes slot 0 on the workspace named; with another slot queued the handler is entered again; UM = 0, a slot that is
not FAULTED and a bad workspace code trap (R223, R390). That the workspace operand's bits above [4:0] are ignored is the model's
choice, log entry 8. -/
def Sys2Proof.Spec.UpcallReturn : Prop :=
  ∀ (s : State) (st : Stall) (a b : Reg), s.cur.2 = 0 → s.me.pend = [] → s.replies = [] → (∀ x ∈ s.clusters, x.2.engine = []) →
    s.Clean [a, b] →
    let c := s.cur.1
    let h := (s.reg a).val.toNat
    let wp : BitVec 5 := (s.reg b).val.setWidth 5
    let back := (s.core c).interrupted
    let ws (x : BitVec 5) : Nat := bufAddr c (if x.toNat ≥ 16 then .s else .a) (x.toNat % 16 * 4096)
    (s.me.um = false ∨ 10 < h ∨ (h ≠ 0 ∧ (s.slot c h).state ≠ .faulted) →
      ∃ w, exec (.upret st a b) s = .next (s.raise ⟨1, 0, w, 0, .own, 3, false, false⟩))
    ∧ (s.me.um = true → h ≤ 10 → (h ≠ 0 → (s.slot c h).state = .faulted) →
      (16 ≤ wp.toNat → 12 ≤ wp.toNat % 16 →
        exec (.upret st a b) s = .next (s.raise ⟨4, 0xC, (s.reg b).val, 0, .own, 3, false, false⟩))
      ∧ ((wp.toNat < 16 ∨ wp.toNat % 16 < 12) → wp ≠ s.me.wp → back ≠ s.me.wp →
        ((∀ j, 1 ≤ j → j ≤ 10 → j ≠ h → (s.slot c j).queued = false) → s.me.queued = false → ∃ t : State, exec (.upret st a b) s = .next t
          ∧ (h ≠ 0 → (t.slot c h).state = .ready ∧ (t.slot c h).wp = wp ∧ (t.slot c h).pc = (s.word (ws wp + 0xA00)).val
              ∧ (t.slot c h).queued = false ∧ (t.slot c 0).wp = back ∧ (t.slot c 0).pc = (s.word (ws back + 0xA00)).val)
          ∧ (h = 0 → (t.slot c 0).wp = wp ∧ (t.slot c 0).pc = (s.word (ws wp + 0xA00)).val)
          ∧ (t.slot c 0).state = .ready ∧ (t.slot c 0).um = false
          ∧ ∀ x j, x ≠ c → sansMonitors (t.slot x j) = sansMonitors (s.slot x j))
        ∧ (∀ q, 1 ≤ q → q ≤ 10 → q ≠ h → (s.slot c q).queued = true → (s.slot c q).state = .faulted → s.me.queued = false →
            (∀ j, 1 ≤ j → j < q → j ≠ h → (s.slot c j).queued = false) → h ≠ 0 →
            (s.word (ws back + 0xA68)).val.getLsbD 8 = true → (s.word (ws back + 0xA68)).val.toNat % 32 < 16 →
            ∃ t : State, exec (.upret st a b) s = .next t ∧ (t.slot c 0).um = true ∧ (t.slot c 0).state = .ready
              ∧ (t.slot c 0).wp = (s.word (ws back + 0xA68)).val.setWidth 5 ∧ (t.slot c q).queued = false
              ∧ t.word (ws (t.slot c 0).wp + 8) = ⟨BitVec.ofNat 64 q, false⟩)))

/-- The helper, launch, context, invalidation, sleep and interrupt instructions and UPRET, and writes of ARENA, REDRGN and XSPLIT, use
their operands: the first that is poisoned raises POISON, with the workspace offset of its register in FLT1, before anything else
(R227, R354). -/
def Sys2Proof.Spec.PoisonRaises : Prop :=
  ∀ (s : State) (st : Stall) (d a b c : Reg) (sc : Scope), s.me.pend = [] →
    ∀ x ∈ ([(.start st d a b c, [a, b, c]), (.join st d a, [a]), (.launch st d a, [a]), (.ctxNew st d a, [a]), (.ctxGive st d a b, [a, b]),
      (.ctxRevoke st d a b, [a, b]), (.ctxRun st d a, [a]), (.ctxStop st d a, [a]), (.ctxDirty st d a b c, [a, b, c]),
      (.ctxSave st d a b, [a, b]), (.ctxLoad st d a b, [a, b]), (.ctxS2map st d a b, [a, b]), (.ctxS2mapBead st d a b, [a, b]),
      (.arenaInit st a, [a]), (.redrgnWrite st a, [a]), (.xsplitWrite st a, [a]), (.upret st a b, [a, b]), (.tlbinv st a sc, [a]),
      (.icinv st a sc, [a]), (.engSleepu st a, [a]), (.inth st a, [a])] : List (Instr × List Reg)),
    ∀ r, x.2.find? (fun r => (s.reg r).poison) = some r → exec x.1 s = .next (s.raise ⟨6, 0, BitVec.ofNat 64 (8 * r.toNat), 0, .own, 3, false, false⟩)

/-! ### Events of cores, clusters and slices -/

/-- Events inside a core and its cluster: a result lands when its turns have passed; a refused miss is presented again after 16 cycles;
a walk installs its translation or records its fault, and wakes its slot (which requests take a place of the queue's 32 is the
model's choice, log entry 6); a slot that owes turns spends one; a word of no instruction
raises ILL; the scrubber poisons an uncorrectable word for good; a failed slice is noted and logged (R36, R47, R78, R204, R205,
R271). -/
def Obligations.CoreEvents : Prop :=
  (∀ (s : State) (c : Site) (i a n : Nat) (v : Tagged), (s.slot c i).pend = [⟨n, [⟨.word a, v, BitVec.allOnes 64⟩]⟩] → a % 8 = 0 →
    (n = 0 → ∃ t, exec (.resultLand c i) s = .next t ∧ (t.slot c i).pend = [] ∧ t.word a = v
      ∧ ∀ x, (x < a ∨ a + 8 ≤ x) → mget t.mem x = mget s.mem x)
    ∧ (n ≠ 0 → ∃ t, exec (.resultLand c i) s = .next t ∧ (t.slot c i).pend = (s.slot c i).pend ∧ t.mem = s.mem))
  ∧ (∀ (s : State) (c : Site) (i va at_ : Nat) (k : Kind), (s.slot c i).wait = some (.missRefused va k at_) → (s.slot c i).pend = [] →
    let q := (s.cluster (Site.cluster c)).misses
    let m : MissReq := ⟨c, i, (s.slot c i).ctx, (s.slot c i).gen, va, k⟩
    let samePage (x : MissReq) : Prop := x.ctx = m.ctx ∧ x.gen = m.gen ∧ x.va / 4096 = va / 4096
    (at_ + 16 ≤ s.cyc → q.length < 36 ∨ (∃ x ∈ q, samePage x) → ∃ t, exec (.missRepresent c i) s = .next t
      ∧ (t.slot c i).wait = some (.walk va k) ∧ (t.slot c i).state = .parked
      ∧ (t.cluster (Site.cluster c)).misses = q ++ [m] ∧ t.mem = s.mem)
    ∧ (at_ + 16 ≤ s.cyc → 36 ≤ q.length → (∀ x ∈ q, ¬samePage x) →
      q.Pairwise (fun x y => x.ctx ≠ y.ctx ∨ x.gen ≠ y.gen ∨ x.va / 4096 ≠ y.va / 4096) → ∃ t, exec (.missRepresent c i) s = .next t
      ∧ (t.slot c i).wait = some (.missRefused va k s.cyc) ∧ (t.cluster (Site.cluster c)).misses = q ∧ t.mem = s.mem)
    ∧ (s.cyc < at_ + 16 → exec (.missRepresent c i) s = .next s))
  ∧ (∀ (s : State) (cl va : Nat) (r : MissReq) (k : Kind), (s.cluster cl).misses = [r] → (s.cluster cl).l2 = [] → PlainMemory s →
    (s.slot r.core r.slot).wait = some (.walk va k) → va / 4096 = r.va / 4096 → (s.slot r.core r.slot).state = .parked →
    (s.slot r.core r.slot).ctx = r.ctx → (s.slot r.core r.slot).gen = r.gen → (s.ctx r.ctx).gen = r.gen →
    let u := s.modCluster cl fun x => { x with misses := [] }
    (∀ e, r.kind ≠ .fetch → u.translate r.ctx r.va r.kind true = .ok (e, u) → ∃ t, exec (.walkComplete cl) s = .next t
      ∧ (t.slot r.core r.slot).state = .ready ∧ (t.slot r.core r.slot).wait = none ∧ (t.cluster cl).misses = []
      ∧ { e with slot := r.slot } ∈ (t.core r.core).dtlb ∧ L2Entry.leaf e ∈ (t.cluster cl).l2 ∧ t.mem = s.mem)
    ∧ (∀ tr, u.translate r.ctx r.va r.kind true = .error tr → ∃ t, exec (.walkComplete cl) s = .next t
      ∧ (t.slot r.core r.slot).state = .ready ∧ (t.slot r.core r.slot).wait = none
      ∧ (t.slot r.core r.slot).walkFault = some (r.va / 4096, r.kind, tr) ∧ t.mem = s.mem))
  ∧ (∀ (s : State) (c : Site) (i : Nat), (s.slot c i).state = .ready → (s.slot c i).resid ≠ 0 → (s.slot c i).pend = [] → i < 11 →
    ∃ t, exec (.spentTurn c i) s = .next t ∧ (t.slot c i).resid = (s.slot c i).resid - 1 ∧ (t.slot c i).pc = (s.slot c i).pc
      ∧ (t.slot c i).lastOffer = some s.cyc ∧ (t.core c).ptr = (i + 1) % 11 ∧ t.mem = s.mem)
  ∧ (∀ (s : State) (w : BitVec 32), exec (.illegalInstruction w) s = .next (s.raise ⟨1, 0, w.setWidth 64, 0, .own, 3, false, false⟩))
  ∧ (∀ (s : State) (w : Nat), s.uncorr = [w] → w < 2 ^ 37 → ∃ t, exec (.scrub (w / 8)) s = .next t ∧ t.uncorr = [] ∧ t.mem = s.mem
    ∧ t.word (8 * w) = ⟨(s.word (8 * w)).val, true⟩
    ∧ t.pkg.log.length = s.pkg.log.length + (if w / 8 ∈ s.pkg.logged then 0 else 1))
  ∧ (∀ (s : State) (p : Nat), p < 192 →
    (p ∉ s.pkg.failed → ∃ (t : State) (r : LogRec), exec (.sliceFailure p) s = .next t ∧ p ∈ t.pkg.failed ∧ t.mem = s.mem
      ∧ t.pkg.log = s.pkg.log ++ [r] ∧ r.cause = 0x15 ∧ r.slice = p ∧ r.cyc = s.cyc)
    ∧ (p ∈ s.pkg.failed → exec (.sliceFailure p) s = .next s))

/-- Events at banks and at owners of full-empty words: a store is accepted once no other slot reserves its word; a synchronising
request completes on a full word; a refused one is presented again after its backoff; a fence ends with its last echo, an RSV
reservation after 4,096 cycles, a WAITM at its deadline, an invalidation with its last echo (R37, R62, R64, R76, R157, R172, R177,
R178, R189). That a reservation ends once more than 4,096 cycles have passed, and that probes go one to each touched bank, is the
model's choice, log entry 15. -/
def Sys2Proof.Spec.BankEvents : Prop :=
  (∀ (s : State) (r : Request), s.reqs = [r] → r.red = none → r.sig = none → r.viewed = false → PlainMemory s → NoWatcher s →
    let i : Instr := if r.addr < 2 ^ 40 then .sliceRequest r.n else .bufferRequest r.n
    ((∀ x ∈ s.reservations, ∀ j, j < r.bytes.length → x.word ≠ (r.addr + j) / 8) → ∃ t, exec i s = .next t ∧ t.reqs = []
      ∧ (∀ j, (h : j < r.bytes.length) → mget t.mem (r.addr + j) = r.bytes[j])
      ∧ ∀ x, (x < r.addr ∨ r.addr + r.bytes.length ≤ x) → mget t.mem x = mget s.mem x)
    ∧ (∀ x, s.reservations = [x] → x.word = r.addr / 8 → r.bytes ≠ [] → (x.core, x.slot) ≠ (r.core, r.slot) → exec i s = .next s))
  ∧ (∀ (s : State) (n : Nat) (c : Site) (i : Nat) (r : SyncReq), r.op = .ldf → r.base = none → (s.core (State.ownerOf r.addr)).park = [] →
    let ends (u : State) : Out := .next (u.complete c i r.len (s.regWrite c i r.d (s.word r.addr)))
    (s.syncs = [(n, c, i, r)] →
      (s.isFull r.addr = true → exec (.syncRequest n) s = ends { s with syncs := [] })
      ∧ (s.isFull r.addr = false → ∃ t, exec (.syncRequest n) s = .next t ∧ t.syncs = [] ∧ (t.core (State.ownerOf r.addr)).park = [⟨c, i, r⟩]
          ∧ (t.slot c i).wait = some (.sync r)))
    ∧ (∀ at_, (s.slot c i).wait = some (.backoff r at_) →
      (at_ ≤ s.cyc → s.isFull r.addr = true → s.admitted (s.slot c i).ctx (s.slot c i).gen (State.ownerOf r.addr) = true →
        exec (.syncRepresent c i) s = ends s)
      ∧ (at_ ≤ s.cyc → s.admitted (s.slot c i).ctx (s.slot c i).gen (State.ownerOf r.addr) = false →
        exec (.syncRepresent c i) s = .next (s.raiseAt c i ⟨4, 0xD, r.va, 0, .own, 0, false, false⟩))
      ∧ (s.cyc < at_ → exec (.syncRepresent c i) s = .next s)))
  ∧ (∀ (s : State) (c : Site) (i k len : Nat) (m : BitVec 196) (sc : Scope), (s.slot c i).wait = some (.fence [k] m false sc len) →
    ((∀ r ∈ s.reqs, ¬(r.core = c ∧ r.slot = i ∧ bankOf r.addr = k)) → (s.slot c i).pend = [] → ∃ t, exec (.probeEcho c i k) s = .next t
      ∧ (t.slot c i).state = .ready ∧ (t.slot c i).wait = none ∧ (t.slot c i).touched = (s.slot c i).touched &&& ~~~m ∧ t.mem = s.mem)
    ∧ ((∃ r ∈ s.reqs, r.core = c ∧ r.slot = i ∧ bankOf r.addr = k) → exec (.probeEcho c i k) s = .next s))
  ∧ (∀ (s : State) (x : Reservation), s.reservations = [x] → (s.slot x.core x.slot).rsv = some x.word → s.resQueue = [] → s.reqs = [] →
    (x.since + 4096 < s.cyc → ∃ t, exec (.reservationExpiry x.word) s = .next t ∧ t.reservations = [] ∧ (t.slot x.core x.slot).rsv = none
      ∧ t.mem = s.mem)
    ∧ (s.cyc ≤ x.since + 4096 → exec (.reservationExpiry x.word) s = .next s))
  ∧ (∀ (s : State) (c : Site) (i len : Nat) (d : Reg) (dl : Tagged), (s.slot c i).wait = some (.waitm d dl len) → (s.slot c i).pend = [] →
    (∀ j, j < 4 → ((s.slot c i).monitor j).pending = false) → (s.slot c i).intr = false → dl.poison = false →
    (dl.val.toNat ≤ s.cyc → ∃ t, exec (.waitmDeadline c i) s = .next t ∧ (t.slot c i).state = .ready ∧ (t.slot c i).wait = none
      ∧ (d ≠ 0 → t.regAt c i d = ⟨2, false⟩))
    ∧ (s.cyc < dl.val.toNat → exec (.waitmDeadline c i) s = .next s))
  ∧ (∀ (s : State) (c : Site) (i len : Nat) (d : Reg) (v : Word) (x : Site) (l : List Site), (s.slot c i).wait = some (.echoes (x :: l) d v len) →
    x ∉ l → (∀ r ∈ s.reqs, r.core ≠ x) →
    (l = [] → exec (.shootdownEcho c i x) s = .next (s.complete c i len (s.regWrite c i d ⟨v, false⟩)))
    ∧ (l ≠ [] → ∃ t, exec (.shootdownEcho c i x) s = .next t ∧ (t.slot c i).wait = some (.echoes l d v len) ∧ t.mem = s.mem))

/-- Timeouts: a synchronising request past FTMO or PRLIM is withdrawn and raises SYNC_TIMEOUT, a SIGWAIT past FTMO does too, and the
waiters of a barrier, of a gang's barrier and of a step past GTMO receive GANG_TIMEOUT (R64, R216, R338, R370, R373). Which steps a
timeout of a round discards is the model's choice, log entries 10 and 30. -/
def Sys2Proof.Spec.Timeouts : Prop :=
  ∀ (s : State) (c : Site) (i : Nat),
    (∀ r, (s.slot c i).wait = some (.sync r) → r.op = .ldf ∨ r.op = .ldfe →
      (r.since + r.ftmo ≤ s.cyc → ∃ u : State, exec (.syncTimeout c i) s = .next (u.raiseAt c i ⟨8, 2, r.va, 0, .own, 0, false, false⟩)
        ∧ (∀ p ∈ (u.core (State.ownerOf r.addr)).park, ¬(p.core = c ∧ p.slot = i)) ∧ u.mem = s.mem ∧ ∀ x j, u.slot x j = s.slot x j)
      ∧ (s.cyc < r.since + r.ftmo → exec (.syncTimeout c i) s = .next s))
    ∧ (∀ r at_, (s.slot c i).wait = some (.backoff r at_) → r.op = .ste → r.prlim < r.refusals →
      ∃ u : State, exec (.syncTimeout c i) s = .next (u.raiseAt c i ⟨8, 1, r.va, 0, .own, 1, false, false⟩) ∧ u.mem = s.mem ∧ ∀ x j, u.slot x j = s.slot x j)
    ∧ (∀ a va bound d until_ len, (s.slot c i).wait = some (.signal a va bound d until_ len) →
      exec (.sigwaitTimeout c i) s = .next (if until_ ≤ s.cyc then s.raiseAt c i ⟨8, 2, va, 0, .own, 0, false, false⟩ else s))
    ∧ (let handled : Prop := 1 ≤ i ∧ i < 11 ∧ ((s.slot c 0).cbWord 13).getLsbD 8 = true ∧ State.wpOk ((s.slot c 0).cbWord 13) = true ∧ (s.slot c 0).um = true
       let told (t : State) (g : Nat) : Prop := (t.slot c i).state = .faulted ∧ (t.slot c i).wait = none
         ∧ fieldOf ((t.slot c i).cbWord 17) 0 8 = 0xB ∧ (t.slot c i).cbWord 18 = BitVec.ofNat 64 g
       (∀ until_ g len, handled → (s.slot c i).wait = some (.barrier .clu until_ g [c] len) →
         s.barRound .clu c i = some (until_, g, [c]) → (∀ x j u g ps l, (s.slot x j).wait ≠ some (.barrier .bar u g ps l)) →
         (until_ ≤ s.cyc → ∃ t, exec (.barTimeout c i) s = .next t ∧ told t g)
         ∧ (s.cyc < until_ → exec (.barTimeout c i) s = .next s))
       ∧ (∀ until_ g len, handled → (s.slot c i).wait = some (.barrier .gang until_ g [c] len) →
         s.barRound .gang c i = some (until_, g, [c]) →
         (until_ ≤ s.cyc → ∃ t, exec (.gangTimeout c i) s = .next t ∧ told t g)
         ∧ (s.cyc < until_ → exec (.gangTimeout c i) s = .next s))
       ∧ (∀ e rest t0, (s.core c).matrix = e :: rest → e.slot = i → e.since = some t0 → (s.core c).placed = none →
         (s.slot c i).state = .ready → (∃ p a b q x te l, e.op = .mma p a b q x te l) → (e.started = none ∨ s.occEnded c e = false) →
         (∀ o ∈ rest, o.started = none) →
         (t0 + e.gtmo ≤ s.cyc → ∃ t, exec (.gangStepTimeout c) s = .next t ∧ (t.core c).freeze = false
           ∧ ((t.core c).round = if (s.core c).round.any (·.opened = e.round) then none else (s.core c).round)
           ∧ (t.slot c i).gangTrap = some e.gtmo ∧ t.mem = s.mem
           ∧ ∀ x, x ∈ (t.core c).matrix ↔ x ∈ (s.core c).matrix
             ∧ ¬(x.round = e.round ∧ e.step ≤ x.step ∧ ∃ p a b q y te l, x.op = .mma p a b q y te l))
         ∧ (s.cyc < t0 + e.gtmo → (e.started = none ∨ ∀ o ∈ rest, o.since = none) → exec (.gangStepTimeout c) s = .next s)))

/-- The host's window 2 reads and writes the bytes of the partition's frames, and answers UR or drops data where stage 2 fails; control
pages; interrupts reach a slot of the partition, or are lost (R173, R422, R424, R425, R426, R433). That a failed access of an
unbound function is not recorded is the model's choice, log entry 25. -/
def Sys2Proof.Spec.HostAccesses : Prop :=
  ∀ (s : State) (vf : Nat), s.pkg.hostWrites = [] → PlainMemory s → NoWatcher s →
    let f := aget s.pkg.vfs Vf.reset vf
    let bound (k : Nat) : Prop := 1 ≤ vf ∧ vf ≤ s.pkg.numVfs ∧ (s.ctx k).live = true ∧ f.ctx = some (k, (s.ctx k).gen)
    let unbound : Prop := vf = 0 ∨ s.pkg.numVfs < vf ∨ f.ctx = none
    let now (t : State) : Vf := aget t.pkg.vfs Vf.reset vf
    let only (t : State) : Prop := { t with pkg := s.pkg } = s
    (∀ k off len j e tg, bound k → off + len ≤ 2 ^ 36 → 0 < len →
      let g := f.wbase.toNat * 2 ^ 36 + off
      g % 4096 + len ≤ 4096 →
      let a := s.targetAddr tg (g % 2 ^ 21)
      ((∀ p fr o, tg ≠ .pool p fr o) → s.stage2 k g g .read .read = .ok (j, e, tg) →
        ∃ t, exec (.hostWindowRead vf off len) s = .next t ∧ only t ∧ t.pkg.hostReply = some ((List.range len).map fun x => mget s.mem (a + x)))
      ∧ (∀ tr, s.stage2 k g g .read .read = .error tr → f.hv = false → ∃ t, exec (.hostWindowRead vf off len) s = .next t ∧ only t
          ∧ t.pkg.hostReply = none ∧ (now t).hv = true ∧ (now t).hw = false ∧ (now t).hgpa = BitVec.ofNat 40 g)
      ∧ (∀ data relaxed, data.length = len → (∀ p fr o, tg ≠ .pool p fr o) → s.stage2 k g g .write .write = .ok (j, e, tg) →
        (∀ x ∈ s.reservations, x.word < a / 8 ∨ (a + len + 7) / 8 ≤ x.word) →
        ∃ t, exec (.hostWindowWrite vf off data relaxed) s = .next t ∧ t.pkg.hostWrites = []
          ∧ (∀ x, (h : x < data.length) → mget t.mem (a + x) = data[x])
          ∧ ∀ x, (x < a ∨ a + len ≤ x) → mget t.mem x = mget s.mem x)
      ∧ (∀ data relaxed tr, data.length = len → s.stage2 k g g .write .write = .error tr → f.hv = false →
        ∃ t, exec (.hostWindowWrite vf off data relaxed) s = .next t ∧ only t ∧ (now t).hv = true ∧ (now t).hw = true
          ∧ (now t).hgpa = BitVec.ofNat 40 g))
    ∧ (∀ off len data relaxed, unbound → off + len ≤ 2 ^ 36 →
        (∃ t, exec (.hostWindowRead vf off len) s = .next t ∧ only t ∧ t.pkg.hostReply = none)
        ∧ ∃ t, exec (.hostWindowWrite vf off data relaxed) s = .next t ∧ only t)
    ∧ (∀ v, (∀ k, bound k → ∃ t, exec (.wbaseWrite vf v) s = .next t ∧ only t ∧ now t = { f with wbase := v.setWidth 4 })
        ∧ (unbound → exec (.wbaseWrite vf v) s = .next s))
    ∧ ((∀ k, bound k → ∃ t, exec (.hvClear vf) s = .next t ∧ only t ∧ now t = { f with hv := false, hw := false, hgpa := 0 })
        ∧ (unbound → exec (.hvClear vf) s = .next s))
    ∧ (∀ k, bound k → ∃ t, exec (.dblostClear vf) s = .next t ∧ only t ∧ now t = { f with dblost := false })
    ∧ (s.pkg.boot = .recovery → ∀ v, exec (.pfDoorbell v) s = .next s)
    ∧ (∀ v : Word, v.getLsbD 63 = false → s.pkg.boot ≠ .recovery →
        let site : Site := fieldOf v 24 2 * 1024 + fieldOf v 16 5 * 32 + fieldOf v 8 5
        let i := fieldOf v 0 4
        let sl := s.slot site i
        let held : Prop := s.live site = true ∧ i ≤ 10 ∧ sl.state ≠ .free ∧ sl.gen = (s.ctx sl.ctx).gen
        let rings (x : Instr) : Prop := ∃ t, exec x s = .next t ∧ (t.slot site i).intr = true ∧ t.pkg = s.pkg ∧ t.mem = s.mem
          ∧ ∀ y j, (y, j) ≠ (site, i) → t.slot y j = s.slot y j
        (∀ k, bound k → (held ∧ s.inTree k 8 sl.ctx = true → rings (.doorbell vf v))
          ∧ (¬(held ∧ s.inTree k 8 sl.ctx = true) → ∃ t, exec (.doorbell vf v) s = .next t ∧ only t ∧ now t = { f with dblost := true }))
        ∧ (held → (s.ctx sl.ctx).depth = 0 → (s.ctx sl.ctx).live = true → rings (.pfDoorbell v))
        ∧ (¬(held ∧ (s.ctx sl.ctx).depth = 0 ∧ (s.ctx sl.ctx).live = true) →
            exec (.pfDoorbell v) s = .next { s with pkg := { s.pkg with pfDblost := true } }))
    ∧ (∀ v : Word, v.getLsbD 63 = true → s.pkg.boot ≠ .recovery → exec (.pfDoorbell v) s = .next { s with pkg := { s.pkg with pfDblost := false } })
    ∧ (∀ k, 1 ≤ vf → vf ≤ 64 → unbound → (s.ctx k).live = true → (s.ctx k).depth = 1 →
        let taken : Prop := ∃ x ∈ s.pkg.vfs, x.2.ctx = some (k, (s.ctx k).gen)
        (s.pkg.boot = .service → ¬taken → ∃ t, exec (.vfBind vf k) s = .next t ∧ only t ∧ now t = { Vf.reset with ctx := some (k, (s.ctx k).gen) })
        ∧ (s.pkg.boot ≠ .service ∨ taken → exec (.vfBind vf k) s = .next s))
    ∧ (∀ n, n ≤ 64 → exec (.numvfsWrite n) s = .next { s with pkg := { s.pkg with numVfs := n } })

/-- Akmon's mailbox takes one command at a time: it records the command, sets GO, carries it out, and answers with STATUS, OUTLEN,
DONE and PF vector 0; FWLOAD, QUOTE, OWNMOVE, LOGREAD and an unknown code; while GO = 1 only words of the command block and of MBUF
change; the host writes MCMD, of whose first word bits [7:0] alone are kept, MBUF and DONE, and the power limit is clamped and takes effect (R432, R433, R434, R435, R437, R438,
R439). That OWNMOVE needs the frame to be owned here, and the layout of a quote, is the model's choice, log entries 24 and 25. -/
def Sys2Proof.Spec.MailboxCommands : Prop :=
  (∀ (s : State), s.pkg.mdoor.getLsbD 0 = false → (∀ x ∈ s.clusters, x.2.engine = []) →
    let takes (i : Instr) (cmd : List Word) (status : Nat) (out : List Byte) (P : State → Prop) : Prop := ∃ t, exec i s = .next t
      ∧ t.pkg.mdoor.getLsbD 0 = true ∧ t.pkg.answer = some (status, out) ∧ t.mem = s.mem ∧ t.cores = s.cores ∧ t.pkg.log = s.pkg.log
      ∧ (∀ j, (h : j < cmd.length) → aget t.pkg.mcmd 0 j = cmd[j]) ∧ P t
    (∀ (addr len : Word) image, let img := image.take len.toNat
      ∃ status, takes (.fwload addr len image) [1, addr, len] status [] fun t => (status = 0 ∨ status = 1 ∨ status = 2)
        ∧ (status = 0 ↔ State.judgeImage img = 0) ∧ t.pkg.staged = if status = 0 then some img else s.pkg.staged)
    ∧ (∀ (vf nlen : Word) nonce, vf.toNat % 128 = 0 → takes (.quote vf nlen nonce) [2, vf, nlen] 1 [] fun _ => True)
    ∧ (∀ (vf nlen : Word) nonce k, let n := vf.toNat % 128
        let m := min 64 nlen.toNat
        1 ≤ n → n ≤ s.pkg.numVfs → (s.ctx k).live = true → (aget s.pkg.vfs Vf.reset n).ctx = some (k, (s.ctx k).gen) →
        m ≤ nonce.length → nonce.length ≤ 16384 → ∃ sig,
          takes (.quote vf nlen nonce) [2, vf, nlen] 0 (leBytesOf 2 s.pkg.device.toNat ++ leBytesOf 2 s.pkg.svn.toNat
            ++ leBytesOf 64 s.pkg.fwm.toNat ++ leBytesOf 64 (s.ctx k).pmr.toNat ++ nonce.take m ++ sig) fun _ => True)
    ∧ (∀ pool frame owner : Word, let key := pool.toNat % 2 ^ 16 * 2 ^ 36 + frame.toNat
        let mine : Prop := frame.toNat < 2 ^ 36 ∧ (s.pkg.owners.find? fun o => o.1 = key) = some (key, s.pkg.device.toNat)
        (mine → takes (.ownmove pool frame owner) [3, pool, frame, owner] 0 [] fun t =>
            (t.pkg.owners.find? fun o => o.1 = key) = some (key, owner.toNat % 2 ^ 12))
        ∧ (¬mine → takes (.ownmove pool frame owner) [3, pool, frame, owner] 1 [] fun t => t.pkg.owners = s.pkg.owners))
    ∧ (∀ n : Word, (s.pkg.log.length ≤ n.toNat → takes (.logread n) [4, n] 1 [] fun _ => True)
        ∧ ∀ r, s.pkg.log[n.toNat]? = some r → takes (.logread n) [4, n] 0
          (leBytesOf 8 (r.cause + r.detail * 2 ^ 8 + r.ctx * 2 ^ 32 + r.gen * 2 ^ 48) ++ leBytesOf 8 r.addr.toNat ++ leBytesOf 8 r.cyc
              ++ leBytesOf 8 r.slice) fun _ => True)
    ∧ (∀ code : BitVec 8, code = 0 ∨ 4 < code.toNat → takes (.mailboxUnknown [(0x100, code.setWidth 64)]) [code.setWidth 64] 255 [] fun _ => True)
    ∧ (s.pkg.log.length ≤ (aget s.pkg.mcmd 0 1).toNat → takes (.mailboxUnknown [(0x100, 4)]) [4] 1 [] fun _ => True))
  ∧ (∀ (s : State) (a b c : Word) (code : BitVec 8) bs, s.pkg.mdoor.getLsbD 0 = true →
    (∀ i ∈ ([.fwload a b bs, .quote a b bs, .ownmove a b c, .logread a, .mailboxUnknown [(0x100, code.setWidth 64)]] : List Instr),
      ∃ t, exec i s = .next t ∧ t = { s with pkg := { s.pkg with mcmd := t.pkg.mcmd, mbuf := t.pkg.mbuf } })
    ∧ (∀ i (v : Word), i < 8 → ∃ t, exec (.mailboxUnknown [(0x100 + 8 * i, v)]) s = .next t
        ∧ t = { s with pkg := { s.pkg with mcmd := t.pkg.mcmd } }
        ∧ aget t.pkg.mcmd 0 i = (if i = 0 then BitVec.ofNat 64 (v.toNat % 256) else v) ∧ ∀ j, j ≠ i → aget t.pkg.mcmd 0 j = aget s.pkg.mcmd 0 j)
    ∧ (∀ i (v : Word), i < 2048 → ∃ t, exec (.mailboxUnknown [(0x4000 + 8 * i, v)]) s = .next t
        ∧ t = { s with pkg := { s.pkg with mbuf := t.pkg.mbuf } }
        ∧ ((List.range 8).map fun j => aget t.pkg.mbuf 0 (8 * i + j)) = leBytesOf 8 v.toNat
        ∧ ∀ j, (j < 8 * i ∨ 8 * i + 8 ≤ j) → aget t.pkg.mbuf 0 j = aget s.pkg.mbuf 0 j))
  ∧ (∀ (s : State) (status : Nat) (out : List Byte), s.pkg.answer = some (status, out) → status < 256 → out.length ≤ 16384 →
    ∃ t, exec .mailboxAnswer s = .next t
      ∧ t.pkg.mdoor.getLsbD 0 = false ∧ t.pkg.mdoor.getLsbD 1 = true ∧ fieldOf t.pkg.mdoor 8 8 = status
      ∧ fieldOf t.pkg.mdoor 32 16 = out.length ∧ (∀ j, (h : j < out.length) → aget t.pkg.mbuf 0 j = out[j])
      ∧ t.pkg.answer = none ∧ t.pkg.msi = (0, 0) :: s.pkg.msi ∧ { t with pkg := s.pkg } = s)
  ∧ (∀ (s : State) (w : BitVec 16), (∃ m : Word, exec .doneClear s = .next { s with pkg := { s.pkg with mdoor := m } }
        ∧ ∀ j, j < 64 → m.getLsbD j = (s.pkg.mdoor.getLsbD j && j != 1))
      ∧ (let v : Nat := if w.toNat < 600 then 600 else if 2400 < w.toNat then 2400 else w.toNat
         exec (.plimWrite w) s
           = .next { s with pkg := { s.pkg with plim := BitVec.ofNat 16 v, plimNew := some (BitVec.ofNat 16 v), plimAt := s.cyc } })
      ∧ ∀ v, s.pkg.plimNew = some v → exec .plimEffect s
          = .next { s with pkg := { s.pkg with plimNew := none, limit := v, thr := decide (1000 * v.toNat < s.pkg.pnow.toNat) } })

/-- Links: a retry is counted, saturating; a payload or header that fails stops its partition or context, logs MCHECK and shows link
recovery; a link with more than 64 retries in 2^24 cycles is retired, with the partitions that used it stopped; a Korxo frame is
judged by its header and its flits, and one in order is taken in; a frame that is none of this device's changes nothing (R428, R429,
R430, R431, R433). Two points are the model's choice: which links carried the traffic that the spec gives no route (log entry 37), and
that a frame on a link that is down or retired, with another EtherType, for another device or of more than 128 flits changes nothing
(log entry 26). -/
def Obligations.LinkEvents : Prop :=
  ∀ (s : State) (l : Nat), l < 136 → PlainMemory s → (∀ x ∈ s.clusters, x.2.engine = []) →
    let k := aget s.pkg.links Link.reset l
    let now (t : State) : Link := aget t.pkg.links Link.reset l
    let partition (c : Nat) : Prop := (s.ctx c).live = true ∧ (s.ctx c).depth = 1
    (∃ t, exec (.linkRetry l) s = .next t ∧ { t with pkg := s.pkg } = s
      ∧ (now t).retry.toNat = min (2 ^ 32 - 1) (k.retry.toNat + 1) ∧ s.cyc ∈ (now t).recent)
    ∧ (∀ up, ∃ t, exec (.linkTrained l up) s = .next t ∧ { t with pkg := s.pkg } = s ∧ now t = { k with up := up })
    ∧ (∀ c, (s.ctx c).live = true → (∀ x, (s.core x).park = []) → s.resQueue = [] → s.reqs = [] →
        let logged (t : State) (d : Nat) : Prop := ∃ r, t.pkg.log = s.pkg.log ++ [r] ∧ r.cause = 0x15 ∧ r.detail = d ∧ r.ctx = c
          ∧ r.gen = (s.ctx c).gen ∧ r.addr = BitVec.ofNat 64 l ∧ r.cyc = s.cyc
        (∃ t, exec (.linkError l (.payload c (s.ctx c).gen)) s = .next t ∧ (t.ctx c).stopped = true ∧ logged t 2)
        ∧ (∀ n, (s.ctx c).depth = 1 → 1 ≤ n → n ≤ s.pkg.numVfs → (aget s.pkg.vfs Vf.reset n).ctx = some (c, (s.ctx c).gen) →
            ∃ t, exec (.linkError l (.header n)) s = .next t ∧ (t.ctx c).stopped = true ∧ logged t 3
              ∧ (aget t.pkg.vfs Vf.reset n).recovery = true ∧ ∃ a, t.pkg.akmon = a :: s.pkg.akmon ∧ a.ctx = c ∧ a.trap.detail = 3))
    ∧ (∀ p at_, (p, at_) ∈ k.traffic → partition p → s.cyc ≤ at_ + 2 ^ 16 →
        ∃ t, exec (.linkError l .headerAndTag) s = .next t ∧ (t.ctx p).stopped = true)
    ∧ ((k.recent.filter fun t => decide (s.cyc < t + 2 ^ 24)).length ≤ 64 → exec (.linkRetire l) s = .next s)
    ∧ (64 < (k.recent.filter fun t => decide (s.cyc < t + 2 ^ 24)).length → k.ret = false →
        (k.traffic = [] → (∀ c, ¬partition c) →
          ∃ t, exec (.linkRetire l) s = .next t ∧ now t = { k with ret := true } ∧ { t with pkg := s.pkg, draws := s.draws } = s)
        ∧ ∀ p at_, (p, at_) ∈ k.traffic → partition p → s.cyc ≤ at_ + 2 ^ 24 →
          ∃ t, exec (.linkRetire l) s = .next t ∧ (now t).ret = true ∧ (t.ctx p).stopped = true)
    ∧ (∀ f : KorxoFrame, f.port = l → l < 8 →
        let read : Prop := k.up = true ∧ k.ret = false ∧ f.etherType = s.pkg.etherType ∧ f.flits.length ≤ 128
        let taken : Prop := read ∧ f.headerOk = true ∧ f.dst = s.pkg.device.toNat
        (taken → f.op = .other → (∀ x ∈ f.flits, x.2 = true) →
          ∃ t, exec (.korxoFrame f) s = .next t ∧ { t with pkg := s.pkg } = s ∧ (f.part, s.cyc) ∈ (now t).traffic
            ∧ f.seqNo ≤ aget t.pkg.korxoSeq 0 l)
        ∧ (∀ pool frame d, taken → f.op = .owner pool frame d → frame < 2 ^ 36 → (∀ x ∈ f.flits, x.2 = true) →
          ∃ t, exec (.korxoFrame f) s = .next t ∧ { t with pkg := s.pkg } = s
            ∧ (t.pkg.owners.find? fun o => o.1 = pool * 2 ^ 36 + frame) = some (pool * 2 ^ 36 + frame, d))
        ∧ (taken → (∃ x ∈ f.flits, x.2 = false) → f.op = .other → (s.ctx f.ctx).live = true → (s.ctx f.ctx).gen = f.gen →
          ∃ t, exec (.korxoFrame f) s = .next t ∧ (t.ctx f.ctx).stopped = true)
        ∧ (read → f.headerOk = false →
          exec (.korxoFrame f) s = exec (.linkError l (if f.tagOk then .header f.vfTag else .headerAndTag)) s)
        ∧ (¬read ∨ (f.headerOk = true ∧ f.dst ≠ s.pkg.device.toNat) → exec (.korxoFrame f) s = .next s))

/-- Start-up, each step after the one before: ROM; the image judged and measured; memory zeroed; dies powered and rows released in
order, 64 cycles apart; the image placed where the root's tables map it and the boot program loaded from its record into slot 0 of
every live core of die 0; the other dies in service once those have exited (R435, R436, R445). That Akmon takes the root's descriptor
and tables from the image, in one step, is the model's choice, log entry 21. -/
def Obligations.StartUp : Prop :=
  (∀ s : State, s.pkg.boot = .off → exec .powerOn s = .next { s with pkg := { s.pkg with boot := .rom } })
  ∧ (∀ (s : State) (image : List Byte), s.pkg.boot = .rom ∨ s.pkg.boot = .recovery →
    let img := s.pkg.staged.getD image
    let body := img.take (img.length - 4627)
    let ok : Prop := 4627 < img.length ∧ Config.sha3 (Config.imageKey img) = Config.fusedKeyDigest
      ∧ Config.verify (Config.imageKey img) (leBytesOf 64 (Config.sha3 body).toNat) (img.drop (img.length - 4627)) = true
      ∧ Config.fusedMinSvn.toNat ≤ (Config.imageSvn img).toNat
    ∃ t, exec (.imageJudge image) s = .next t ∧ { t with pkg := s.pkg } = s ∧ (t.pkg.boot = .judged ↔ ok) ∧ (t.pkg.boot = .recovery ↔ ¬ok)
      ∧ (ok → t.pkg.fwm = Config.sha3 img ∧ t.pkg.svn = Config.imageSvn img) ∧ t.pkg.staged = none)
  ∧ (∀ (s : State) (retired : Option Nat), s.pkg.boot = .judged → (∀ p, retired = some p → p < 192) →
    ∃ t, exec (.memoryInit retired) s = .next t ∧ t.pkg.boot = .memory ∧ t.pkg.retired = retired ∧ t.uncorr = []
      ∧ (∀ a, a < 2 ^ 40 → mget t.mem a = 0 ∧ (t.word a).poison = false) ∧ ∀ a, 2 ^ 40 ≤ a → mget t.mem a = mget s.mem a)
  ∧ (∀ (s : State) (die : Nat), s.pkg.boot = .memory ∨ s.pkg.boot = .dies → die = s.pkg.diesUp → die < 4 →
    (die = 0 ∨ s.pkg.dieAt + 350000 ≤ s.cyc → ∃ t, exec (.diePowerUp die) s = .next t ∧ { t with pkg := s.pkg } = s
      ∧ t.pkg.boot = .dies ∧ t.pkg.diesUp = die + 1 ∧ t.pkg.dieAt = s.cyc)
    ∧ (die ≠ 0 → s.cyc < s.pkg.dieAt + 350000 → exec (.diePowerUp die) s = .next s))
  ∧ (∀ (s : State) (die row : Nat), s.pkg.boot = .dies → die < s.pkg.diesUp → row = aget s.pkg.rowsUp 0 die → row < 32 →
    (row = 0 ∨ s.cyc = aget s.pkg.rowAt 0 die + 64 → ∃ t, exec (.rowRelease die row) s = .next t ∧ aget t.pkg.rowsUp 0 die = row + 1
      ∧ aget t.pkg.rowAt 0 die = s.cyc ∧ t.mem = s.mem
      ∧ ∀ x, x < 32 → s.live (die * 1024 + row * 32 + x) = true → (t.core (die * 1024 + row * 32 + x)).running = true)
    ∧ (row ≠ 0 → s.cyc ≠ aget s.pkg.rowAt 0 die + 64 → exec (.rowRelease die row) s = .next s))
  ∧ (∀ (s : State) (img : BootImage), img.text.bytes = [] → PlainMemory s → NoWatcher s →
    let u := (s.placeTables img.tables).modCtx 0 fun k => { k with
      s1root := img.s1root
      s2base := img.s2base
      s2len := img.s2len
      s2 := img.s2.foldl (fun l (i, e) => if e = 0 then l else aset l i e) [] }
    ((img.tables.map (·.1)).Nodup → ∀ a w, (a, w) ∈ img.tables → (∀ x ∈ img.tables, x.1 % 8 = 0 ∧ x.1 < 2 ^ 40) → u.word a = ⟨w, false⟩)
    ∧ ∀ (p p' : Nat) (x x' : Bool) (v v' : State), img.data.addr.toNat % 4096 + img.data.bytes.length ≤ 4096 → img.data.bytes ≠ [] →
      u.translateDirect 0 img.data.addr .read = .ok (p', x', v') → u.translateDirect 0 img.data.addr .write = .ok (p, x, v) →
      ∃ t, s.placeImage img = some t ∧ (∀ j, (h : j < img.data.bytes.length) → mget t.mem (p + j) = img.data.bytes[j])
        ∧ (∀ y, (y < p ∨ p + img.data.bytes.length ≤ y) → mget t.mem y = mget u.mem y) ∧ t.ctxs = u.ctxs)
  ∧ (∀ (s : State) (img : BootImage), s.pkg.boot = .rows → s.placeImage img = none → exec (.bootProgramStart img) s = .next s)
  ∧ (∀ (s v : State) (img : BootImage) (ws : List Word), s.pkg.boot = .rows → s.placeImage img = some v → v.pkg = s.pkg → PlainMemory v →
    NoWatcher v → (∀ x, (v.core x).park = []) → NoReservation v →
    ws.length = 8 → (∀ j, j < 8 → State.isMesh (img.record + BitVec.ofNat 64 (8 * j)) = false
      ∧ ∃ p x, v.translateDirect 0 (img.record + BitVec.ofNat 64 (8 * j)) .read = .ok (p, x, v) ∧ v.word p = ⟨ws.getD j 0, false⟩) →
    fieldOf (ws.getD 4 0) 12 36 = 0 → (v.ctx 0).stopped = false → (v.ctx 0).depth = 0 →
    ∃ t, exec (.bootProgramStart img) s = .next t ∧ t.pkg.boot = .program ∧ t.pkg.feat = s.pkg.featAdv
      ∧ ∀ c, c < 1024 → v.live c = true → (t.slot c 0).state = .ready ∧ (t.slot c 0).ctx = 0 ∧ (t.slot c 0).wp = 0x1B
        ∧ (t.slot c 0).pc = BitVec.ofNat 64 (fieldOf (ws.getD 0 0) 0 48) ∧ (t.core c).group = some (0, 0)
        ∧ t.word (bufAddr c .s 0xB000 + 8)
            = ⟨if c < 32 ∧ (∀ x, x < c → v.live x = false) then 1 else 0, false⟩
        ∧ t.word (bufAddr c .s 0xB000 + 16) = ⟨img.record, false⟩)
  ∧ (∀ s : State, s.pkg.boot = .program →
    ((∀ c, c < 1024 → s.live c = true → (s.slot c 0).state = .free) → ∃ t, exec .diesIntoService s = .next t ∧ t.pkg.boot = .service
      ∧ t.mem = s.mem ∧ ∀ c, c < 1024 → s.live c = true → (t.core c).group = none ∧ (t.core c).ports = [])
    ∧ ((∃ c, c < 1024 ∧ s.live c = true ∧ (s.slot c 0).state ≠ .free) → exec .diesIntoService s = .next s))

/-! ### Statements of several parts -/

/-- Where the words at a READY slot's program counter, fetched, decode to an instruction whose features are accepted, `step` is
`exec` of it at the state after the fetch, with the acts after it still to come (R229, R241, R271, R273). A word fetched
through an instruction TLB entry that hits, with no cached line, is the one in memory at the entry's target, once reductions
held there are added and an error there is logged; of plain memory, fetching leaves memory, contexts and the slot's registers
as they were. That the bytes of a poisoned word come back as they stand, and so execute, is the model's choice, log entry 33
(R11, R78, R193, R241, R286). (07_execution.md, 08_encoding.md, 09_scalar_and_memory.md) -/
def Obligations.StepRunsFetchedInstruction : Prop :=
  Sys2Proof.Spec.StepRunsDecoded ∧ Sys2Proof.Spec.FetchReadsMemory

/-- The machine is legal after reset. After reset every word of a buffer reads zero without poison, every full-empty bit is full,
and CYC is 0 (R54). That no slot is in use, and that device memory too reads zero without poison before MEMORY_INIT, is the
model's choice: log entry 1. (02_on_chip_memory.md, 07_execution.md, 14_package_host_boot.md) -/
def Obligations.StateAtReset : Prop :=
  Sys2Proof.Spec.ResetIsLegal ∧ Sys2Proof.Spec.ResetLeaves

/-- Every way of writing memory keeps its canonical form: bytes, words, tagged bytes, landing results, a bank's accepted access.
Memory is little-endian and byte-addressed: a word written whole reads back with its tag, its bytes are its value's from the
least significant upward, and every other byte is as before (R11, R54). A write that a bank accepts: its bytes are there,
every other byte is as before, and the words it covers whole take the tags given (R11, R54, R158). (01_address_spaces.md,
02_on_chip_memory.md, 05_ordering_near.md) -/
def Obligations.MemoryReadsWhatWasWritten : Prop :=
  Sys2Proof.Spec.MemoryWritesKeepForm ∧ Sys2Proof.Spec.WordWrittenReadsBack ∧ Sys2Proof.Spec.AcceptedWriteChangesBytes

/-- A result issued at distance D lands at the D-th turn after issue: a turn earlier the register still reads as before, and from
that turn on it reads the result (R162, R205). Register w0 reads as zero without poison whatever its word holds, and a result
for it is discarded (R164). (05_ordering_near.md, 07_execution.md) -/
def Obligations.ResultsLandInTurn : Prop :=
  Sys2Proof.Spec.ResultLandsAtItsDistance ∧ Sys2Proof.Spec.RegisterZero

/-- The immediate instructions, MOVI, SEL and LEAM (R226, R245, R277, R279). SEL selects on the old destination, and an operand
that is not selected gives no poison (R279). LEA forms the address that LD would form, with no access, no check and no base
update, and LEAM builds a mesh address (R245, R247, R279, R293). (08_encoding.md, 09_scalar_and_memory.md) -/
def Obligations.ImmediateSelectAddressResults : Prop :=
  Sys2Proof.Spec.ImmediateResults ∧ Sys2Proof.Spec.SelectResult ∧ Sys2Proof.Spec.AddressResults

/-- NaN sources give the canonical NaN and no flag; ∞ − ∞ and 0 × ∞ give it with FNV, FMA's 0 × ∞ even when the addend is a NaN;
an infinity with a finite number, or with one of its sign, adds to that infinity; an infinity times a number that is not zero
is the infinity of their signs; FMA adds what the product gives to its addend by the same rules (R92, R93, R280). FMIN, FMAX,
FEQ, FLT, FLE and FCLS (R280, R281): −0 is below +0 for FMIN and FMAX and equal to it for the tests. FCVT to an integer
rounds as RM names and saturates with FNV, a NaN giving 0; from B16 and F16 it is exact; to them, and from S32, it rounds as
RM names, saturating where SAT says so, with the flags of R93 (R94, R95, R96, R282). (R281) -/
def Obligations.FloatSpecialTestConvertResults : Prop :=
  Sys2Proof.Spec.FloatSpecialResults ∧ Sys2Proof.Spec.FloatTestResults ∧ Sys2Proof.Spec.ConversionResults

/-- A compare-branch goes to its target when its relation holds of its sources, at 64 bits, and to the next instruction
otherwise; its displacement counts words from its own address; a poisoned source raises POISON instead (R246, R283). JMP, JAL
and JALR transfer control; the link is the address after the jump, at distance 1, and discarded for w0; a misaligned JALR
target raises ALIGN with FLT1 the target and FLT2 = 4, and a poisoned register POISON; NOP only moves on (R284, R287). That
the link's distance is 1, and that the trap of a misaligned target has ACC 2, is the model's choice: log entry 8.
(09_scalar_and_memory.md) -/
def Obligations.BranchAndJumpResults : Prop :=
  Sys2Proof.Spec.BranchResults ∧ Sys2Proof.Spec.JumpResults

/-- EndCheck: of the loops that end at the instruction, from loop 3 down, those with one trip left end, and the first with more
goes back to its start; with none such, the slot moves past the instruction (R289). LOOP, LOOPR and LOOPM take their count
from the extension word, wa[31:0] or MBXm[31:0]. A nonzero count starts the body after the loop instruction; a zero count,
with no loop ending at LAST, skips past the instruction there (R264, R288). RPT captures its frame and then replays it: the
captured instructions in order, replay after replay, with IDX, ITER and BACK in RPTST; the last one of the last replay ends
the frame (R254, R291, R292). That RPT runs no EndCheck, that a frame recaptured past its end raises ILL, and that RPTST
reads 0 once a frame has ended are the model's choice, log entry 8. In replay n of a frame a register field is stepped by n
times its step, modulo the register file (R254, R305). That a base updated by a repeated access is read two issues later is
the model's choice, log entry 30. YIELD moves on and then gives way until each other READY slot has been offered a turn, at
most 10 issue cycles (R287). (09_scalar_and_memory.md) -/
def Obligations.LoopsAndRepeatFrames : Prop :=
  Sys2Proof.Spec.EndCheckCountsLoops ∧ Sys2Proof.Spec.LoopSetupResults ∧ Sys2Proof.Spec.RepeatFrameRuns ∧ Sys2Proof.Spec.RepeatStepsRegisters ∧ Sys2Proof.Spec.YieldResult

/-- LD, LDX, LD.ACQ and LDS of the core's own buffers: the little-endian value at the effective address, extended, and the poison
of its word, land at distance 2, the base update at distance 1 (R205, R247, R248, R293, R294, R295). The same loads from
elsewhere park and complete at once where no earlier access of the slot is waiting: everything lands together, and the bank's
touched bit is set (R174, R176, R205, R293, R294). (05_ordering_near.md, 07_execution.md, 08_encoding.md,
09_scalar_and_memory.md) -/
def Obligations.ScalarLoads : Prop :=
  Sys2Proof.Spec.OwnLoads ∧ Sys2Proof.Spec.FarLoads

/-- An access to a misaligned address raises ALIGN, with FLT1 the address and FLT2 the size; LDS writes a poisoned zero instead,
and so it does where the page is missing, forbidden or revoked (R293, R295): at distance 2, or, where a walk parked the
context, at once when it wakes (R205). The order in which the checks of one access come is the model's choice, log entry 7.
PREF reads nothing into a register and never parks: where its page translates the base update follows; where the address is
misaligned, in mesh space or does not translate, it only moves on (R296). That a miss of PREF is walked in place is the
model's choice, log entry 14. (09_scalar_and_memory.md) -/
def Obligations.AccessFaultsAndPrefetch : Prop :=
  Sys2Proof.Spec.AccessFaults ∧ Sys2Proof.Spec.PrefetchResult

/-- ST, STX and STV to the core's own buffers write their little-endian bytes at once; the base update lands at distance 1 (R161,
R174, R293, R294, R298). A store that leaves the core posts one request that holds the address and the bytes, and no byte of
memory changes yet (R157, R161, R174, R176, R293). ST.REL waits for the slot's earlier accesses in its scope, and with none
outstanding stores as ST does (R175, R294). (05_ordering_near.md, 09_scalar_and_memory.md) -/
def Obligations.ScalarStores : Prop :=
  Sys2Proof.Spec.OwnStores ∧ Sys2Proof.Spec.FarStores ∧ Sys2Proof.Spec.ReleaseStores

/-- LDV loads 64 bytes and LDVB one element into every position, whatever VL and the masks hold, from the own core and from
elsewhere (R298). A gather or scatter acts on the lanes below VL whose mask bit is set, and checks them in ascending order
before any is accessed: a poisoned mask, or the first poisoned lane word of the index or the data, raises POISON, and a
lane's fault is the instruction's. A gather then reads each lane's element into its place, a scatter writes each lane's
element, in lane order and as one request each where it leaves the core; with no active lane nothing is accessed (R161, R176,
R299). A gather's result: each gathered lane's element is the little-endian value at its address, in the lane's place, and no
other lane is written (R299, R302). (09_scalar_and_memory.md, 10_vector.md) -/
def Obligations.VectorMemoryAccesses : Prop :=
  Sys2Proof.Spec.VectorLoads ∧ Sys2Proof.Spec.GatherAndScatter ∧ Sys2Proof.Spec.GatherWritesItsLanes

/-- AMO and CAS take the word's reservation at its bank, write their result unless the word is poisoned, and return the old value
with its tag; with REL = 1 a release at the scope comes first, and the access then sets its bank's touched bit (R175, R176,
R186, R190, R365, R366). RSV takes a reservation and returns the word; RWB under it writes, releases and returns 0; RLSN
releases and returns 0; without it both return 1 and write nothing (R186, R366, R367). (06_ordering_far.md,
12_system_instructions.md) -/
def Obligations.AtomicsAndReservations : Prop :=
  Sys2Proof.Spec.AtomicResults ∧ Sys2Proof.Spec.ReservationResults

/-- RED.F32 and SIGDEC send a request to the word's bank and go on; no byte changes until the bank accepts it (R192, R366, R372).
An accepted SIGDEC subtracts its amount from the signal word, and one that brings it to at most 0 with ARMED set clears ARMED
and sends the vector; a RED outside a reduction region adds to the word's F32, rounded once (R192, R372).
(06_ordering_far.md, 12_system_instructions.md) -/
def Obligations.ReductionsAndSignals : Prop :=
  Sys2Proof.Spec.RequestsPosted ∧ Sys2Proof.Spec.AcceptedSignalsAndSums

/-- SIGWAIT returns at once when the word is at most its bound, signed, else it parks at the word's bank until FTMO (R373). INTH
sends its vector at once when VALUE is at most 0, and arms the object otherwise; it is a release (R374).
(12_system_instructions.md) -/
def Obligations.SignalWaitsAndInterrupts : Prop :=
  Sys2Proof.Spec.SignalWaits ∧ Sys2Proof.Spec.InterruptHandles

/-- FENCE and FENCE.E with nothing outstanding complete at once and clear the touched bits of their scope (R178, R368); with
accesses of the slot in scope that no bank has accepted, the slot parks for those banks' echoes. That probes go to exactly
those banks, and that a fence without such an access completes at once whatever touched bits are set, is the model's choice,
log entry 15. A barrier opens when its last participant arrives, and every participant goes on: alone, or with the other
participants of the round waiting; an arrival before that parks until the round's timeout (R214, R370). MON arms a line on
the line of its address, MOFF clears it, and WAITM returns at once for a pending line, an interrupt or a deadline reached,
and parks otherwise (R170, R172, R369). That the landing of WAITM's result flags a line armed on its register is the model's
choice, log entry 8. (05_ordering_near.md, 07_execution.md, 12_system_instructions.md) -/
def Obligations.FencesBarriersMonitors : Prop :=
  Sys2Proof.Spec.FenceResults ∧ Sys2Proof.Spec.BarrierResults ∧ Sys2Proof.Spec.MonitorResults

/-- The operations on lanes' bits, whatever the element type: logic, moves, selection, permutation, compression, counts (R302,
R309, R311, R312, R313). Compares, reductions, scans and histograms of integer lanes (R310, R314, R315, R316, R319).
(10_vector.md) -/
def Obligations.VectorMovesAndFolds : Prop :=
  Sys2Proof.Spec.VectorMoves ∧ Sys2Proof.Spec.VectorFolds

/-- The floating-point vector operations on lanes of F32, B16 and F16: each active lane takes what the scalar operation gives in
its format, and the flags are those of the active lanes (R92, R93, R302, R307, R308, R318). The float compares, reductions
and thresholded sums, on lanes of F32, B16 and F16: compares are by value, VREDADD and VSUMGT sum exactly and round once to
F32, VREDMAX and VREDMIN give a lane none is above or below (R92, R93, R310, R314, R320). VSCAN on float lanes: ADD rounds
once at each step in the lane's format, MAX and MIN follow VMAX and VMIN, each segment from its own start; AFFINE composes
(a, b) pairs of F32 lanes and applies them to the state that enters the segment, and for another element type leaves the
register and sets FNV; a NaN that it writes is canonical (R92, R133, R315, R316, R317). (03_formats_and_views.md,
04_strands.md, 10_vector.md) -/
def Obligations.VectorFloatLanes : Prop :=
  Sys2Proof.Spec.VectorFloatArithmetic ∧ Sys2Proof.Spec.VectorFloatFolds ∧ Sys2Proof.Spec.VectorFloatScans

/-- TBLSET loads the slot's table from its image, valid where lo and hi are finite and lo < hi; VTLI gives the end knots outside
[lo, hi], interpolates exactly and rounds once between finite knots, and gives a NaN with FNV from an invalid table; SETVL
sets VL, at most 128, for the instructions that follow (R306, R325, R327). Pointer operands: the source is the line at the
address register, the destination line takes the result and its tags, and each address register named rises by 64 once, at
distance 1; a destination in the slot's own workspace takes the result before the next instruction issues, any other at
distance 2 (R163, R251, R304). (08_encoding.md, 10_vector.md) -/
def Obligations.TablesLengthsAndPointers : Prop :=
  Sys2Proof.Spec.TablesAndLengths ∧ Sys2Proof.Spec.PointerOperands

/-- An MMA whose class, sources, descriptors and scale offsets are in order enters its core's queue in the slot's round, with its
operands as read; the increments land at distance 1, and with SK = 1 and EN = 1 it takes its skip words and BASE and LEN move
on (R329, R331, R332, R333, R339, R343). MZERO, MOUT, SKSET and GANG: the first two enter the matrix queue, MOUT with its
destination words emptied and held; SKSET writes SK; in a gang of one, GANG opens a round with the slot's GTMO, closing the
one before it, once every step issued has started; until then it waits, uncounted, with its GTMO running where the steps are
another slot's (R71, R334, R339, R342, R344, R345). MZERO_DONE leaves the set as zeros without poison; MOUT_DONE converts
every element to its output type, divided by its scale, and its words are full and no longer held; the flags enter the STAT
of the slot that issued it, which runs on (R71, R96, R344, R345). MATRIX_QUEUE_RUN does the same for the queue's first
operation. (11_matrix_and_ports.md) -/
def Obligations.MatrixQueue : Prop :=
  Sys2Proof.Spec.MatrixIssue ∧ Sys2Proof.Spec.MatrixControl ∧ Sys2Proof.Spec.MatrixQueueEffects

/-- PUSH and PUSHV append one entry to the peer's incoming queue while it holds fewer than 4 (2) entries, and park at a full one;
POP and POPV take the oldest entry of the own queue, PEEK reads it, each with its mark; with no peer each raises NOPEER
(R217, R218, R348, R349, R350). That cores of no placement group share ports where slot 0 of both holds one context, and that
wm lands after wd, is the model's choice, log entry 27. PCFG returns the queue counts, full bits and peers of the six
directions, or one peer's place; the next slot of the core is the peer in direction LP, the one before in LM; a port wait
longer than its limit raises PORT_TIMEOUT (R217, R218, R352). That PORTQ and PEEK change nothing, and which FTMO times a port
out, is the model's choice, log entry 27. (07_execution.md, 11_matrix_and_ports.md) -/
def Obligations.Ports : Prop :=
  Sys2Proof.Spec.PortTransfers ∧ Sys2Proof.Spec.PortStatusAndTimeout

/-- Strand instructions on a strand of one bead. SLOC and SSTEP find a position in it, SSUM of an integer SUM facet adds its
elements modulo 2^32, and KVPG.SLOT compares the generation tag of the position's ring slot, each with the root pinned by a
reference that it gives back. SREF.HOLD raises REFCNT by one and SREF.REL lowers it; SCAT with the empty strand and a split
at the end give the bead one reference more, and so does SSPLICE of it into the empty strand, a choice of the model (log
entry 34) (R126, R133, R139, R142, R143, R145, R152, R358, R359, R360). SCOMMIT writes the new root and ITER + 1 when ITER
matches, and queues the release of the old root; it writes nothing when ITER does not match or the root is that already.
STRAND_FREE takes the first task queued: the release of a bead lowers its REFCNT by one, an old root outside the arena names
no node and is passed over (log entry 34), and a descriptor to be freed is marked freed and gives its unit back (R125, R128,
R143, R146, R148). (04_strands.md, 12_system_instructions.md) -/
def Obligations.StrandOperations : Prop :=
  Sys2Proof.Spec.StrandOfOneBead ∧ Sys2Proof.Spec.StrandCommitAndFree

/-- VIEW.LD and VIEW.WAIT send a request to the view's churn and park, VIEW.LD with its destination held; a block past the end
returns RANGE. The churn answers a fresh block with its version (and VIEW.LD's data, not shown here), a stale one by the
view's policy: WAIT keeps the request, LATEST returns the last publication, or tag 0 with STALE when there is none, and FAULT
raises VIEW_STALE with the handle and the block; a request that WAIT keeps for a stale block raises SYNC_TIMEOUT with detail
VIEWWAIT past FTMO, and no other does. Two points are the model's choice: bits [63:32] of the handle's register are not
looked at (log entry 35), and FLT1 of VIEWWAIT is the handle (log entry 13) (R71, R104, R118, R119, R361, R362). The churn's
refresh of a stale block of master and view data that it can read and publish: the words of the converted block, the tag
record's new version with VALID set, and the block leaves the queue; a block that is fresh already only leaves it. PEND_TAKE
moves a pending block to the queue (R115, R116, R117, R118). Which pending block is taken first is the model's choice, log
entry 35. (03_formats_and_views.md, 12_system_instructions.md) -/
def Obligations.ViewReadsAndRefreshes : Prop :=
  Sys2Proof.Spec.ViewReads ∧ Sys2Proof.Spec.ViewRefreshes

/-- ENG.CPY joins its cluster's queue with its promise, which it returns; ENG.POOLRD and ENG.POOLWR join it and park; ENG.SLEEPU
parks until its wake cycle (R67, R69, R70, R71, R74, R85, R364). The order of the checks, and that a command which fails one
is not queued, is the model's choice, log entry 11. The events of engines and of the pool: a command starts, completes and
leaves its queue; a sleeper wakes at its cycle; a missed promise is told to its slot; a pool line is accepted by the frame's
owner only, a silent pool ends with TIMEOUT, and the directory names a new owner in one step. The lines of a frame that a
POOLWR has begun are accepted before the move, the model's way to handle a frame as a unit (log entry 11) (R52, R67, R70,
R72, R74, R85, R86, R182, R184, R412). (02_on_chip_memory.md, 06_ordering_far.md, 12_system_instructions.md) -/
def Obligations.EnginesAndPool : Prop :=
  Sys2Proof.Spec.EngineCommands ∧ Sys2Proof.Spec.EngineEvents

/-- LAUNCH queues its record at the issuer's die under a group and charges the budget, or refuses it: BADREC, NOQUEUE, NOGROUP
(R377, R394, R396, R403). The order of the refusals is the model's choice, log entry 17. The sequencer: an eligible head of
one work item is placed and its core loaded at CODE with WID and the record's address; a head that has waited its AGE moves
up one priority; when every work item has exited, the next iteration starts, and after the last one a launch without a
completion signal leaves the sequencer and returns its budget; one with a signal does so when a bank has accepted the
decrement (R394, R398, R400, R401, R402, R403, R451). How the wait word is read, and what the end of an iteration drops, is
the model's choice, log entry 17. (12_system_instructions.md, 13_scheduling_and_contexts.md) -/
def Obligations.LaunchAndSequencer : Prop :=
  Sys2Proof.Spec.LaunchResult ∧ Sys2Proof.Spec.SequencerEvents

/-- CTX.RUN makes READY the HALTED slots of a stopped child, and of those of its descendants that their own parents left running,
a reading of R382 (log entry 18); CTX.STOP halts the slots of the child and its descendants and parks until the halt
completes; HALT_COMPLETE wakes the issuer with 0; of a running child, and of a stopped one, each changes nothing; an
operation of the tree logic waits for an earlier one of its partition (R43, R378, R382, R411). A reply is dropped for another
generation, completes the slot that waits for it, lands its status where the slot waits for another or for none, tells a
loaded slot of its trap, and is kept for a context that is stopped while it holds the core (R412, R413).
(12_system_instructions.md, 13_scheduling_and_contexts.md) -/
def Obligations.ContextRunStopReply : Prop :=
  Sys2Proof.Spec.ContextRunStop ∧ Sys2Proof.Spec.ReplyHandling

/-- CSRR returns the register its number names at distance 1, with the tag of a held control-block word; CSRW changes the
writable bits of a control-block word and no other and keeps its tag, clamps VL to 128, and leaves a read-only register
alone; of either, a number that is not listed raises ILL (R165, R208, R209, R210, R386). That a CSRR of a held word carries
its tag is the model's choice, log entry 7. The registers whose write has an effect of its own: ARENA starts the arena anew
or leaves it alone; REDRGN takes a region it can register, and else reads 0; XSPLIT and FEAT are the root's, FEAT until the
root has created a partition (R103, R127, R272, R387, R388, R436). Four points are the model's choice: that a descriptor with
a poisoned word leaves the arena alone and that ARENA settles the slot's earlier accesses first (log entry 28), what a region
costs (log entry 19), and that a count above 256 registers none (log entry 22). (03_formats_and_views.md, 04_strands.md,
07_execution.md, 12_system_instructions.md) -/
def Obligations.SystemRegistersAndWrites : Prop :=
  Sys2Proof.Spec.SystemRegisters ∧ Sys2Proof.Spec.SystemWrites

/-- A trap of a slot whose owner is its own control context: the slot is FAULTED with its fault record in the control block and
its PC saved; slot 0 enters the handler's workspace at the PC kept there with UM = 1, w1 the faulting slot, w2 its workspace
and w3 the interrupted one; while a handler runs the slot is queued (R165, R211, R221, R222). BRK raises such a trap at the
next instruction, TRAP one that the parent takes (R232, R389). In what order kept traps come, and what a bad UPV code does,
is the model's choice, log entries 8 and 31. UPRET loads the faulted slot with its workspace, which goes on from the PC kept
there, and slot 0 with the interrupted one, with UM = 0; h = 0 resumes slot 0 on the workspace named; with another slot
queued the handler is entered again; UM = 0, a slot that is not FAULTED and a bad workspace code trap (R223, R390). That the
workspace operand's bits above [4:0] are ignored is the model's choice, log entry 8. (07_execution.md,
12_system_instructions.md) -/
def Obligations.ExceptionEntryAndReturn : Prop :=
  Sys2Proof.Spec.ExceptionEntry ∧ Sys2Proof.Spec.UpcallReturn

/-- A trap that its parent owns stops the context, records the fault in the slot with the receiver's depth, and is taken at the
parent's reflection target, or is kept there while that slot is HALTED with the parent; past the root's children it reaches
Akmon (R225, R230, R231). Which reflection target takes the trap is the model's choice, log entry 16. The helper, launch,
context, invalidation, sleep and interrupt instructions and UPRET, and writes of ARENA, REDRGN and XSPLIT, use their
operands: the first that is poisoned raises POISON, with the workspace offset of its register in FLT1, before anything else
(R227, R354). (07_execution.md, 12_system_instructions.md) -/
def Obligations.TrapsClimb : Prop :=
  Sys2Proof.Spec.TrapReflection ∧ Sys2Proof.Spec.PoisonRaises

/-- Events at banks and at owners of full-empty words: a store is accepted once no other slot reserves its word; a synchronising
request completes on a full word; a refused one is presented again after its backoff; a fence ends with its last echo, an RSV
reservation after 4,096 cycles, a WAITM at its deadline, an invalidation with its last echo (R37, R62, R64, R76, R157, R172,
R177, R178, R189). That a reservation ends once more than 4,096 cycles have passed, and that probes go one to each touched
bank, is the model's choice, log entry 15. Timeouts: a synchronising request past FTMO or PRLIM is withdrawn and raises
SYNC_TIMEOUT, a SIGWAIT past FTMO does too, and the waiters of a barrier, of a gang's barrier and of a step past GTMO receive
GANG_TIMEOUT (R64, R216, R338, R370, R373). Which steps a timeout of a round discards is the model's choice, log entries 10
and 30. (02_on_chip_memory.md, 05_ordering_near.md, 06_ordering_far.md, 07_execution.md, 95_what_each_step_holds.md) -/
def Obligations.BankEventsAndTimeouts : Prop :=
  Sys2Proof.Spec.BankEvents ∧ Sys2Proof.Spec.Timeouts

/-- The host's window 2 reads and writes the bytes of the partition's frames, and answers UR or drops data where stage 2 fails;
control pages; interrupts reach a slot of the partition, or are lost (R173, R422, R424, R425, R426, R433). That a failed
access of an unbound function is not recorded is the model's choice, log entry 25. Akmon's mailbox takes one command at a
time: it records the command, sets GO, carries it out, and answers with STATUS, OUTLEN, DONE and PF vector 0; FWLOAD, QUOTE,
OWNMOVE, LOGREAD and an unknown code; while GO = 1 only words of the command block and of MBUF change; the host writes MCMD,
of whose first word bits [7:0] alone are kept, MBUF and DONE, and the power limit is clamped and takes effect (R432, R433,
R434, R435, R437, R438, R439). That OWNMOVE needs the frame to be owned here, and the layout of a quote, is the model's
choice, log entries 24 and 25. (14_package_host_boot.md, 95_what_each_step_holds.md) -/
def Obligations.HostAndMailbox : Prop :=
  Sys2Proof.Spec.HostAccesses ∧ Sys2Proof.Spec.MailboxCommands

/-- Every instruction and every event of the part, in every state, answers a next state: an exception is taken, never a stop. -/
def Obligations.NeverStops : Prop :=
  ∀ (i : Instr) (s : State), ∃ t : State, exec i s = .next t
end

