-- ==== Sys2Proof/Laws/Access.lean ====
section
/-!
SUPPORT. What the operations shared by the scalar instructions, the transfers of control and the scalar loads and stores do
when nothing stops them: one equation each, so that no proof about an instruction unfolds them.
-/

namespace Sys2Proof.Machine

namespace State

/-! ### Register operations -/

theorem tainted_one (s : State) (a : Reg) : s.tainted [a] = (s.reg a).poison := by simp [tainted]

theorem tainted_two (s : State) (a b : Reg) : s.tainted [a, b] = ((s.reg a).poison || (s.reg b).poison) := by simp [tainted]

/-- An operation on two registers puts its result in flight and moves on. -/
theorem alu2_quiet {s : State} (h : s.Quiet) (st : Stall) (D : Nat) (d a b : Reg) (f : Word → Word → Word) :
    s.alu2 st D d a b f = s.results st 4 [(D, s.wr d (f (s.reg a).val (s.reg b).val) (s.tainted [a, b]))] := by
  rw [alu2, readCheck_quiet h, finish_quiet h, tainted_two]

/-- An operation on one register puts its result in flight and moves on. -/
theorem alu1_quiet {s : State} (h : s.Quiet) (st : Stall) (D len : Nat) (d a : Reg) (f : Word → Word) :
    s.alu1 st D len d a f = s.results st len [(D, s.wr d (f (s.reg a).val) (s.tainted [a]))] := by
  rw [alu1, readCheck_quiet h, finish_quiet h, tainted_one]

/-! ### Transfers of control -/

/-- A compare-branch of clean registers transfers control or moves on, as its relation says. -/
theorem branch_clean {s : State} (h : s.Quiet) (st : Stall) (op : BranchOp) {a b : Reg} (hc : s.Clean [a, b]) (p : Disp) :
    s.branch st op a b p = if branchTaken op (s.reg a).val (s.reg b).val then s.transfer st (s.me.pc + dispBytes p)
      else s.retire st (dispLen p) := by
  rw [branch, useRegs_clean h hc]

/-! ### Scalar accesses -/

theorem firstPoison_clean {s : State} {rs : List Reg} (h : s.Clean rs) : s.firstPoison rs [] = none := by
  simp [firstPoison, poisonReg_clean h]

/-- With no reduction held and no word uncorrectable, touching words changes nothing (R78, R193). -/
theorem touchWords_plain {s : State} (hu : s.uncorr = []) (hr : s.redSlots = []) (a n : Nat) : s.touchWords a n = s := by
  unfold touchWords
  generalize wordsOf a n = l
  have one : ∀ w, (s.logUncorr w).flushWord w = s := by
    intro w
    simp [flushWord, hr, logUncorr, hu]
  induction l with
  | nil => rfl
  | cons w l ih => simp only [List.foldl_cons, one]; exact ih

/-- With no result in flight, an access waits for none (R163). -/
theorem settleOwn_none {s : State} (h : s.me.pend = []) (a n : Nat) (own : Bool) : s.settleOwn a n own = s := by
  unfold settleOwn
  split
  · generalize wordsOf a n = l
    induction l with
    | nil => rfl
    | cons w l ih =>
      have one : s.landWord s.cur.1 s.cur.2 (8 * w) = s := by
        have hp : (s.slot s.cur.1 s.cur.2).pend = [] := h
        simp [landWord, turnsTo, hp, passTurns]
      simp only [List.foldl_cons, one]; exact ih
  · rfl

/-- With no request of the machine waiting, an access follows none (R161). -/
theorem orderOwn_none {s : State} (h : s.reqs = []) (a n : Nat) : s.orderOwn a n = (s, true) := by
  simp only [orderOwn, h, List.any_nil, Bool.false_eq_true, if_false, Bool.not_false]

/-- With no SIGDEC of the slot waiting, an access of the own pipeline goes on (R174). -/
theorem afterSig_none {s : State} (h : s.reqs.any s.mySig = false) (own : Bool) (k : State → State) : s.afterSig own k = k s := by
  simp [afterSig, h]

/-- A load of the own core's buffers through clean registers: what `k` makes of the bytes and their words' poison is in
flight at distance 2, the base update at distance 1 (R205, R293). -/
theorem load_own {s : State} (st : Stall) (len : Nat) (m : MAddr) (k : State → List Byte → List Bool → List WordWrite)
    {a : Nat} {v : Bool} (hg : s.reqs.any s.mySig = false) (hu : s.uncorr = []) (hr : s.redSlots = []) (hp : s.me.pend = []) (hm : (s.core s.cur.1).matrix = [])
    (hc : s.Clean (mRegs m)) (ha : (s.ea m).toNat % m.size = 0) (ht : s.resolve (s.ea m) m.size .read = .at_ a true v) :
    s.load st len m k = s.results st len
      [(2, k s (mread s.mem a m.size) ((wordsOf a m.size).map fun w => (s.bankWord (8 * w)).poison)), (1, s.baseWrite m)] := by
  have hq : s.Quiet := .inr hp
  have hw : ∀ p, s.matPending p = false := by intro p; simp [matPending, hm]
  rw [load, withEa, readCheck_quiet hq, firstPoison_clean hc]
  simp only [ha, ne_eq, not_true, if_false, withTarget, ht, waitAcc, hw, Bool.and_false, Bool.false_eq_true, loadAt, touch,
    if_true, afterSig_none hg, settleOwn_none hp, touchWords_plain hu hr, finish_quiet hq]

/-- A store to the own core's buffers through clean registers writes its bytes at once (R161, R293). -/
theorem storeScalar_own {s : State} (st : Stall) (len : Nat) (d : Reg) (m : MAddr) {a : Nat} {v : Bool} (hg : s.reqs.any s.mySig = false)
    (hp : s.me.pend = []) (hd : (s.reg d).poison = false) (hc : s.Clean (mRegs m)) (ha : (s.ea m).toNat % m.size = 0)
    (ht : s.resolve (s.ea m) m.size .write = .at_ a true v)
    (hq' : (s.bankWrite a (natBytes m.size (s.reg d).val.toNat) []).Quiet) :
    s.storeScalar st len d m none
      = (s.bankWrite a (natBytes m.size (s.reg d).val.toNat) []).results st len
          [(1, s.baseWrite m)] := by
  have hq : s.Quiet := .inr hp
  have hn : s.firstPoison (mRegs m) [(8 * d.toNat, (s.reg d).poison)] = none := by
    simp [firstPoison, poisonReg_clean hc, hd]
  rw [storeScalar, withEa, readCheck_quiet hq, hn]
  simp only [ha, ne_eq, not_true, if_false, withTarget, ht, storeAt, afterSig_none hg, settleOwn_none hp, store, touch,
    if_true, finish_quiet hq']

end State

end Sys2Proof.Machine
end

