-- ==== Sys2Proof/Tests/Slice0.lean ====
section
/-!
SUPPORT. Tests of the model: ill-formed terms that the check refuses, words written out from the spec's encodings, one step of small
states, and for every obligation with hypotheses states that meet them.
-/

open Sys2Proof Sys2Proof.Machine Sys2Proof.Spec

namespace Sys2Proof.Tests

set_option Elab.async false

/-! ### Well-formedness: a term that each condition refuses, beside one that it lets pass -/

theorem test_wf_width : (Instr.add 0 1 2 3 3).wf = false ∧ (Instr.popc 0 1 2 3).wf = false ∧ (Instr.add 0 1 2 3 2).wf = true := by decide
theorem test_wf_shift : (Instr.shli 0 1 2 (.short 64)).wf = false ∧ (Instr.sari 0 1 2 (.long 64)).wf = false
    ∧ (Instr.shri 0 1 2 (.short 63)).wf = true := by decide
theorem test_wf_lea : (Instr.lea 0 1 2 1 0).wf = false ∧ (Instr.leaLong 0 1 2 0 ⟨0, false, 2⟩ 0).wf = false
    ∧ (Instr.leaLong 0 1 2 3 ⟨0, false, 3⟩ 64).wf = false ∧ (Instr.leaLong 0 1 2 3 ⟨0, false, 3⟩ 63).wf = true := by decide
theorem test_wf_fcvt : (Instr.fcvt 0 1 2 7 false 0).wf = false ∧ (Instr.fcvt 0 1 2 6 false 0).wf = true := by decide
theorem test_wf_loops : (Instr.loop 0 0 1 5).wf = false ∧ (Instr.loopr 0 0 1 0).wf = false ∧ (Instr.loopm 0 0 1 0).wf = false
    ∧ (Instr.loop 0 0 2 5).wf = true := by decide
theorem test_wf_load : (Instr.ld 0 5 5 1 0).wf = false ∧ (Instr.ldLong 0 5 6 0 ⟨0, true, 3⟩ 0).wf = false
    ∧ (Instr.ldLong 0 5 6 0 ⟨1, false, 3⟩ 0).wf = false ∧ (Instr.ldLong 0 5 6 3 ⟨0, false, 3⟩ 64).wf = false
    ∧ (Instr.ld 0 5 5 0 0).wf = true := by decide
theorem test_wf_loadIndexed : (Instr.ldx 0 1 2 (.long ⟨1, false, 3⟩ 0)).wf = false ∧ (Instr.ldx 0 1 2 (.long ⟨0, false, 3⟩ 64)).wf = false
    ∧ (Instr.lds 0 3 3 2 (.short 0)).wf = false ∧ (Instr.ldAcq 0 3 3 1 (.short 0)).wf = false := by decide
theorem test_wf_store : (Instr.stLong 0 1 2 0 ⟨0, true, 3⟩ 0).wf = false ∧ (Instr.stx 0 1 2 (.long ⟨2, false, 3⟩ 0)).wf = false
    ∧ (Instr.stRel 0 1 2 3 .dev 3 64).wf = false ∧ (Instr.stLong 0 1 2 0 ⟨0, false, 0⟩ 0).wf = true := by decide
theorem test_wf_fixedSize : (Instr.pref 0 1 0 (.long ⟨0, false, 2⟩ 0)).wf = false ∧ (Instr.ldf 0 4 4 1 (.short 0)).wf = false
    ∧ (Instr.ste 0 1 2 0 (.long ⟨1, false, 3⟩ 0)).wf = false ∧ (Instr.ldv 0 1 2 0 (.long ⟨0, false, 3⟩ 0)).wf = false
    ∧ (Instr.feqry 0 4 4 2 (.short 0)).wf = false ∧ (Instr.feset 0 1 0 (.long ⟨0, false, 3⟩ 8)).wf = true := by decide
theorem test_wf_gather : (Instr.ldvx 0 1 2 (.short 32)).wf = false ∧ (Instr.stvx 0 1 2 (.long ⟨0, false, 3⟩ 0)).wf = false
    ∧ (Instr.ldvx 0 1 2 (.long ⟨0, false, 2⟩ 256)).wf = false ∧ (Instr.ldvb 0 1 2 0 (.long ⟨0, true, 0⟩ 0)).wf = false
    ∧ (Instr.ldvx 0 1 2 (.short 31)).wf = true := by decide
theorem test_wf_atomics : (Instr.amo 0 .add 1 2 3 false false .dev).wf = false ∧ (Instr.cas 0 1 2 3 4 false false .dev).wf = false
    ∧ (Instr.amo 0 .add 1 2 3 true true .dev).wf = true := by decide
theorem test_wf_vectorTypes : (Instr.vectorLong 0 .vmul 1 2 3 0 3 ⟨0, 0, false, false, false, 0, false, 1⟩).wf = false
    ∧ (Instr.vshl 0 1 2 3 0 0).wf = false ∧ (Instr.vsar 0 1 2 3 0 1).wf = false ∧ (Instr.vhist 0 1 2 0 0).wf = false
    ∧ (Instr.vectorLong 0 .vadd 1 2 3 0 1 ⟨0, 0, false, false, false, 0, false, 2⟩).wf = false ∧ (Instr.vadd 0 1 2 3 0 3).wf = true := by decide
theorem test_wf_vectorFields : (Instr.vectorLong 0 .vcnt 1 2 0 0 0 .none).wf = false
    ∧ (Instr.vectorLong 0 .vabs 1 2 1 0 0 .none).wf = false
    ∧ (Instr.vectorLong 0 .vadd 1 2 3 0 0 ⟨4, 0, false, false, false, 0, false, 0⟩).wf = false
    ∧ (Instr.vectorLong 0 .vadd 1 2 3 0 0 ⟨0, 4, false, false, false, 0, false, 0⟩).wf = false
    ∧ (Instr.vectorLong 0 .vcmpeq 8 2 3 0 0 .none).wf = false
    ∧ (Instr.vectorLong 0 .vcmpeq 1 2 3 0 0 ⟨0, 0, true, false, false, 0, false, 0⟩).wf = false
    ∧ (Instr.vectorLong 0 .vadd 1 2 3 0 0 ⟨0, 0, false, false, false, 1, false, 0⟩).wf = false
    ∧ (Instr.vectorLong 0 .vadd 1 2 3 0 0 ⟨0, 0, false, false, false, 0, true, 0⟩).wf = false
    ∧ (Instr.vectorLong 0 .vadd 8 2 3 0 0 ⟨0, 0, true, false, false, 0, false, 0⟩).wf = false
    ∧ (Instr.vectorLong 0 .vadd 1 8 3 0 0 ⟨0, 0, false, true, false, 0, false, 0⟩).wf = false
    ∧ (Instr.vectorLong 0 .vadd 1 2 8 0 0 ⟨0, 0, false, false, true, 0, false, 0⟩).wf = false
    ∧ (Instr.vectorLong 0 .vadd 1 2 7 0 0 ⟨0, 0, true, true, true, 0, false, 0⟩).wf = true := by decide
theorem test_wf_conversions : (Instr.vcvtB16F32 0 1 2 2 0).wf = false ∧ (Instr.vcvtE4F32 0 1 2 4 0).wf = false
    ∧ (Instr.vcvtF4F32 0 1 2 8 0).wf = false ∧ (Instr.vtli 0 1 2 2 0).wf = false ∧ (Instr.vcvtF32F4 0 1 2 7 0).wf = true := by decide
theorem test_wf_matrix : (Instr.mmaBB 0 11 20 0 false false false false false).wf = false ∧ (Instr.mmaBB 0 10 21 0 false false false false false).wf = false
    ∧ (Instr.mmaBB 0 10 20 6 false false false false false).wf = false ∧ (Instr.mmaBF 0 10 20 6 false false false false true).wf = false
    ∧ (Instr.mout 0 31 0 false 1 0 false false).wf = false ∧ (Instr.mout 0 30 0 false 6 0 false false).wf = false
    ∧ (Instr.skset 0 448 65).wf = false ∧ (Instr.skset 0 448 64).wf = true := by decide
theorem test_wf_ports : (Instr.push 0 5 6 false).wf = false ∧ (Instr.popv 0 5 7 0).wf = false ∧ (Instr.peek 0 5 5 0).wf = true := by decide
theorem test_wf_strands : (Instr.ssplit 0 5 6 7).wf = false ∧ (Instr.scommit 0 5 6 7 8).wf = false ∧ (Instr.ssum 0 28 1 2 3 0).wf = false
    ∧ (Instr.ssum 0 27 1 2 3 0).wf = true := by decide
theorem test_wf_csr : (Instr.csrr 0 1 0x21).wf = false ∧ (Instr.csrr 0 1 0x109).wf = false ∧ (Instr.csrw 0 1 0x110).wf = false
    ∧ (Instr.csrw 0 1 0x103).wf = false ∧ (Instr.csrr 0 1 0x111).wf = true ∧ (Instr.csrw 0 1 0x00D).wf = true := by decide

/-! ### Decoding: words written out in the spec (R255, and the tables of examples of each family) -/

theorem test_decode_integer : decodeWords 0x0011461C 0 = .ok (.add 0 5 6 7 0) ∧ decodeWords 0x2011461C 0 = .ok (.add 2 5 6 7 0)
    ∧ decodeWords 0x0020C416 0 = .ok (.sub 0 3 4 5 2) ∧ decodeWords 0x003146FD 0 = .ok (.addi 0 5 6 0xFD)
    ∧ decodeWords 0x80314600 0x3E8 = .ok (.addiLong 0 5 6 1000) ∧ decodeWords 0x01514603 0 = .ok (.shli 0 5 6 (.short 3))
    ∧ decodeWords 0x8281C000 0x12345678 = .ok (.movi 0 7 0x12345678) ∧ decodeWords 0x0271461C 0 = .ok (.sel 0 5 6 7)
    ∧ decodeWords 0x82AE4000 0x4001B048 = .ok (.leam 0 57 0 0x8003 0x3048) := by decide
theorem test_decode_float : decodeWords 0x0431461C 0 = .ok (.fma 0 5 6 7) ∧ decodeWords 0x04A20901 0 = .ok (.fcvt 0 8 9 0 false 1) := by decide
theorem test_decode_control : decodeWords 0x0510C0FD 0 = .ok (.bne 0 3 0 0xFD) ∧ decodeWords 0x0520C405 0 = .ok (.blt 0 3 4 5)
    ∧ decodeWords 0x057FC064 0 = .ok (.jal 0 63 (.short 100)) ∧ decodeWords 0x05803F00 0 = .ok (.jalr 0 0 63 (.short 0))
    ∧ decodeWords 0x85900005 0x3E8 = .ok (.loop 0 0 5 1000) ∧ decodeWords 0x05A00503 0 = .ok (.loopr 0 0 5 3)
    ∧ decodeWords 0x05B04204 0 = .ok (.loopm 0 1 2 4) ∧ decodeWords 0x85C10630 0x10100000 = .ok (.rpt 0 1 99 1 0 1 0)
    ∧ decodeWords 0x05E00000 0 = .ok (.nop 0) := by decide
theorem test_decode_memory : decodeWords 0x06027A02 0 = .ok (.ld 0 9 58 0 2) ∧ decodeWords 0x06027A40 0 = .ok (.ld 0 9 58 1 0)
    ∧ decodeWords 0x06027AC5 0 = .ok (.ld 0 9 58 3 5) ∧ decodeWords 0x86027A04 0x3E8 = .ok (.ldLong 0 9 58 0 ⟨0, true, 0⟩ 1000)
    ∧ decodeWords 0x06427A02 0 = .ok (.lds 0 9 58 0 (.short 2)) ∧ decodeWords 0x86213BC1 6 = .ok (.ldx 0 4 59 (.long ⟨0, false, 1⟩ 6))
    ∧ decodeWords 0x06913901 0 = .ok (.stf 0 4 57 0 (.short 1)) ∧ decodeWords 0x06D0F902 0 = .ok (.ldv 0 3 57 0 (.short 2))
    ∧ decodeWords 0x06F1BAC9 0 = .ok (.ldvx 0 6 58 (.short 9)) ∧ decodeWords 0x06E07A40 0 = .ok (.stv 0 1 58 1 (.short 0))
    ∧ decodeWords 0x17114A00 0 = .ok (.ldvb 1 5 10 0 (.short 0)) ∧ decodeWords 0x87313B23 8 = .ok (.stRel 0 4 59 0 .dev 3 8) := by decide
theorem test_decode_synchronisation : decodeWords 0x8780BC0C 0x0E000000 = .ok (.amo 0 .add 2 60 3 true true .dev)
    ∧ decodeWords 0x8780BC0C 0x80000000 = .ok (.amo 0 .swap 2 60 3 false false .ctx)
    ∧ decodeWords 0x8790BC0C 0x16000000 = .ok (.cas 0 2 60 3 5 true false .ctx) ∧ decodeWords 0x07A13A00 0 = .ok (.rsv 0 4 58)
    ∧ decodeWords 0x07B17A18 0 = .ok (.rwb 0 5 58 6) ∧ decodeWords 0x07C17A00 0 = .ok (.rlsn 0 5 58) ∧ decodeWords 0x07D03A18 0 = .ok (.redF32 0 58 6)
    ∧ decodeWords 0x07E00004 0 = .ok (.fence 0 .dev) ∧ decodeWords 0x07F0BA00 0 = .ok (.mon 0 2 58) ∧ decodeWords 0x08008000 0 = .ok (.moff 0 2)
    ∧ decodeWords 0x08110500 0 = .ok (.waitm 0 4 5) ∧ decodeWords 0x08200000 0 = .ok (.barClu 0) ∧ decodeWords 0x08200001 0 = .ok (.barGang 0)
    ∧ decodeWords 0x08303A18 0 = .ok (.sigdec 0 58 6) ∧ decodeWords 0x08413A18 0 = .ok (.sigwait 0 4 58 6)
    ∧ decodeWords 0x0FE14014 0 = .ok (.inth 0 5) := by decide
theorem test_decode_vector : decodeWords 0x08844300 0 = .ok (.vadd 0 8 16 24 0 0)
    ∧ decodeWords 0x88808880 0x180000 = .ok (.vectorLong 0 .vadd 1 2 4 0 0 ⟨0, 0, true, true, false, 0, false, 0⟩)
    ∧ decodeWords 0x08B214C9 0 = .ok (.vfma 0 4 5 6 2 1) ∧ decodeWords 0x88C08863 0x2000 = .ok (.vectorLong 0 .vmin 1 2 3 0 3 ⟨0, 0, false, false, false, 0, false, 1⟩)
    ∧ decodeWords 0x0971A120 0 = .ok (.vcmplt 0 3 8 9 0 0) ∧ decodeWords 0x8A518802 0x1402000 = .ok (.vectorLong 0 .vhist 3 2 0 0 2 ⟨0, 10, false, false, false, 0, false, 1⟩)
    ∧ decodeWords 0x0A320002 0 = .ok (.vidx 0 4 0 2) ∧ decodeWords 0x1990_8024 0 = .ok (.vsel 1 1 0 1 1 0)
    ∧ decodeWords 0xAA030440 0x19200000 = .ok (.vectorLong 2 .vscan 6 1 2 0 0 ⟨3, 9, false, false, false, 0, false, 0⟩)
    ∧ decodeWords 0x0A714600 0 = .ok (.setvl 0 5 6) := by decide
theorem test_decode_conversions : decodeWords 0x8D252C60 0x2800000 = .ok (.vectorLong 0 .cvtF4F32 10 11 3 0 0 ⟨0, 20, false, false, false, 0, false, 0⟩)
    ∧ decodeWords 0x8C819020 0x180000 = .ok (.vectorLong 0 .cvtB16F32 3 4 1 0 0 ⟨0, 0, true, true, false, 0, false, 0⟩)
    ∧ decodeWords 0x0D810400 0 = .ok (.vexp 0 2 1 0) ∧ decodeWords 0x3DC08420 0 = .ok (.vtli 3 1 1 1 0) := by decide
theorem test_decode_matrix : decodeWords 0x8E800000 0 = .ok (.gang 0) ∧ decodeWords 0x8E000A50 0x2000003 = .ok (.mmaBB 0 10 20 0 true true true false false)
    ∧ decodeWords 0x8E100A50 0x1800000C = .ok (.mmaEE 0 10 20 6 false false false true true) ∧ decodeWords 0x8E600000 0x2000000 = .ok (.mzero 0 true)
    ∧ decodeWords 0x8E778000 0x41 = .ok (.mout 0 30 0 false 1 0 false true) ∧ decodeWords 0x8E900000 0x8000 = .ok (.skset 0 0 64) := by decide
theorem test_decode_ports : decodeWords 0x0EA14000 0 = .ok (.push 0 5 0 false) ∧ decodeWords 0x0EA14301 0 = .ok (.push 0 5 3 true)
    ∧ decodeWords 0x0EC1811C 0 = .ok (.pop 0 6 1 7) ∧ decodeWords 0x0ED0C200 0 = .ok (.popv 0 3 2 0) ∧ decodeWords 0x0EE24420 0 = .ok (.peek 0 9 4 8)
    ∧ decodeWords 0x0EF10500 0 = .ok (.pcfg 0 4 5) := by decide
theorem test_decode_strands : decodeWords 0x0F0044EC 0 = .ok (.snewDesc 0 4 59) ∧ decodeWords 0x8F100310 0x14000000 = .ok (.scat 0 3 4 5)
    ∧ decodeWords 0x8F300620 0x24A00000 = .ok (.ssplice 0 6 8 9 10) ∧ decodeWords 0x8F400828 0x2CC00001 = .ok (.ssum 0 8 10 11 12 1)
    ∧ decodeWords 0x0F704328 0 = .ok (.srefRel 0 3 10) ∧ decodeWords 0x8F8004E4 0x18700000 = .ok (.scommit 0 4 57 6 7)
    ∧ decodeWords 0x0F9005E8 0 = .ok (.kvpgAlloc 0 5 58) ∧ decodeWords 0x8F908518 0x1C000000 = .ok (.kvpgSlot 0 5 6 7) := by decide
theorem test_decode_viewsAndEngine : decodeWords 0x0FA00415 0 = .ok (.viewRegDrv 0 4 5) ∧ decodeWords 0x8FA08414 0x1BA00000 = .ok (.viewLd 0 4 5 6 58)
    ∧ decodeWords 0x8FB001E8 0xEC400000 = .ok (.engCpy 0 1 58 59 4) ∧ decodeWords 0x8FB041E8 0xEC400000 = .ok (.engPoolrd 0 1 58 59 4)
    ∧ decodeWords 0x0FB0C004 0 = .ok (.engSleepu 0 1) := by decide
theorem test_decode_system : decodeWords 0x0FC0460C 0 = .ok (.join 0 6 3) ∧ decodeWords 0x8FE00500 0x100 = .ok (.csrr 0 5 0x100)
    ∧ decodeWords 0x8FE04018 0x103 = .ok (.xsplitWrite 0 6) ∧ decodeWords 0x8FE0401C 0x19 = .ok (.csrw 0 7 0x19)
    ∧ decodeWords 0x8FE0C004 0x08000000 = .ok (.upret 0 1 2) ∧ decodeWords 0x8FE10010 4 = .ok (.tlbinv 0 4 .dev) := by decide
theorem test_decode_refuses : decodeWords 0x0FF00000 0 = .error .unassigned ∧ (∃ e, decodeWords 0x00104203 0 = .error e)
    ∧ (∃ e, decodeWords 0x05E00001 0 = .error e) := ⟨by decide, ⟨_, rfl⟩, ⟨_, rfl⟩⟩

/-! ### Small states -/

/-- A READY slot of the root context at a PC. -/
def readySlot (pc : Word) : Slot := ({ Slot.reset with state := .ready }).setPc pc

/-- Core 0 with slot 0 READY at 0x10000, the slot that `exec` runs. -/
def base : State := { State.reset with cores := [(0, { Core.reset with running := true, slots := [(0, readySlot 0x10000)] })] }

/-- Put values into registers of slot 0. -/
def withRegs (s : State) (l : List (Nat × Nat)) : State :=
  l.foldl (fun s x => s.setWord (s.regAddr 0 0 (BitVec.ofNat 6 x.1)) ⟨BitVec.ofNat 64 x.2, false⟩) s

/-- Put a value into every word of a vector register of slot 0. -/
def withVec (s : State) (v : VReg) (x : Nat) : State :=
  (List.range 8).foldl (fun s j => s.setWord (s.vregAddr 0 0 v + 8 * j) ⟨BitVec.ofNat 64 x, false⟩) s

/-- Poison a register of slot 0. -/
def poisonReg (s : State) (r : Nat) : State := s.setWord (s.regAddr 0 0 (BitVec.ofNat 6 r)) ⟨0, true⟩

/-- The state after an instruction. -/
def after (i : Instr) (s : State) : State :=
  match exec i s with
  | .next t => t
  | _ => s

/-- What a register reads once the results in flight have landed. -/
def result (i : Instr) (s : State) (d : Reg) : Tagged := ((after i s).drainResults 0 0).reg d

/-- The same for the first word of a vector register. -/
def vresult (i : Instr) (s : State) (d : VReg) : Nat := ((((after i s).drainResults 0 0).vreg d).getD 0 ⟨0, false⟩).val.toNat

/-- The cause and FLT1 of the trap that slot 0 records. -/
def trapOf (s : State) : Nat × Word := (fieldOf (s.me.cbWord cbFlt) 0 8, s.me.cbWord (cbFlt + 1))

/-- The mesh address of an offset of the own core's A buffer, or of its S buffer (R30). -/
def inA (off : Nat) : Nat := 0xA000400000000000 + off
def inS (off : Nat) : Nat := 0xA000C00000000000 + off

/-! ### Integer instructions (R275 to R279) -/

theorem test_add_wraps : result (.add 0 3 1 2 0) (withRegs base [(1, 2 ^ 64 - 1), (2, 2)]) 3 = ⟨1, false⟩ := by decide +kernel
theorem test_sub_z32 : result (.sub 0 3 1 2 2) (withRegs base [(1, 1), (2, 2)]) 3 = ⟨0xFFFFFFFF, false⟩ := by decide +kernel
theorem test_addi_negative : result (.addi 0 5 6 0xFD) (withRegs base [(6, 1)]) 5 = ⟨0xFFFFFFFFFFFFFFFE, false⟩ := by decide +kernel
theorem test_addiLong : result (.addiLong 0 5 6 0x80000000) (withRegs base [(6, 1)]) 5 = ⟨0xFFFFFFFF80000001, false⟩ := by decide +kernel
theorem test_mul_high : result (.mulh 0 3 1 2 0) (withRegs base [(1, 2 ^ 64 - 8), (2, 3)]) 3 = ⟨0xFFFFFFFFFFFFFFFF, false⟩
    ∧ result (.mulhu 0 3 1 2 0) (withRegs base [(1, 2 ^ 64 - 8), (2, 3)]) 3 = ⟨2, false⟩
    ∧ result (.mul 0 3 1 2 1) (withRegs base [(1, 0x80000000), (2, 3)]) 3 = ⟨0xFFFFFFFF80000000, false⟩ := by decide +kernel
theorem test_div_truncates : result (.div 0 3 1 2 0) (withRegs base [(1, 2 ^ 64 - 8), (2, 3)]) 3 = ⟨0xFFFFFFFFFFFFFFFE, false⟩
    ∧ result (.rem 0 3 1 2 0) (withRegs base [(1, 2 ^ 64 - 8), (2, 3)]) 3 = ⟨0xFFFFFFFFFFFFFFFE, false⟩ := by decide +kernel
theorem test_div_edges : result (.div 0 3 1 2 0) (withRegs base [(1, 2 ^ 63), (2, 2 ^ 64 - 1)]) 3 = ⟨0x8000000000000000, false⟩
    ∧ result (.rem 0 3 1 2 1) (withRegs base [(1, 0x80000000), (2, 0xFFFFFFFF)]) 3 = ⟨0, false⟩
    ∧ result (.divu 0 3 1 2 2) (withRegs base [(1, 7), (2, 0)]) 3 = ⟨0xFFFFFFFF, false⟩
    ∧ result (.remu 0 3 1 2 0) (withRegs base [(1, 7), (2, 0)]) 3 = ⟨7, false⟩ := by decide +kernel
theorem test_logic : result (.andn 0 3 1 2) (withRegs base [(1, 0xFF), (2, 0x0F)]) 3 = ⟨0xF0, false⟩
    ∧ result (.andi 0 3 1 (.short 0xF0)) (withRegs base [(1, 0x1FF)]) 3 = ⟨0x1F0, false⟩
    ∧ result (.xori 0 3 1 (.long 0xFFFFFFFF)) (withRegs base [(1, 0)]) 3 = ⟨0xFFFFFFFFFFFFFFFF, false⟩
    ∧ result (.ori 0 3 1 (.short 5)) (withRegs base [(1, 8)]) 3 = ⟨13, false⟩ := by decide +kernel
theorem test_shifts : result (.shl 0 3 1 2 0) (withRegs base [(1, 1), (2, 65)]) 3 = ⟨2, false⟩
    ∧ result (.sar 0 3 1 2 0) (withRegs base [(1, 2 ^ 64 - 8), (2, 1)]) 3 = ⟨0xFFFFFFFFFFFFFFFC, false⟩
    ∧ result (.shr 0 3 1 2 1) (withRegs base [(1, 0xF80000000), (2, 32)]) 3 = ⟨0xFFFFFFFF80000000, false⟩
    ∧ result (.rotl 0 3 1 2 2) (withRegs base [(1, 0x80000001), (2, 1)]) 3 = ⟨3, false⟩ := by decide +kernel
theorem test_shift_immediates : result (.shli 0 5 6 (.short 63)) (withRegs base [(6, 3)]) 5 = ⟨0x8000000000000000, false⟩
    ∧ result (.sari 0 5 6 (.short 4)) (withRegs base [(6, 2 ^ 63)]) 5 = ⟨0xF800000000000000, false⟩
    ∧ result (.shri 0 5 6 (.long 4)) (withRegs base [(6, 2 ^ 63)]) 5 = ⟨0x0800000000000000, false⟩ := by decide +kernel
theorem test_compare : result (.min 0 3 1 2 0) (withRegs base [(1, 2 ^ 64 - 8), (2, 3)]) 3 = ⟨0xFFFFFFFFFFFFFFF8, false⟩
    ∧ result (.minu 0 3 1 2 0) (withRegs base [(1, 2 ^ 64 - 8), (2, 3)]) 3 = ⟨3, false⟩
    ∧ result (.slt 0 3 1 2 0) (withRegs base [(1, 2 ^ 64 - 8), (2, 3)]) 3 = ⟨1, false⟩
    ∧ result (.sltu 0 3 1 2 0) (withRegs base [(1, 2 ^ 64 - 8), (2, 3)]) 3 = ⟨0, false⟩
    ∧ result (.slti 0 3 1 (.short 0xFF)) (withRegs base [(1, 2 ^ 64 - 8)]) 3 = ⟨1, false⟩ := by decide +kernel
theorem test_counts : result (.clz 0 3 1 1) (withRegs base [(1, 1)]) 3 = ⟨31, false⟩ ∧ result (.ctz 0 3 1 0) base 3 = ⟨64, false⟩
    ∧ result (.popc 0 3 1 2) (withRegs base [(1, 0x1FFFFFFFF)]) 3 = ⟨32, false⟩ := by decide +kernel
theorem test_fields : result (.bext 0 3 1 2) (withRegs base [(1, 0xABCD), (2, 0x804)]) 3 = ⟨0xBC, false⟩
    ∧ result (.bins 0 3 1 2) (withRegs base [(1, 0xF00F), (2, 0x5A00000804)]) 3 = ⟨0xF5AF, false⟩
    ∧ result (.bext 0 3 1 2) (withRegs base [(1, 2 ^ 63), (2, 0x403C)]) 3 = ⟨8, false⟩ := by decide +kernel
theorem test_clmul : result (.clmul 0 3 1 2) (withRegs base [(1, 3), (2, 3)]) 3 = ⟨5, false⟩
    ∧ result (.clmulh 0 3 1 2) (withRegs base [(1, 2 ^ 63), (2, 2)]) 3 = ⟨1, false⟩ := by decide +kernel
theorem test_sel_poison : result (.sel 0 3 1 2) (poisonReg (withRegs base [(3, 0), (2, 9)]) 1) 3 = ⟨9, false⟩
    ∧ (result (.sel 0 3 1 2) (poisonReg (withRegs base [(3, 1), (2, 9)]) 1) 3).poison = true := by decide +kernel
theorem test_movi_lea : result (.movi 0 7 0x80000000) base 7 = ⟨0xFFFFFFFF80000000, false⟩
    ∧ result (.lea 0 3 1 0 0x3F) (withRegs base [(1, 100)]) 3 = ⟨92, false⟩
    ∧ result (.leam 0 57 0 0x8003 0x3048) base 57 = ⟨0xA000C00000003048, false⟩ := by decide +kernel
theorem test_w0 : result (.add 0 0 1 2 0) (withRegs base [(1, 1), (2, 2)]) 0 = ⟨0, false⟩ := by decide +kernel

/-! ### Scalar floating point (R280 to R282) -/

theorem test_fadd : result (.fadd 0 3 1 2) (withRegs base [(1, 0x3F800000), (2, 0x40000000)]) 3 = ⟨0x40400000, false⟩
    ∧ (after (.fadd 0 3 1 2) (withRegs base [(1, 0x3F800000), (2, 0x33000000)])).me.stat.getLsbD 4 = true := by decide +kernel
theorem test_fma_fused : result (.fma 0 3 1 2) (withRegs base [(1, 0x3F800001), (2, 0x3F800001), (3, 0xBF800002)]) 3 = ⟨0x28800000, false⟩ := by decide +kernel
theorem test_finf : result (.fsub 0 3 1 2) (withRegs base [(1, 0x7F800000), (2, 0x7F800000)]) 3 = ⟨0x7FC00000, false⟩
    ∧ (after (.fsub 0 3 1 2) (withRegs base [(1, 0x7F800000), (2, 0x7F800000)])).me.stat.getLsbD 7 = true
    ∧ result (.fmul 0 3 1 2) (withRegs base [(1, 0x7F7FFFFF), (2, 0x40000000)]) 3 = ⟨0x7F800000, false⟩ := by decide +kernel
theorem test_fcompare : result (.fmin 0 3 1 2) (withRegs base [(1, 0), (2, 0x80000000)]) 3 = ⟨0x80000000, false⟩
    ∧ result (.fmax 0 3 1 2) (withRegs base [(1, 0x80000000), (2, 0)]) 3 = ⟨0, false⟩
    ∧ result (.feq 0 3 1 2) (withRegs base [(1, 0x80000000), (2, 0)]) 3 = ⟨1, false⟩
    ∧ result (.flt 0 3 1 2) (withRegs base [(1, 0xBF800000), (2, 0)]) 3 = ⟨1, false⟩
    ∧ result (.fle 0 3 1 2) (withRegs base [(1, 0x7FC00000), (2, 0)]) 3 = ⟨0, false⟩
    ∧ result (.fcls 0 3 1) (withRegs base [(1, 0x80000001)]) 3 = ⟨4, false⟩ := by decide +kernel
theorem test_fcvt : result (.fcvt 0 8 9 0 false 1) (withRegs base [(9, 0xBFC00000)]) 8 = ⟨0xFFFFFFFFFFFFFFFF, false⟩
    ∧ result (.fcvt 0 8 9 0 false 0) (withRegs base [(9, 0x4F000000)]) 8 = ⟨0x7FFFFFFF, false⟩
    ∧ result (.fcvt 0 8 9 3 false 0) (withRegs base [(9, 0x3F808000)]) 8 = ⟨0x3F80, false⟩ := by decide +kernel

/-! ### Control (R283 to R292) -/

theorem test_branches : (after (.bne 0 3 0 0xFD) (withRegs base [(3, 1)])).me.pc = 0xFFF4 ∧ (after (.bne 0 3 0 0xFD) base).me.pc = 0x10004
    ∧ (after (.blt 0 3 4 5) (withRegs base [(3, 2 ^ 64 - 1), (4, 0)])).me.pc = 0x10014
    ∧ (after (.blo 0 3 4 5) (withRegs base [(3, 2 ^ 64 - 1), (4, 0)])).me.pc = 0x10004
    ∧ (after (.branchLong 0 .bhs 3 4 2) (withRegs base [(3, 4), (4, 4)])).me.pc = 0x10008
    ∧ (after (.bge 0 3 4 1) (withRegs base [(3, 2 ^ 63), (4, 0)])).me.pc = 0x10004 ∧ (after (.beq 0 3 4 2) base).me.pc = 0x10008 := by decide +kernel
theorem test_jumps : (after (.jal 0 63 (.short 100)) base).me.pc = 0x10190 ∧ result (.jal 0 63 (.short 100)) base 63 = ⟨0x10004, false⟩
    ∧ (after (.jalr 0 63 63 (.short 0)) (withRegs base [(63, 0x20000)])).me.pc = 0x20000
    ∧ (after (.jmp 0 (.long 0xFFFFFFFF)) base).me.pc = 0xFFFC
    ∧ trapOf (after (.jalr 0 1 63 (.short 2)) (withRegs base [(63, 0x20000)])) = (5, 0x20002) := by decide +kernel
theorem test_endCheck : (after (.nop 0) { base with cores := [(0, { Core.reset with slots := [(0,
      (((readySlot 0x10000).setLc 1 2).setCb (cbLe + 1) 0x10000).setCb (cbLs + 1) 0xFF00)] })] }).me.pc = 0xFF00 := by decide +kernel

/-! ### Memory instructions on the own core's buffers (R293 to R298) -/

theorem test_store_load : result (.ld 0 9 1 0 2) (after (.st 0 4 1 0 2) (withRegs base [(1, inS 0x100), (4, 0x1122334455667788)])) 9
    = ⟨0x1122334455667788, false⟩ := by decide +kernel
theorem test_load_bytes : result (.ldLong 0 9 1 0 ⟨0, true, 0⟩ 3) (after (.st 0 4 1 0 0) (withRegs base [(1, inS 0x100), (4, 0x11223344F5667788)])) 9
    = ⟨0xFFFFFFFFFFFFFFF5, false⟩ := by decide +kernel
theorem test_postIncrement : result (.ld 0 9 1 1 0) (withRegs base [(1, inS 0x100)]) 1 = ⟨BitVec.ofNat 64 (inS 0x108), false⟩ := by decide +kernel
theorem test_load_misaligned : trapOf (after (.ld 0 9 1 0 0) (withRegs base [(1, inS 0x101)])) = (5, BitVec.ofNat 64 (inS 0x101)) := by decide +kernel
theorem test_store_toC : (trapOf (after (.st 0 4 1 0 0) (withRegs base [(1, 0xA000800000000000)]))).1 = 4 := by decide +kernel
theorem test_feclr_ldf : (after (.ldf 0 9 1 0 (.short 0)) (after (.feclr 0 1 0 (.short 0)) (withRegs base [(1, inS 0x100)]))).me.state = .parked := by decide +kernel
theorem test_amo_mesh : (trapOf (after (.amo 0 .add 2 1 3 false false .ctx) (withRegs base [(1, inS 0x100), (3, 5)]))).1 = 4 := by decide +kernel
theorem test_poison_address : trapOf (after (.ld 0 9 1 0 0) (poisonReg base 1)) = (6, 8) := by decide +kernel

/-! ### Vector instructions (R300 to R323) -/

/-- `base` with VL 16. -/
def vbase : State := after (.setvl 0 5 6) (withRegs base [(6, 16)])

theorem test_setvl_clamps : (after (.setvl 0 5 6) (withRegs base [(6, 1000)])).me.vl = 128 := by decide +kernel
theorem test_vadd_s32 : vresult (.vadd 0 8 16 24 0 2) (withVec (withVec vbase 16 0xFFFFFFFF00000001) 24 0x0000000100000002) 8 = 3 := by decide +kernel
theorem test_vmin_s8 : vresult (.vectorLong 0 .vmin 1 2 3 0 3 ⟨0, 0, false, false, false, 0, false, 1⟩)
    (withVec (withVec (after (.setvl 0 5 6) (withRegs base [(6, 64)])) 2 0x80017F0000000000) 3 0) 1 = 0x8000000000000000 := by decide +kernel
theorem test_vadd_f32 : vresult (.vadd 0 8 16 24 0 0) (withVec (withVec vbase 16 0x3F8000003F800000) 24 0x400000003F800000) 8 = 0x4040000040000000 := by decide +kernel
theorem test_vl_limits : vresult (.vmov 0 8 16 0 2) (withVec (after (.setvl 0 5 6) (withRegs base [(6, 1)])) 16 0x1111111122222222) 8 = 0x22222222 := by decide +kernel
theorem test_vredadd : vresult (.vredadd 0 8 16 0 2) (withVec vbase 16 0x0000000300000001) 8 = 32 := by decide +kernel
theorem test_vexp_special : vresult (.vexp 0 2 1 0) (withVec vbase 1 0xFF80000000000000) 2 = 0x000000003F800000 := by decide +kernel
theorem test_vcvt_b16 : vresult (.vectorLong 0 .cvtF32B16 2 1 0 0 0 ⟨0, 0, false, false, false, 0, false, 0⟩) (withVec vbase 1 0x40403F80) 2 = 0x404000003F800000 := by decide +kernel

/-! ### System instructions (R386 to R391) -/

theorem test_csr : result (.csrr 0 5 0) base 5 = ⟨0x10000, false⟩ ∧ (after (.csrw 0 7 0x19) (withRegs base [(7, 40)])).me.cbWord 0x19 = 40
    ∧ (after (.xsplitWrite 0 6) (withRegs base [(6, 31)])).pkg.xsplit = 16 := by decide +kernel
theorem test_brk : trapOf (after (.brk 0 7) base) = (0x14, 7) ∧ (after (.brk 0 7) base).me.pc = 0x10008 := by decide +kernel
theorem test_upret_outside : (trapOf (after (.upret 0 1 2) base)).1 = 1 := by decide +kernel
theorem test_start_helper : result (.start 0 6 1 2 3) (withRegs base [(1, 2), (2, 0x20000), (3, 4)]) 6 = ⟨0, false⟩
    ∧ ((after (.start 0 6 1 2 3) (withRegs base [(1, 2), (2, 0x20000), (3, 4)])).slot 0 2).pc = 0x20000 := by decide +kernel
theorem test_join_free : result (.join 0 6 3) (withRegs base [(3, 5)]) 6 = ⟨0x8000000000000001, false⟩ := by decide +kernel

/-! ### The first instruction after reset -/

theorem test_step_runs : (match step (State.reset.withFetchWord 32 0x00104208) with | .next t => t.me.pc | _ => 0) = 0x10004 := by decide +kernel
theorem test_step_event : (match step State.reset with | .next t => t.cyc | _ => 0) = 1 := by decide +kernel

/-! ### A world with page tables

The root's guest frame 0 is the machine's first 2 MiB, and its stage 1 maps virtual addresses 0 to 2 MiB to it: tables at 0x1000,
0x2000 and 0x3000, and a 2 MiB leaf with A, D and every permission. -/

/-- Put a word at an address that is its own machine address. -/
def poke (s : State) (a v : Nat) : State := s.setWord (s.mapInterleaved a) ⟨BitVec.ofNat 64 v, false⟩

/-- Put words from an address upward. -/
def pokes (s : State) (a : Nat) : List Nat → State
  | [] => s
  | v :: vs => pokes (poke s a v) (a + 8) vs

/-- A core with slot 0 READY in the root, with page tables. -/
def world : State :=
  let s := { base with ctxs := [(0, { Ctx.root with s1root := 1, s2len := 512, s2 := [(0, 0x1F)] })] }
  poke (poke (poke s 0x1000 0x2001) 0x2000 0x3001) 0x3000 0x1CF

/-- The same with the 2 MiB page in the data TLB of slot 0. -/
def mapped : State := world.modCore 0 fun k =>
  { k with dtlb := [⟨0, 0, 0, 2 ^ 21, 0, .inter 0, true, true, true, true, false⟩] }

theorem witness_Writes : Writes world 0x8000 (world.mapInterleaved 0x8000) :=
  ⟨rfl, by decide +kernel, fun h => absurd h (by decide +kernel)⟩
theorem witness_Reads : Reads (poke world 0x8000 7) 0x8000 ⟨7, false⟩ :=
  ⟨rfl, (poke world 0x8000 7).mapInterleaved 0x8000, false, by decide +kernel, by decide +kernel⟩

/-! ### Witnesses: states and operands that meet the hypotheses of the statements, clause by clause -/

/-- A state of slot 0 about to fetch an instruction. -/
def fetching : State := State.reset.withFetchWord 32 0x05E00000

/-- The state after the fetch. -/
def fetched : State := match fetching.fetchInstr 0 0 0x10000 with
  | .ok _ _ t => t
  | _ => fetching

theorem witness_EncodeThenDecode : (Instr.addi 0 63 0 0x80).wf = true ∧ (Instr.addi 0 63 0 0x80).isEvent = false := by decide
theorem witness_DecodeIsWellFormed : decodeWords 0x05E00000 0 = .ok (.nop 0) := by decide
theorem witness_StepRunsDecoded : fetching.agenda = .issue 0 0 :: [] ∧ (0 : Nat) < 4096 ∧ (0 : Nat) < 11 ∧ (fetching.slot 0 0).state = .ready
    ∧ (fetching.slot 0 0).kept = [] ∧ (fetching.slot 0 0).gangTrap = none ∧ (fetching.slot 0 0).act = false
    ∧ ({ fetching with cur := (0, 0) } : State).fetchInstr 0 0 (fetching.slot 0 0).pc = .ok 0x05E00000 0 fetched
    ∧ decodeWords 0x05E00000 0 = .ok (.nop 0) ∧ (Instr.nop 0).featuresOk fetched.pkg.feat = true :=
  ⟨by decide +kernel, by decide, by decide, by decide +kernel, by decide +kernel, by decide +kernel, by decide +kernel, rfl, by decide,
   by decide +kernel⟩
theorem witness_FetchReadsMemory : ∃ e, State.isMesh 0x10000 = false ∧ State.canonical 0x10000 = true
    ∧ State.cachedLine ((fetching.core 0).icache ++ (fetching.cluster (Site.cluster 0)).icache) (fetching.slot 0 0).ctx
        (fetching.slot 0 0).gen 0x10000 = none
    ∧ (fetching.core 0).itlb.find? (fun e => e.slot == 0 && State.tlbHit e (fetching.slot 0 0).ctx (fetching.slot 0 0).gen 0x10000 .fetch)
        = some e ∧ (0x10000 : Nat) % 4 = 0 := ⟨_, by decide, by decide, by decide +kernel, rfl, by decide⟩
theorem witness_StepProceedsAndStaysLegal : State.reset.Legal ∧ fetching.Legal := by
  constructor
  · intro a h; cases h
  · intro a h
    have : a = .issue 0 0 := by simpa [fetching, State.withFetchWord] using h
    subst this; exact ⟨by decide, by decide⟩
theorem witness_memory_form : Memory.wf base.mem = true ∧ Memory.wf world.mem = true ∧ (0x8000 : Nat) % 8 = 0 := by decide +kernel
theorem witness_AcceptedWrite : Memory.wf (base.bankWrite 0x8001 [1, 2, 3] []).mem = true := by decide +kernel

/-! #### Registers, results in flight, integer and floating-point operands -/

/-- `base` with the checking scoreboard on and a result for w1 in flight. -/
def flying : State := base.modSlot 0 0 fun sl => { sl.setStat 0 1 1 with
  pend := [⟨2, [⟨.word (base.regAddr 0 0 1), ⟨5, false⟩, BitVec.allOnes 64⟩]⟩] }

theorem witness_Quiet : base.Quiet ∧ (base.modSlot 0 0 fun sl => sl.setStat 0 1 1).Quiet ∧ (0 : BitVec 2) ≠ 3 :=
  ⟨.inr (by decide +kernel), .inr (by decide +kernel), by decide⟩
theorem witness_ResultLands : (63 : Reg) ≠ 0 ∧ 0 < 5 ∧ base.me.pend = [] := by decide +kernel
theorem witness_Scoreboard : flying.me.chk = true ∧ (1 : Reg) ≠ 0
    ∧ flying.me.pend = [⟨2, [⟨.word (flying.regAddr flying.cur.1 flying.cur.2 1), ⟨5, false⟩, BitVec.allOnes 64⟩]⟩] := by decide +kernel
theorem witness_shiftOk : (Imm.short 63).shiftOk = true ∧ (Imm.long 0).shiftOk = true ∧ (63 : BitVec 32).toNat < 64 := by decide
theorem witness_FloatResults : finite 8 23 (code32 ((withRegs base [(1, 0x7F7FFFFF)]).reg 1).val) = true ∧ finite 8 23 (code32 ((withRegs base [(1, 0x7F7FFFFF)]).reg 2).val) = true := by
  decide +kernel
theorem witness_FloatSpecial : let s := withRegs base [(1, 0x7F800000), (2, 0xFF800000), (3, 0x7FC00001), (4, 0x80000000), (5, 0x00000001)]
    let x := code32 (s.reg 1).val
    isNan 8 23 (code32 (s.reg 3).val) = true ∧ x % 2 ^ 31 = 0x7F800000 ∧ code32 (s.reg 2).val = (x + 2 ^ 31) % 2 ^ 32
    ∧ code32 (s.reg 4).val % 2 ^ 31 = 0 ∧ finite 8 23 (code32 (s.reg 5).val) = true := by decide +kernel
theorem witness_Conversion : isNan 8 7 0x7F81 = true ∧ finite 5 10 0x7BFF = true ∧ finite 8 7 0x3F80 = true
    ∧ negative 8 7 0x3F80 = negative 8 23 0x3F800000 ∧ (sval 32 0x1000000).natAbs ≤ 2 ^ 24 := by decide +kernel

/-! #### Control -/

theorem witness_Clean : base.Clean [1, 2] ∧ [1, 2].find? (fun r => ((poisonReg base 2).reg r).poison) = some (2 : Reg) :=
  ⟨by unfold State.Clean; decide +kernel, by decide +kernel⟩
theorem witness_Branches : let s := withRegs base [(1, 2 ^ 64 - 1), (2, 1)]
    taken .blt (s.reg 1).val (s.reg 2).val ∧ ¬taken .blo (s.reg 1).val (s.reg 2).val := by unfold taken; decide +kernel
theorem witness_Jumps : ((withRegs base [(63, 0x20000)]).reg 63).val.toNat % 4 = 0 ∧ ((withRegs base [(63, 0x20001)]).reg 63).val.toNat % 4 ≠ 0
    ∧ ((poisonReg base 63).reg 63).poison = true := by decide +kernel

/-- Slot 0 with loop 3 at its last trip and loop 1 with two, both ending at its PC. -/
def looping : Slot := ((((readySlot 0x10000).setLc 3 1).setLc 1 2).setCb (cbLe + 3) 0x10000).setCb (cbLe + 1) 0x10000

/-- Core 0 with one slot. -/
def withSlot (sl : Slot) : State := { base with cores := [(0, { Core.reset with slots := [(0, sl)] })] }

theorem witness_EndCheck : looping.act = false ∧ endsAt looping 1 0x10000 = true ∧ 1 < looping.lc 1
    ∧ (∀ m < 4, 1 < m → endsAt looping m 0x10000 = true → looping.lc m = 1) ∧ (withSlot looping).me = looping := by decide +kernel
theorem witness_EndCheck_last : let sl := looping.setLc 1 0
    sl.act = false ∧ ∀ n < 4, endsAt sl n 0x10000 = true → sl.lc n = 1 := by decide +kernel

/-- The state after fetching the last word of a loop. -/
def lastFetched : State := match fetching.fetchWord 0 0 0x10008 with
  | .ok _ _ t => t
  | _ => fetching

theorem witness_LoopSetup : fetching.Quiet ∧ fetching.fetchWord fetching.cur.1 fetching.cur.2 (fetching.me.pc + wordOf 8) = .ok 0 0 lastFetched
    ∧ lastFetched.cur = fetching.cur ∧ lastFetched.me = fetching.me ∧ fetching.Clean [1] ∧ fetching.me.cbPoison.contains (cbMbx + 7) = false
    ∧ ({ fetching.me with cbPoison := [cbMbx + 7] } : Slot).cbPoison.contains (cbMbx + 7) = true
    ∧ (∀ k < 4, k ≠ 0 → fetching.me.lc k ≠ 0 → fetching.me.cbWord (cbLe + k) ≠ 0x10008) :=
  ⟨.inr (by decide +kernel), rfl, by decide +kernel, by decide +kernel, by unfold State.Clean; decide +kernel, by decide +kernel,
   by decide +kernel, by decide +kernel⟩

/-- Code with a NOP after an RPT. -/
def repeating : State := State.reset.withFetchWord 64 0x05E0000005E00000

theorem witness_RepeatCapture : let s : State := repeating.modSlot 0 0 fun sl => sl.setPc 0xFFF8
    ∃ code u, State.capture s.cur.1 s.cur.2 0 0 0 1 s (s.me.pc + 8) = .ok code u ∧ u.cur = s.cur ∧ u.me = s.me :=
  ⟨_, _, rfl, by decide +kernel, by decide +kernel⟩

/-- Slot 0 in a frame of two instructions and two replays, at an index and a replay. -/
def inFrame (idx iter : Nat) : Slot := { (readySlot 0x10000).setCb cbRptst (BitVec.ofNat 64 (1 + 2 ^ 8 * idx + 2 ^ 16 * idx + 2 ^ 20 * iter)) with
  frame := some ⟨[(0x05E00000, 0), (0x05E00000, 0)], 2, 0, 0, 0, 0⟩ }

theorem witness_RepeatFrame : (inFrame 0 0).act = true ∧ fieldOf ((inFrame 1 1).cbWord cbRptst) 16 4 = 1
    ∧ fieldOf ((inFrame 1 1).cbWord cbRptst) 20 12 = 1 ∧ fieldOf ((inFrame 1 1).cbWord cbRptst) 8 6 = 1 := by decide +kernel

/-! #### Loads, stores and full-empty words -/

/-- Where the one slot of the one core waits for nothing, no slot waits. -/
theorem noWait_of (s : State) (k : Core) (sl : Slot) (hc : s.cores = [(0, k)]) (hs : k.slots = [(0, sl)]) (hw : sl.wait = none)
    (c i : Nat) : (s.slot c i).wait = none := by
  simp only [State.slot, State.core, hc, aget]
  split
  · simp only [hs, aget]; split
    · exact hw
    · rfl
  · rfl

/-- Such a core watches no word. -/
theorem noWatcher_of (s : State) (k : Core) (sl : Slot) (hc : s.cores = [(0, k)]) (hs : k.slots = [(0, sl)]) (hw : sl.wait = none) :
    NoWatcher s := fun c i _ h => nomatch (noWait_of s k sl hc hs hw c i).symm.trans h

/-- Slot 0 with w1 an address of the own S buffer, w2 an index, w4 data. -/
def ownState : State := withRegs base [(1, inS 0x100), (2, 2), (4, 0x1122334455667788)]

/-- Slot 0 of the mapped world, with w1 a device address, w2 an index, w4 data. -/
def farState : State := withRegs mapped [(1, 0x8000), (2, 2), (4, 0x1122334455667788)]

theorem noWatcher_own : NoWatcher ownState := noWatcher_of _ _ _ rfl rfl rfl
theorem noWatcher_far : NoWatcher farState := noWatcher_of _ _ _ rfl rfl rfl
theorem witness_plain : PlainMemory ownState ∧ PlainMemory farState ∧ Settled ownState ∧ Settled farState ∧ NoReservation farState :=
  ⟨⟨rfl, rfl, rfl⟩, ⟨rfl, rfl, rfl⟩, ⟨rfl, rfl, rfl, rfl⟩, ⟨rfl, rfl, rfl, rfl⟩, rfl, rfl, fun _ h => nomatch h⟩

/-- The form, mode and size of an access of a state, and where it goes. -/
def reaches (s : State) (m : BitVec 2) (f : MForm) (n scale : Nat) (k : Kind) (own : Bool) (a : Nat) : Prop :=
  s.Clean (addressRegs 1 m f) ∧ (address s 1 m f n scale).toNat % n = 0 ∧ s.resolve (address s 1 m f n scale) n k = .at_ a own false

theorem witness_OwnLoads : reaches ownState 0 (.short 0x3F) 8 1 .read true (bufAddr 0 .s 0xF8)
    ∧ reaches ownState 1 (.long ⟨0, true, 0⟩ 3) 1 1 .read true (bufAddr 0 .s 0x103)
    ∧ reaches ownState 3 (.long ⟨0, false, 1⟩ 2) 2 2 .read true (bufAddr 0 .s 0x104)
    ∧ reaches ownState 0 (.short 0) 64 1 .read true (bufAddr 0 .s 0x100) := by
  unfold reaches State.Clean; decide +kernel
theorem witness_FarLoads : reaches farState 0 (.short 0x3F) 8 1 .read false (farState.mapInterleaved 0x7FF8)
    ∧ reaches farState 2 (.long ⟨0, true, 0⟩ 3) 1 1 .read false (farState.mapInterleaved 0x8003)
    ∧ reaches farState 3 (.short 2) 8 8 .read false (farState.mapInterleaved 0x8010) := by
  unfold reaches State.Clean; decide +kernel
theorem witness_OwnStores : reaches ownState 0 (.short 0) 8 1 .write true (bufAddr 0 .s 0x100)
    ∧ reaches ownState 1 (.long ⟨0, false, 3⟩ 8) 8 1 .write true (bufAddr 0 .s 0x108)
    ∧ reaches ownState 3 (.short 2) 8 8 .write true (bufAddr 0 .s 0x110) ∧ reaches ownState 0 (.short 1) 64 1 .write true (bufAddr 0 .s 0x140)
    ∧ ownState.Clean [4] ∧ ∀ t ∈ ownState.vreg 3, t.poison = false := by
  unfold reaches State.Clean; decide +kernel
theorem witness_FarStores : reaches farState 0 (.short 0) 8 1 .write false (farState.mapInterleaved 0x8000)
    ∧ reaches farState 0 (.long ⟨0, false, 0⟩ 1) 1 1 .write false (farState.mapInterleaved 0x8001)
    ∧ reaches farState 3 (.short 2) 8 8 .write false (farState.mapInterleaved 0x8010) ∧ reaches farState 0 (.short 0) 64 1 .write false (farState.mapInterleaved 0x8000)
    ∧ farState.Quiet := by
  refine ⟨?_, ?_, ?_, ?_, .inr rfl⟩ <;> (unfold reaches State.Clean; decide +kernel)
theorem witness_VectorLoads_far : reaches farState 0 (.short 0) 64 1 .read false (farState.mapInterleaved 0x8000)
    ∧ reaches farState 0 (.long ⟨0, false, 3⟩ 8) 8 1 .read false (farState.mapInterleaved 0x8008)
    ∧ reaches ownState 0 (.long ⟨0, false, 3⟩ 8) 8 1 .read true (bufAddr 0 .s 0x108) := by unfold reaches State.Clean; decide +kernel
theorem witness_ReleaseStores : ownState.Clean (4 :: addressRegs 1 0 (.long ⟨0, false, 2⟩ 4))
    ∧ reaches farState 0 (.long ⟨0, false, 2⟩ 4) 4 1 .write false (farState.mapInterleaved 0x8004)
    ∧ reaches ownState 0 (.long ⟨0, false, 2⟩ 4) 4 1 .write true (bufAddr 0 .s 0x104) := by
  unfold reaches State.Clean; decide +kernel
theorem witness_ParkingResults : ownState.me.pend = [] ∧ ownState.me.asIssued = [] ∧ ∃ t : State, t = ownState.done 4 (ownState.wr 5 1 false ++ ownState.wr 1 2 false) := ⟨rfl, rfl, _, rfl⟩
theorem witness_AccessFaults : (address (withRegs base [(1, inS 0x101)]) 1 0 (.short 0) 8 1).toNat % 8 ≠ 0
    ∧ ownState.Clean (addressRegs 1 0 (.short 0)) ∧ ∃ t, (withRegs base [(1, 0x8000000000000000 + 0x3000000000000000)]).resolve
        (address (withRegs base [(1, 0x8000000000000000 + 0x3000000000000000)]) 1 0 (.short 0) 8 1) 8 .read = .fault t ∧ t.cause = 4 := by
  refine ⟨by decide +kernel, by unfold State.Clean; decide +kernel, _, rfl, by decide +kernel⟩

/-- A gather form over v9 with 4-byte elements and no mask. -/
def gform : MForm := .short 9

/-- Lanes 0 and 1 active, with indices into the own S buffer. -/
def gathering : State := (withVec ownState 9 0x800000004).modMe fun sl => sl.setStat 16 8 2

/-- The same with lanes in the mapped page, at another agent. -/
def scattering : State := (withVec farState 9 0x800000004).modMe fun sl => sl.setStat 16 8 2

/-- What checking the active lanes answers. -/
def checked (s : State) (k : Kind) (data : Option (VReg × List Tagged)) :=
  State.checkLanes (s.reg 1).val (State.gatherForm gform).1 (State.gatherForm gform).2.2 k (s.vreg (State.gatherForm gform).1) data
    (s.gatherLanes (State.gatherForm gform).2.1 (State.gatherForm gform).2.2) s

/-- The lanes gathered, and those scattered. -/
def gathered : List State.LaneAt := [⟨0, bufAddr 0 .s 0x110, true, false, BitVec.ofNat 64 (inS 0x110)⟩, ⟨1, bufAddr 0 .s 0x120, true, false, BitVec.ofNat 64 (inS 0x120)⟩]
def scattered : List State.LaneAt := [⟨0, farState.mapInterleaved 0x8010, false, false, 0x8010⟩, ⟨1, farState.mapInterleaved 0x8020, false, false, 0x8020⟩]

theorem witness_GatherAndScatter : gathering.Clean [1] ∧ gathering.me.kpoison (State.gatherForm gform).2.1 = false
    ∧ checked gathering .read none = .ok gathered ∧ gathered ≠ [] ∧ (gathered.map (·.lane)).Nodup ∧ ownState.gatherLanes 0 4 = []
    ∧ checked gathering .write (some (3, gathering.vreg 3)) = .ok gathered ∧ (∀ x ∈ gathered, x.own = true)
    ∧ checked scattering .write (some (3, scattering.vreg 3)) = .ok scattered ∧ ∀ x ∈ scattered, x.own = false := by
  unfold State.Clean; decide +kernel
theorem witness_GatherAndScatter_stops : let masked := gathering.modMe fun sl => { sl with cbPoison := [cbK] }
    let bad := withRegs gathering [(1, inS 0x101)]
    let hurt (v : VReg) : State := gathering.setWord (gathering.vregAddr 0 0 v) ⟨0, true⟩
    masked.me.kpoison 1 = true ∧ masked.gatherLanes 1 4 = [] ∧ (withVec gathering 9 4).gatherLanes 0 4 = [0, 1]
    ∧ checked bad .read none = .error (.fault ⟨5, 0, BitVec.ofNat 64 (inS 0x111), 4, .own, 0, false, false⟩)
    ∧ checked bad .write (some (3, bad.vreg 3)) = .error (.fault ⟨5, 0, BitVec.ofNat 64 (inS 0x111), 4, .own, 1, false, false⟩)
    ∧ wordPoison (hurt 9) 9 0 = true ∧ wordPoison (hurt 3) 9 0 = false ∧ wordPoison (hurt 3) 3 0 = true := by decide +kernel
theorem witness_GatherAndScatter_mask : let s := gathering.modMe fun sl => ({ sl with cbPoison := [cbK] }).setCb cbK (0xF * 2 ^ 32)
    s.gatherLanes 1 4 ≠ [] ∧ s.me.kpoison 1 = true := by decide +kernel
theorem witness_Prefetch : (address farState 1 0 (.short 0) 8 1).toNat % 8 = 0 ∧ State.isMesh (address farState 1 0 (.short 0) 8 1) = false
    ∧ farState.translateDirect farState.me.ctx (address farState 1 0 (.short 0) 8 1) .read = .ok (farState.mapInterleaved 0x8000, false, farState)
    ∧ State.isMesh (address ownState 1 0 (.short 0) 8 1) = true
    ∧ ∃ e, (withRegs mapped [(1, 0x200000)]).translateDirect 0 0x200000 .read = .error e := by
  rw [← and_assoc, ← and_assoc, ← and_assoc]; exact ⟨by decide +kernel, _, rfl⟩

theorem witness_FullEmpty : (ownState.core 0).park = [] ∧ State.ownerOf (bufAddr 0 .s 0x100) = 0
    ∧ (∀ k, ownState.syncTarget (address ownState 1 0 (.short 0) 8 1) k = .ok (bufAddr 0 .s 0x100, true))
    ∧ ownState.isFull (bufAddr 0 .s 0x100) = true ∧ (ownState.setFull (bufAddr 0 .s 0x100) false).isFull (bufAddr 0 .s 0x100) = false
    ∧ (ownState.setFull (bufAddr 0 .s 0x100) false).isHeld (bufAddr 0 .s 0x100) = false :=
  ⟨by decide +kernel, by decide +kernel, by intro k; cases k <;> decide +kernel, by decide +kernel⟩
theorem witness_Atomics : farState.Clean [1, 2, 4] ∧ (farState.reg 1).val.toNat % 8 = 0 ∧ State.isMesh (farState.reg 1).val = false
    ∧ farState.resolve (farState.reg 1).val 8 .write = .at_ (farState.mapInterleaved 0x8000) false false
    ∧ farState.resolve (farState.reg 1).val 8 .read = .at_ (farState.mapInterleaved 0x8000) false false
    ∧ farState.mapInterleaved 0x8000 % 16 = 0 ∧ farState.me.rsv = none ∧ (farState.ctx farState.me.ctx).depth = 0
    ∧ (farState.word (farState.mapInterleaved 0x8000)).poison = false := by unfold State.Clean; decide +kernel
theorem witness_RWB : let p := farState.mapInterleaved 0x8000
    let s : State := { (farState.modMe fun sl => { sl with rsv := some (p / 8) }) with reservations := [⟨p / 8, 0, 0, 7, 0x8000, false⟩] }
    s.reservations = [⟨p / 8, s.cur.1, s.cur.2, 7, (s.reg 1).val, false⟩] ∧ s.me.rsv = some (p / 8) := by decide +kernel

/-- A request of slot 0 for the word at 0x8000 of the world: a SIGDEC of 1, or a RED. -/
def sigRequest : Request := ⟨0, 0, 0, 0, 0, world.mapInterleaved 0x8000, leBytesOf 8 0, [false], none, some 1, 0x8000, false⟩
def redRequest : Request := { sigRequest with red := some 0x3F800000, sig := none }

theorem witness_AcceptedSignals : let s := pokes world 0x8000 [1, 2 ^ 63 + 5]
    let t := pokes world 0x8000 [2, 0]
    (s.word sigRequest.addr).poison = false ∧ sigRequest.addr % 16 = 0 ∧ ((s.word sigRequest.addr).val - 1).toInt ≤ 0
    ∧ (s.word (sigRequest.addr + 8)).val.getLsbD 63 = true ∧ (s.word (sigRequest.addr + 8)).val.toNat % 2048 = 5 ∧ (s.ctx 0).depth = 0
    ∧ 0 < ((t.word sigRequest.addr).val - 1).toInt := by decide +kernel
theorem witness_AcceptedRed : redRequest.red = some 0x3F800000 ∧ (world.ctx redRequest.ctx).redrgn = 0
    ∧ finite 8 23 ((world.word redRequest.addr).val.toNat % 2 ^ 32) = true ∧ finite 8 23 (0x3F800000 : BitVec 32).toNat = true := by decide +kernel
theorem witness_SignalWaits : ((farState.word (farState.mapInterleaved 0x8000)).val.toInt ≤ (farState.reg 2).val.toInt) ∧ farState.me.waitSince = none
    ∧ ((poke farState 0x8000 9).reg 2).val.toInt < ((poke farState 0x8000 9).word (farState.mapInterleaved 0x8000)).val.toInt := by decide +kernel
theorem witness_Fence : farState.outstanding 0 0 .dev = false ∧ (farState.cluster 0).engine = []
    ∧ ({ farState with reqs := [sigRequest] } : State).outstanding 0 0 .dev = true := by decide +kernel
theorem witness_Monitors : let m : Monitor := ⟨some (1, 64), true, none⟩
    let s := farState.modMe fun sl => { sl with monitors := [(2, m)] }
    (s.me.monitor 2).pending = true ∧ (∀ j < 2, (s.me.monitor j).pending = false) ∧ (∀ j < 4, (farState.me.monitor j).pending = false)
    ∧ farState.resolve (farState.reg 1).val 1 .read = .at_ (farState.mapInterleaved 0x8000) false false := by decide +kernel
theorem witness_Waitm : (farState.modMe fun sl => { sl with intr := true }).me.intr = true ∧ farState.me.intr = false
    ∧ (farState.reg 3).val.toNat ≤ farState.cyc ∧ farState.cyc < (farState.reg 1).val.toNat := by decide +kernel

/-- Cores 0 and 1 of one cluster in one placement group. -/
def pair : State := { base with cores := [(0, { Core.reset with running := true, group := some (0, 1), slots := [(0, readySlot 0x10000)] }),
  (1, { Core.reset with running := true, group := some (0, 1), slots := [(0, readySlot 0x10000)] })] }

theorem witness_Barrier : base.barRound .clu 0 0 = none ∧ base.barParts .clu 0 0 = [0] ∧ pair.barRound .clu 0 0 = none
    ∧ 1 ∈ pair.barParts .clu 0 0 ∧ (1 : Nat) ≠ 0 ∧ (pair.slot 1 0).wait = none ∧ base.barRound .bar 0 0 = none := by decide +kernel
theorem witness_Barrier_opens : let s := pair.modSlot 1 0 fun sl => { sl with wait := some (.barrier .clu 9 8 [0, 1] 4) }
    s.barRound .clu 0 0 = some (9, 8, [0, 1]) ∧ ([0, 1] : List Site).Nodup ∧ s.barJoined .clu 1 0 = true := by decide +kernel

/-! #### Vectors -/

/-- Slot 0 with VL 16, finite floats in v1 (1.5) and v2 (2), and the largest finite in v3. -/
def vecs : State := withVec (withVec (withVec (vbase.modMe fun sl => { sl with pend := [] }) 1 0x3FC000003FC00000) 2 0x4000000040000000) 3 0x7F7FFFFF7F7FFFFF

theorem witness_Vectors : vecs.Quiet ∧ NoPointers none ∧ NoPointers (some ⟨0, 31, false, false, false, 3, false, 7⟩)
    ∧ vecType 2 none = 2 ∧ vecType 3 none = 3 ∧ vecType 0 none = 0 ∧ vecType 0 (some ⟨0, 0, false, false, false, 0, false, 0⟩) = 0
    ∧ signedType 2 = true ∧ vecType 1 none ≤ 8 :=
  ⟨.inr (by decide +kernel), by unfold NoPointers; decide, by unfold NoPointers; decide, by decide⟩
theorem witness_VectorFloats_types : let l := [(0, 8, 23), (1, 8, 7), (4, 5, 10)]
    (vecType 0 none, 8, 23) ∈ l ∧ (vecType 1 none, 8, 7) ∈ l ∧ (vecType 0 (some ⟨0, 0, false, false, false, 0, false, 1⟩), 5, 10) ∈ l
    ∧ vecType 1 none ≠ 0 ∧ isNan 8 7 0x7FC1 = true ∧ finite 5 10 0x7BFF = true ∧ (0x7C00 : Nat) = infOf 5 10 := by decide +kernel
theorem witness_VectorFloats : (∀ i ∈ activeOf vecs 0 32, finite 8 23 (lane vecs 1 32 i) = true) ∧ (∀ i ∈ activeOf vecs 0 32, finite 8 23 (lane vecs 2 32 i) = true)
    ∧ (∀ i ∈ activeOf vecs 0 32, finite 8 23 (lane vecs 3 32 i) = true) ∧ activeOf vecs 0 32 = List.range 16
    ∧ finite 8 23 ((vecs.reg (vecQ none)).val.toNat % 2 ^ 32) = true := by decide +kernel
theorem witness_Scans : (∀ z, (none : Option VExt) = some z → z.vc = 0) ∧ (vecs.reg (vecQ none)).val.toNat % 4 = 0
    ∧ vecQ (some ⟨0, 3, false, false, false, 0, false, 1⟩) = 3 ∧ ((withRegs vecs [(3, 1)]).reg 3).val.toNat % 4 = 1
    ∧ ((withRegs vecs [(3, 2)]).reg 3).val.toNat % 4 = 2 ∧ ((withRegs vecs [(3, 7)]).reg 3).val.toNat % 4 = 3 := by decide +kernel
theorem witness_Scans_affine : lane vecs 1 32 0 % 2 ^ 31 ≠ 0 ∧ (0x80000000 : Nat) % 2 ^ 31 = 0 ∧ (activeOf vecs 0 32).head? = some 0
    ∧ (activeOf vecs 0 32).getLast? = some 15 := by decide +kernel
theorem witness_VectorConversions : 16 * (1 : VReg).toNat + 16 ≤ 512 / 16 ∧ 16 * (3 : VReg).toNat + 16 ≤ 512 / 8 ∧ 16 * (7 : VReg).toNat + 16 ≤ 512 / 4
    ∧ 16 * (0 : VReg).toNat + 16 ≤ 512 / 32 ∧ value 8 7 0x3FC0 ≠ 0 ∧ value 8 7 0x3FC0 = value32 0x3FC00000 ∧ finite 8 23 0x3FC00000 = true
    ∧ value 4 3 0x3C ≠ 0 ∧ value 4 3 0x3C = value32 0x3FC00000 ∧ valueM8 0x60 ≠ 0 ∧ isNan 8 23 0x7FC00000 = true := by decide +kernel
theorem witness_VectorFunctions : finite 8 23 0x40800000 = true ∧ 0 < value32 0x40800000 ∧ value32 0x40800000 = (2 : ℚ) ^ (2 : Int)
    ∧ value32 0x40800000 = (4 : ℚ) ^ (1 : Int) ∧ isNan 8 23 0x7FC00000 = true ∧ (0x80000000 : Nat) % 2 ^ 31 = 0 ∧ value32 0xBF800000 < 0 := by
  decide +kernel
theorem witness_VectorFunctions_exp : finite 8 23 0x3F800000 = true ∧ finite 8 23 0x3FB8AA3B = true ∧ -150 ≤ value32 0x3FB8AA3B
    ∧ value32 0x3FB8AA3B < 128 ∧ 128 ≤ value32 0x43000000 ∧ value32 0xC3170000 < -150 ∧ value32 0x3F800000 ≠ 0 := by decide +kernel

/-- A valid table in the own S buffer at w1: lo 0, hi 1, then the knots 1.0. -/
def tableImage : State := (List.range 33).foldl (fun s j => s.setWord (bufAddr 0 .s (0x108 + 8 * j)) ⟨0x3F8000003F800000, false⟩)
  ((withRegs base [(1, inS 0x100)]).setWord (bufAddr 0 .s 0x100) ⟨0x3F80000000000000, false⟩)

/-- The words of that table. -/
def knots : List (BitVec 32) := 0 :: List.replicate 67 0x3F800000

theorem witness_Tblset : tableImage.Clean [1] ∧ tableImage.me.pend = []
    ∧ tableImage.ptrTarget (tableImage.reg 1).val 272 .read = .ok (bufAddr 0 .s 0x100) ∧ bufAddr 0 .s 0x100 % 8 = 0 :=
  ⟨by unfold State.Clean; decide +kernel, by decide +kernel⟩
theorem witness_Vtli : (vecs.me.table = none) ∧ (vecs.modMe fun sl => { sl with table := some knots }).me.table = some knots ∧ knots.length = 68
    ∧ finite 8 23 (knots.getD 0 0).toNat = true ∧ finite 8 23 (knots.getD 1 0).toNat = true ∧ value32 (knots.getD 0 0).toNat < value32 (knots.getD 1 0).toNat
    ∧ finite 8 23 (knots.getD 2 0).toNat = true ∧ value32 (knots.getD 2 0).toNat ≠ 0 ∧ finite 8 23 (knots.getD 66 0).toNat = true
    ∧ value32 (knots.getD 66 0).toNat ≠ 0 ∧ value32 0 ≤ value32 (knots.getD 0 0).toNat ∧ value32 0x40000000 ≥ value32 (knots.getD 1 0).toNat
    ∧ value32 (knots.getD 0 0).toNat < value32 0x3F000000 ∧ value32 0x3F000000 < value32 (knots.getD 1 0).toNat := by decide +kernel

/-- w56 and w57 name lines of the own S buffer. -/
def pointed : State := withRegs vecs [(56, inS 0x200), (57, inS 0x240)]

theorem witness_PointerOperands : pointed.me.pend = [] ∧ PlainMemory pointed ∧ pointed.Clean [56, 57] ∧ 16 ≤ pointed.me.vl
    ∧ (56 : Reg) ≠ 57 ∧ (56 : Reg) = 56 + (0 : VReg).setWidth 6 ∧ (57 : Reg) = 56 + (1 : VReg).setWidth 6
    ∧ pointed.ptrTarget (pointed.reg 57).val 64 .read = .ok (bufAddr 0 .s 0x240) ∧ pointed.ptrTarget (pointed.reg 56).val 64 .write = .ok (bufAddr 0 .s 0x200)
    ∧ pointed.ptrTarget (pointed.reg 57).val 64 .write = .ok (bufAddr 0 .s 0x240) :=
  ⟨by decide +kernel, ⟨rfl, rfl, rfl⟩, by unfold State.Clean; decide +kernel, by decide +kernel⟩
theorem witness_PointerOperands_own : let s := withRegs vecs [(56, inA 0x240)]
    s.ptrTarget (s.reg 56).val 64 .write = .ok (bufAddr 0 .a 0x240) ∧ s.selfAlias (bufAddr 0 .a 0x240) = true
    ∧ pointed.selfAlias (bufAddr 0 .s 0x200) = false := by decide +kernel

/-! #### Matrix operations -/

/-- Core 0 with a round of slot 0 open and a matrix queue. -/
def matrixCore (q : List MatEntry) (r : Option Round) : State := { withRegs base [(2, 0), (3, 128), (4, 0), (5, 64), (6, 0x4000000000)] with
  cores := [(0, { Core.reset with running := true, round := r, matrix := q, slots := [(0, readySlot 0x10000)] })] }

/-- The round of slot 0. -/
def round0 : Round := ⟨0, 10000, 0, 0⟩

theorem witness_MatrixIssue : let s := matrixCore [] (some round0)
    s.Quiet ∧ s.Clean [2, 3, 4, 5, 6] ∧ (s.core s.cur.1).round = some round0 ∧ round0.slot = s.cur.2 ∧ (s.core s.cur.1).matrix.length < 4
    ∧ PairInOrder ((s.reg 2).val, (s.reg 3).val) 128 ∧ PairInOrder ((s.reg 4).val, (s.reg 5).val) 64
    ∧ (s.reg 2).val.toNat + (8 * (32 / (s.gangOf s.cur.1).length) - 1) * ((s.reg 3).val.toNat % 2 ^ 16) + 128 ≤ 0x10000
    ∧ (s.reg 4).val.toNat + 15 * ((s.reg 5).val.toNat % 2 ^ 16) + 64 ≤ 0x18000 ∧ Site.isQ s.cur.1 = decide ((0 : Nat) = 5)
    ∧ (s.reg 6).val.toNat / 2 ^ 32 % 2 ^ 16 % 64 = 0 := by
  refine ⟨.inr (by decide +kernel), by unfold State.Clean; decide +kernel, ?_⟩
  unfold PairInOrder; decide +kernel
theorem witness_MatrixIssue_skip : let s := (matrixCore [] (some round0)).modMe fun sl => sl.setCb cbSk 0x20FF9
    (s.me.cbWord cbSk).getLsbD 0 = true ∧ (32 + 63) / 64 ≤ (s.me.cbWord cbSk).toNat / 2 ^ 16 % 1024 := by decide +kernel
theorem witness_MatrixControl : let s := matrixCore [] none
    s.Quiet ∧ s.cur.1 < 4096 ∧ (s.core s.cur.1).matrix.length < 4 ∧ s.Clean [2, 3] ∧ PairInOrder ((s.reg 2).val, (s.reg 3).val) 64
    ∧ (s.reg 2).val.toNat + 255 * ((s.reg 3).val.toNat % 2 ^ 16) + 64 ≤ 0x10000
    ∧ (s.core s.cur.1).placed = none ∧ (s.core s.cur.1).matrix = [] ∧ s.me.pend = [] ∧ ∀ j, (s.slot s.cur.1 j).wait = none := by
  refine ⟨.inr rfl, by decide +kernel, by decide +kernel, by unfold State.Clean; decide +kernel, ?_⟩
  exact ⟨by unfold PairInOrder; decide +kernel, by decide +kernel, rfl, rfl, rfl, noWait_of _ _ _ rfl rfl rfl 0⟩

/-- A step of slot 0: MMA.BB over zeros into set 0. -/
def mmaEntry (t : Option Nat) : MatEntry := { MatEntry.queued 0 (.mma 0 (0, 64) (0, 64) none false false []) 0 with started := t }

theorem witness_MatrixControl_waits : let s := matrixCore [mmaEntry none] (some round0)
    (s.core 0).placed = none ∧ s.me.pend = [] ∧ (s.core 0).matrix = mmaEntry none :: [] ∧ MatOp.isMma (mmaEntry none).op = true
    ∧ (mmaEntry none).started = none ∧ (mmaEntry none).slot = s.cur.2 ∧ ({ mmaEntry none with slot := 1 } : MatEntry).slot ≠ s.cur.2 := by
  decide +kernel

theorem witness_MatrixSteps : let s : State := { matrixCore [mmaEntry (some 0)] (some round0) with cyc := 257 }
    let x := mmaEntry (some 0)
    (s.core 0).placed = none ∧ (s.core 0).matrix = [x] ∧ x.landed = false ∧ 0 + 256 + x.frozen ≤ s.cyc
    ∧ s.uncorr = [] ∧ s.redSlots = [] ∧ s.pkg.failed = [] ∧ s.pkg.thr = false ∧ ({ s with cyc := 255 } : State).cyc < 0 + 256 + x.frozen
    ∧ ((matrixCore [mmaEntry none] (some round0)).core 0).matrix = [mmaEntry none]
    ∧ ((matrixCore [mmaEntry none] (some round0)).slot 0 0).state ≠ .halted
    ∧ (s.setFull (bufAddr 0 .a 0) false).isFull (bufAddr 0 .a 0 / 64 * 64) = false ∧ (∀ u ∈ x.lines, u.1 ≠ 0)
    ∧ ((0 : Nat) + 256 - (64 : Word).toNat / 2 ^ 48 % 4 * 64) % 256 < ({ x with fetchA := 1 } : MatEntry).fetchA
    ∧ (s.core 0).freeze = false ∧ 0 + x.frozen + 255 ≤ ({ s with cyc := 255 } : State).cyc
    ∧ s.cyc < ((s.modCore 0 fun k => { k with portFree := 300 }).core 0).portFree
    ∧ finite 8 23 (leValue s.mem (bufAddr 0 .c 0) 4) = true
    ∧ (∀ p ∈ List.range (pairK 0), (lineValue (pairA 0 false) (s.stepLine 0 x 0) p).isSome = true
        ∧ (lineValue (pairW 0 false) (s.stepLine 0 x 256) p).isSome = true) := by decide +kernel
theorem witness_MatrixSteps_nan : let l : MLine := ⟨0x7FC0, none, [], false⟩
    let m : MLine := ⟨0, some 0xFF, [], false⟩
    lineNan (pairA 0 false) l 0 = true ∧ lineNan (pairA 5 false) m 0 = true ∧ (0x7FC00000 : Nat) / 2 ^ 0 = nan32 ∧ isNan 8 23 nan32 = true := by
  decide +kernel
theorem witness_MatrixSteps_watch : NoWatcher (matrixCore [mmaEntry (some 0)] (some round0)) := noWatcher_of _ _ _ rfl rfl rfl
/-- A MOUT of set 1 into A, and an MZERO of it. -/
def outEntry : MatEntry := MatEntry.queued 0 (.out (0, 64) true 0 0 false 0x7F) 0
def zeroEntry : MatEntry := MatEntry.queued 0 (.zero true) 0

theorem witness_MatrixQueueEffects : let s := matrixCore [outEntry] none
    PlainMemory s ∧ NoWatcher s ∧ (s.core 0).park = [] ∧ (s.slot 0 0).state ≠ .halted
    ∧ finite 8 23 (leValue s.mem (bufAddr 0 .c 0x4000) 4) = true
    ∧ ((matrixCore [zeroEntry] none).core 0).matrix = [zeroEntry] ∧ (s.slot 0 0).wp = outEntry.wp ∧ (s.slot 0 0).state = .ready :=
  ⟨⟨rfl, rfl, rfl⟩, noWatcher_of _ _ _ rfl rfl rfl, by decide +kernel⟩

/-! #### Ports -/

/-- `pair` with a port entry waiting in a queue of slot 0 of core 0. -/
def withEntry (d : Dir) (w : Bool) (n : Nat) : State := pair.setPort 0 0 d w (List.replicate n ⟨List.replicate 8 ⟨7, false⟩, true⟩)

theorem witness_PortTransfers : pair.me.pend = [] ∧ Dir.ofCode (0 : BitVec 3).toNat = some .e ∧ Dir.ofCode (4 : BitVec 3).toNat = some .lp
    ∧ pair.groupPeer 0 0 .e = some (1, 0) ∧ pair.groupPeer 0 0 .lp = some (0, 1) ∧ pair.Clean [1] ∧ (∀ x ∈ pair.vreg 0, x.poison = false)
    ∧ (pair.portQueue 1 0 .w false).length < 4 ∧ (pair.portQueue 1 0 .w true).length < 2
    ∧ 4 ≤ ((withEntry .lp false 4).portQueue 0 0 .lp false).length ∧ 2 ≤ ((withEntry .lp true 2).portQueue 0 0 .lp true).length
    ∧ (∃ e rest, (withEntry .e false 2).portQueue 0 0 .e false = e :: rest) ∧ pair.portQueue 0 0 .e false = []
    ∧ pair.groupPeer 0 0 .w = none ∧ Dir.ofCode (1 : BitVec 3).toNat = some .w := by
  unfold State.Clean
  have h : ∃ e rest, (withEntry .e false 2).portQueue 0 0 .e false = e :: rest := ⟨_, _, rfl⟩
  simp only [h, true_and]
  decide +kernel
theorem witness_PortTransfers_full : let s := ((pair.setPort 1 0 .w false (List.replicate 4 ⟨[⟨7, false⟩], true⟩)).setPort 1 0 .w true
      (List.replicate 2 ⟨List.replicate 8 ⟨7, false⟩, true⟩))
    s.groupPeer 0 0 .e = some (1, 0) ∧ 4 ≤ (s.portQueue 1 0 (Dir.opposite .e) false).length ∧ 2 ≤ (s.portQueue 1 0 (Dir.opposite .e) true).length := by
  decide +kernel
theorem witness_Pcfg : pair.Quiet ∧ pair.Clean [1] ∧ (pair.reg 1).val.toNat % 8 = 0 ∧ ((withRegs pair [(1, 0x401)]).reg 1).val.toNat % 8 = 1
    ∧ Dir.ofCode (((withRegs pair [(1, 0x401)]).reg 1).val.toNat / 2 ^ 8 % 8) = some .lp
    ∧ (withRegs pair [(1, 0x401)]).groupPeer 0 0 .lp = some (0, 1) ∧ Dir.ofCode (((withRegs pair [(1, 0x101)]).reg 1).val.toNat / 2 ^ 8 % 8) = some .w
    ∧ (withRegs pair [(1, 0x101)]).groupPeer 0 0 .w = none ∧ 2 ≤ ((withRegs pair [(1, 7)]).reg 1).val.toNat % 8 :=
  ⟨.inr rfl, by unfold State.Clean; decide +kernel, by decide +kernel⟩
theorem witness_PortTimeout : let s := pair.modMe fun sl => { sl with wait := some (.port 4 true false 9) }
    (s.slot 0 0).wait = some (.port 4 true false 9) ∧ ¬9 < s.cyc ∧ 9 < ({ s with cyc := 10 } : State).cyc := by decide +kernel

/-! #### Strands -/

/-- What an operation of the strand unit answers: 0 a value, 1 a status, 2 damage, 3 a trap, 4 a wait for a reservation; and whether
no bead was hurt. -/
def answers {α : Type} (op : SM α) (s : State) : Nat × Bool :=
  match op.run ⟨s, s.me.ctx, 0, 0, [], []⟩ with
  | (.ok _, w) => (0, w.hurt.isEmpty)
  | (.error (.status _), w) => (1, w.hurt.isEmpty)
  | (.error .damage, w) => (2, w.hurt.isEmpty)
  | (.error (.trap _), w) => (3, w.hurt.isEmpty)
  | (.error .wait, w) => (4, w.hurt.isEmpty)

/-- Beads of 1, 2 and 3 positions, a balanced tree of them, and the empty work. -/
def bead (n : Nat) : SM.Tree := .bead 0 0x4040 false n
def tree3 : SM.Tree := .clasp 0 0 (.clasp 0 0 (bead 1) (bead 2) 1 3) (bead 3) 2 6

/-- The positions of the trees that an operation answers. -/
def made {α : Type} (op : SM α) (f : α → Nat) : Nat := match (op.run ⟨world, 0, 0, 0, [], []⟩).1 with
  | .ok t => f t
  | .error _ => 0

theorem witness_Balanced : Spec.Balanced (bead 1) ∧ Spec.Balanced tree3 := by unfold tree3 bead; simp [Spec.Balanced, SM.Tree.h, SM.Tree.n]
theorem witness_StrandEdits : made (SM.join2 130 tree3 (bead 1)) (·.n) = 7 ∧ (4 : Nat) ≤ tree3.n
    ∧ made (SM.split 64 130 tree3 4) (fun r => 100 * positions r.1 + positions r.2) = 402
    ∧ made (SM.splice 64 130 tree3 4 (bead 2)) positions = 8 := by decide +kernel

/-- The world with arena 1 at 0x100000 of one 64 KiB unit, a descriptor with an integer SUM facet, sink 2 and ring 6 at its start,
and a bead of 8 positions after it; w1 names the bead, w2 and w3 hold 2 and 8. -/
def strands : State :=
  let s := withRegs world [(1, 0x100040), (2, 2), (3, 8)]
  let s := { s with ctxs := [(0, { s.ctx 0 with arena0 := 0x100000, arena1 := 0x0010000000000001 })] }
  pokes s 0x100000 [(mkHdr 3 0 2 0 1).toNat, 0x1840000000000000, 0, 0, 0, 0, 0x8000000006000002, 8,
    (mkHdr 2 0 2 0 1).toNat, 0x110040, 0, 8, 0, 0x100000, 0, 0]

/-- That state after the release of a strand instruction. -/
def ready : State := released strands .dev

/-- A word is read where the kernel finds it so. -/
def readsB (s : State) (a : Nat) (t : Tagged) : Bool := !State.isMesh (wordOf a) && (match s.translateDirect s.me.ctx (wordOf a) .read with
  | .ok (p, _, u) => decide (u = s) && decide (s.word p = t)
  | .error _ => false)

theorem reads_of (s : State) (a : Nat) (t : Tagged) (h : readsB s a t = true) : Reads s a t := by
  simp only [readsB, Bool.and_eq_true, Bool.not_eq_true'] at h
  refine ⟨h.1, ?_⟩
  split at h
  · rename_i p v u hu
    obtain ⟨-, h⟩ := h
    simp only [Bool.and_eq_true, decide_eq_true_eq] at h
    exact ⟨p, v, by rw [hu, h.1], h.2⟩
  · simp at h

/-- The facet and the descriptor of that strand. -/
def sumFacet : Facet := ⟨1, 2, 0, 1, 1, 0⟩
def strandDesc : SDesc := ⟨0x100000, [some sumFacet, none, none, none], 0, true, 6, 2, 8⟩

/-- The same for the strand unit, whose arena's pages may be written too. -/
def unitB (s : State) (a : Nat) (t : Tagged) : Bool := readsB s a t && match s.translateDirect s.me.ctx (wordOf a) .write with
  | .ok _ => true
  | .error _ => false

theorem unit_of (s : State) (a : Nat) (t : Tagged) (h : unitB s a t = true) : UnitReads s a t := by
  simp only [unitB, Bool.and_eq_true] at h
  refine ⟨reads_of _ _ _ h.1, fun _ => ?_⟩
  cases e : s.translateDirect s.me.ctx (wordOf a) .write with
  | ok x => exact ⟨x, rfl⟩
  | error _ => simp [e] at h

theorem units_of (s : State) (a : Nat) (ws : List Word)
    (h : ((List.range ws.length).all fun j => unitB s (a + 8 * j) ⟨ws.getD j 0, false⟩) = true) : UnitHolds s a ws :=
  fun j hj => unit_of _ _ _ (List.all_eq_true.mp h j (List.mem_range.mpr hj))

/-- A translation that leaves the state as it is, where the kernel finds it so. -/
def directB (s : State) (a : Nat) (k : Kind) (p : Nat) : Bool := match s.translateDirect s.me.ctx (wordOf a) k with
  | .ok (q, v, u) => decide (u = s) && decide (q = p) && !v
  | .error _ => false

theorem direct_of (s : State) (a : Nat) (k : Kind) (p : Nat) (h : directB s a k p = true) :
    s.translateDirect s.me.ctx (wordOf a) k = .ok (p, false, s) := by
  unfold directB at h
  split at h
  · rename_i q v u hu
    simp only [Bool.and_eq_true, decide_eq_true_eq, Bool.not_eq_true'] at h
    rw [hu, h.1.1, h.1.2, h.2]
  · simp at h

theorem writes_of (s : State) (a p : Nat) (h : State.isMesh (wordOf a) = false ∧ SM.onArena s.myCtx (wordOf a).toNat = false)
    (hw : directB s a .write p = true) : Writes s a p :=
  ⟨h.1, direct_of _ _ _ _ hw, fun o => absurd o (by simp [h.2])⟩

theorem counter_of (s : State) (a p m : Nat) (h : PlainMemory s ∧ s.reservations = [] ∧ State.isMesh (wordOf a) = false
    ∧ s.word p = ⟨mkHdr 2 0 m 0 (arenaOf s), false⟩) (hw : directB s a .write p = true) (hr : directB s a .read p = true) : Counter s a p m :=
  ⟨h.1, h.2.1, ⟨h.2.2.1, direct_of _ _ _ _ hw, fun _ => ⟨_, direct_of _ _ _ _ hr⟩⟩, direct_of _ _ _ _ hr, h.2.2.2⟩

/-- The words of the bead, and of the descriptor. -/
def beadWords : List Word := [mkHdr 2 0 2 0 1, 0x110040, 0, wordOf 8, 0, wordOf 0x100000, 0, 0]
def descWords : List Word := [mkHdr 3 0 2 0 1, 0x1840000000000000, 0, 0, 0, 0, 0x8000000006000002, 8]

theorem witness_StrandReady : StrandReady strands ∧ strands.Clean [1, 2, 3] ∧ PlainMemory strands := by
  unfold StrandReady State.Clean PlainMemory NoReservation; decide +kernel
theorem witness_StrandOutcomes : answers (pinned (SM.cat (strands.reg 1).val 0)) ready = (0, true) ∧ answers (SM.cat 2 0) ready = (1, true)
    ∧ answers (SM.newDesc 1) ready = (3, true) ∧ answers (SM.cat (strands.reg 1).val 0) (poke ready 0x100000 (mkHdr 0 0 0 0 0).toNat) = (1, true)
    ∧ answers (SM.cat (strands.reg 1).val 0) (poke ready 0x100000 0xFFFF) = (2, true)
    ∧ answers (SM.refOp (strands.reg 1).val true) { ready with reservations := [⟨ready.mapInterleaved 0x100040 / 8, 5, 0, 0, 0, false⟩] } = (4, true)
    ∧ (0 : Word).toNat % 8 = 0 :=
  ⟨by decide +kernel, by decide +kernel, by decide +kernel, by decide +kernel, by decide +kernel, by decide +kernel, by decide⟩
theorem witness_BeadAt : BeadAt ready 0x100040 2 8 0x110040 strandDesc :=
  ⟨by decide +kernel, by decide, by decide, by decide, by decide, by decide, by decide +kernel,
    units_of ready 0x100040 beadWords (by decide +kernel), descWords, 2, rfl, units_of _ _ _ (by decide +kernel), by decide +kernel⟩

/-- The count of the bead, raised. -/
def counts (m : Nat) : State := ready.bankSetWord (ready.mapInterleaved 0x100040) ⟨mkHdr 2 0 m 0 1, false⟩

theorem witness_Reads4 : ∀ j < 8, Reads4 (counts 3) ((0x110040 : Word).toNat + j * 8 + 0) 0 :=
  fun j h => have d := (by decide +kernel : ∀ j < 8, unitB (counts 3) ((0x110040 + j * 8) / 8 * 8) ⟨0, false⟩ = true) j h
    ⟨by show (0x110040 + j * 8 + 0) % 4 = 0; omega, by show 0x110040 + j * 8 + 0 < 2 ^ 48; omega, 0, unit_of _ _ _ d, by simp⟩
theorem witness_StrandOfOneBead : (strands.reg 1).val = wordOf 0x100040 ∧ (strands.reg 2).val.toNat < 8 ∧ (strands.reg 3).val.toNat ≤ 8
    ∧ strandDesc.facets.getD (0 : BitVec 2).toNat none = some sumFacet ∧ sumFacet.kind = 1 ∧ sumFacet.et = 0 ∧ sumFacet.shc = 2 ∧ sumFacet.srct = 1
    ∧ sumFacet.lanes = 1 ∧ (strands.reg 2).val.toNat < (strands.reg 3).val.toNat ∧ strandDesc.win = true ∧ 8 = strandDesc.sink + strandDesc.ring
    ∧ (strands.reg 3).val.toNat = 8 ∧ (strands.reg 0).val = 0 := by decide +kernel
theorem witness_StrandOfOneBead_counts : Counter ready 0x100040 (ready.mapInterleaved 0x100040) 2
    ∧ Counter (counts 3) 0x100040 (ready.mapInterleaved 0x100040) 3 ∧ (counts 3).bankSetWord (ready.mapInterleaved 0x100040) ⟨mkHdr 2 0 4 0 1, false⟩ = counts 4
    ∧ Counter (counts 4) 0x100040 (ready.mapInterleaved 0x100040) 4 := by
  refine ⟨counter_of _ _ _ _ ?_ ?_ ?_, counter_of _ _ _ _ ?_ ?_ ?_, ?_, counter_of _ _ _ _ ?_ ?_ ?_⟩ <;> (try unfold PlainMemory) <;> decide +kernel

/-- `strands` with an anchor at 0x8000 that names the bead, with ITER 5: w1 names it, w2 holds the iteration, w3 zero. -/
def anchored (root it : Nat) : State := pokes (withRegs strands [(1, 0x8000), (2, it), (3, 0)]) 0x8000 [root, 5]

/-- The anchored state after the release, and as SCOMMIT writes it. -/
def anchored0 (root : Nat) : State := released (anchored root 5) .dev
def anchored1 : State := (anchored0 0x100040).bankSetWord ((anchored0 0x100040).mapInterleaved 0x8008) ⟨6, false⟩

theorem witness_Commit : let s := anchored 0x100040 5
    s.Clean [1, 2, 3] ∧ s.me.pend = [] ∧ s.reqs = [] ∧ s.reservations = [] ∧ (s.reg 1).val.toNat = 0x8000 ∧ (s.reg 3).val = 0 ∧ (s.reg 2).val = 5
    ∧ ((anchored 0x100040 4).reg 2).val.toNat < 5 ∧ 5 < ((anchored 0x100040 6).reg 2).val.toNat := by unfold State.Clean; decide +kernel
theorem witness_Commit_words : UnitHolds (anchored0 0x100040) 0x8000 [0x100040, 5] ∧ UnitHolds (anchored0 0) 0x8000 [0, 5] :=
  ⟨units_of _ _ _ (by decide +kernel), units_of _ _ _ (by decide +kernel)⟩
theorem witness_Commit_writes : let u := anchored0 0x100040
    Writes u 0x8000 (u.mapInterleaved 0x8000) ∧ Writes u 0x8008 (u.mapInterleaved 0x8008) ∧ anchored1.reservations = []
    ∧ Writes anchored1 0x8000 (u.mapInterleaved 0x8000) := by
  refine ⟨writes_of _ _ _ ?_ ?_, writes_of _ _ _ ?_ ?_, ?_, writes_of _ _ _ ?_ ?_⟩ <;> decide +kernel

/-- `strands` with a task of the strand unit queued, and with the queue taken: the bead's release, or its descriptor's freeing. -/
def freeing (a : Nat) (release : Bool) : State := strands.modCtx 0 fun x => { x with frees := [⟨a, release, 0, 0⟩] }
def freed : State := (poke strands 0x100000 (mkHdr 3 0 0 0 1).toNat).modCtx 0 fun x => { x with frees := [] }

theorem witness_StrandFree : let p := freed.mapInterleaved 0x100040
    let q := freed.mapInterleaved 0x100000
    PlainMemory freed ∧ NoReservation freed ∧ ((freeing 0x100040 true).ctx 0).frees = ⟨0x100040, true, 0, 0⟩ :: []
    ∧ State.isMesh (wordOf 0x100040) = false ∧ State.isMesh (wordOf 0x100000) = false
    ∧ freed.translateDirect 0 (wordOf 0x100040) .read = .ok (p, false, freed) ∧ freed.translateDirect 0 (wordOf 0x100040) .write = .ok (p, false, freed)
    ∧ freed.translateDirect 0 (wordOf 0x100000) .read = .ok (q, false, freed) ∧ freed.translateDirect 0 (wordOf 0x100000) .write = .ok (q, false, freed)
    ∧ freed.word p = ⟨mkHdr 2 0 2 0 1, false⟩ ∧ freed.word q = ⟨mkHdr 3 0 0 0 1, false⟩
    ∧ SM.inArena (freeing 0x100040 true).myCtx 0x100040 = true ∧ SM.inArena (freeing 0x8000 true).myCtx 0x8000 = false := by
  unfold PlainMemory NoReservation; decide +kernel
theorem witness_StrandFree_watch : NoWatcher (freeing 0x100040 true) ∧ NoWatcher (freeing 0x100000 false) :=
  ⟨noWatcher_of _ _ _ rfl rfl rfl, noWatcher_of _ _ _ rfl rfl rfl⟩

/-! #### Views -/

/-- What a check answers: its value, its status, or its fault. -/
def okOf {ε α : Type} : Except ε α → Option α
  | .ok a => some a
  | .error _ => none
def statusOf {α : Type} : Except Refuse α → Option Nat
  | .error (.status n) => some n
  | _ => none
def faultOf {α : Type} : Except Refuse α → Option Trap
  | .error (.trap t) => some t
  | _ => none

theorem ok_of {ε α : Type} {x : Except ε α} {a : α} (h : okOf x = some a) : x = .ok a := by
  cases x <;> simp_all [okOf]
theorem status_of {α : Type} {x : Except Refuse α} {n : Nat} (h : statusOf x = some n) : x = .error (.status n) := by
  cases x with
  | ok a => simp [statusOf] at h
  | error e => cases e <;> simp_all [statusOf]
theorem fault_of {α : Type} {x : Except Refuse α} {t : Trap} (h : faultOf x = some t) : x = .error (.trap t) := by
  cases x with
  | ok a => simp [faultOf] at h
  | error e => cases e <;> simp_all [faultOf]

/-- Words that a context reads, by the kernel. -/
theorem holds_of (s : State) (a : Nat) (ws : List Word) (h : ((List.range ws.length).all fun j => readsB s (a + 8 * j) ⟨ws.getD j 0, false⟩) = true) :
    Holds s a ws := fun j hj => reads_of _ _ _ (List.all_eq_true.mp h j (List.mem_range.mpr hj))

/-- A master of one F32 block at 0x10000, a second at 0x11000, and a B16 view of the first at 0x20000; w1 names a descriptor. -/
def master0 : Word := 0x10004
def view0 : Word := 0x100000400000

/-- The world with its page VIEWED, a descriptor at 0x8000, and handles. -/
def viewing (desc : List Nat) (hs : List (Nat × Nat × Handle)) : State :=
  let s := pokes (poke (withRegs world [(1, 0x8000), (2, 0x2000), (3, 0), (4, 1), (5, inS 0x1000), (6, 0x1000), (7, 0x3000)]) 0x3000 0x5CF) 0x8000 desc
  { s with ctxs := [(0, { s.ctx 0 with handles := hs })] }

/-- The view's handle slot. -/
def viewSlot : Handle := .view 1 view0 0x20000 0 0 0

theorem witness_ViewRegMst : let s := viewing [0x10004, 1] []
    let u := released s .dev
    s.me.pend = [] ∧ s.reqs = [] ∧ PlainMemory s ∧ s.Clean [1] ∧ (s.reg 1).val.toNat % 16 = 0 ∧ (s.reg 1).val.toNat % 32 = 0
    ∧ Holds u 0x8000 [master0, 1] ∧ u.masterCheck 0 [⟨master0, false⟩, ⟨1, false⟩] = .ok 1
    ∧ u.masterCheck 0 [⟨master0, false⟩, ⟨0, false⟩] = .error (.status 1)
    ∧ ∃ t, u.masterCheck 0 [⟨0x200004, false⟩, ⟨1, false⟩] = .error (.trap t) :=
  ⟨by decide +kernel, by decide +kernel, by unfold PlainMemory; decide +kernel, by unfold State.Clean; decide +kernel, by decide +kernel, by decide +kernel,
   holds_of _ _ _ (by decide +kernel), ok_of (by decide +kernel), status_of (by decide +kernel), ⟨3, 2, 0x200000, 0, .own, 1, false, false⟩, fault_of (by decide +kernel)⟩
theorem witness_ViewRegDrv : let s := viewing [view0.toNat, 0x20000, 0, 0] [(1, 0, .master master0 1)]
    let u := released s .dev
    s.me.pend = [] ∧ s.reqs = [] ∧ PlainMemory s ∧ s.Clean [1] ∧ Holds u 0x8000 [view0, 0x20000, 0, 0]
    ∧ u.viewCheck 0 [⟨view0, false⟩, ⟨0x20000, false⟩, ⟨0, false⟩, ⟨0, false⟩] = .ok (2, 1, 1)
    ∧ (s.die (fieldOf view0 10 2)).churn.length + 1 ≤ 4096
    ∧ u.viewCheck 0 [⟨view0, false⟩, ⟨0x20000, false⟩, ⟨0, false⟩, ⟨1, false⟩] = .error (.status 1) :=
  ⟨by decide +kernel, by decide +kernel, by unfold PlainMemory; decide +kernel, by unfold State.Clean; decide +kernel,
   holds_of _ _ _ (by decide +kernel), ok_of (by decide +kernel), by decide +kernel, status_of (by decide +kernel)⟩
theorem witness_ViewDrop : let k := (viewing [] [(1, 0, .master master0 1), (2, 0xFFF, viewSlot), (3, 5, .master 0x11004 1)]).ctx 0
    k.lookup 0x1000 = some (1, .master master0 1) ∧ State.viewsOf k 1 ≠ [] ∧ k.lookup 0x3005 = some (3, .master 0x11004 1) ∧ State.viewsOf k 3 = []
    ∧ k.lookup 0x2FFF = some (2, viewSlot) ∧ (k.handleAt 1).2 = .master master0 1 ∧ k.lookup 0x2000 = none ∧ (k.handleAt 3).1 < 0xFFF
    ∧ (k.handleAt 2).1 = 0xFFF := by decide +kernel
theorem witness_ViewReads : let s := viewing [] [(1, 0, .master master0 1), (2, 0, viewSlot)]
    s.me.pend = [] ∧ s.me.parkedSince = none ∧ s.Clean [2, 3, 4, 5] ∧ s.myCtx.lookup ((s.reg 2).val.toNat % 2 ^ 32) = some (2, viewSlot)
    ∧ (s.myCtx.handleAt 1).2 = .master master0 1 ∧ (s.reg 3).val.toNat < 1 ∧ 1 ≤ (s.reg 4).val.toNat
    ∧ s.viewDst (s.reg 5).val (vBytes view0 1024) = .ok (bufAddr 0 .s 0x1000) :=
  ⟨by decide +kernel, by decide +kernel, by unfold State.Clean; decide +kernel, by decide +kernel, by decide +kernel, by decide +kernel, by decide +kernel,
   by decide +kernel⟩

/-- A VIEW.WAIT for block 0 of that view at the churn of die 0, with a tag record, a version and a policy. -/
def asking (tag : Word) (ver pol : Nat) : State :=
  let s := viewing [] [(1, 0, .master master0 1), (2, 0, viewSlot)]
  let r : ViewReq := ⟨9, 0, 0, 0, 2, 0, pol, none, 0, 3, 8, 0, 100, false⟩
  { (s.modCtx 0 fun k => { k with tags := [(2 * 2 ^ 32, tag)], versions := [(2 ^ 32, BitVec.ofNat 32 ver)] }).modMe fun sl =>
      { sl with wait := some (.view 0 9 0x2000 100) } with
    dies := [(0, { Die.reset with viewReqs := [r] })] }

theorem witness_ChurnServe : let s := asking 0x380000000 3 0
    let r : ViewReq := ⟨9, 0, 0, 0, 2, 0, 0, none, 0, 3, 8, 0, 100, false⟩
    (s.die 0).viewReqs = [r] ∧ r.waiting = false ∧ r.dst = none ∧ (s.slot r.core r.slot).wait = some (.view 0 r.n 0x2000 100)
    ∧ (s.ctx r.ctx).lookup (0x2000 : Word).toNat = some (2, viewSlot) ∧ aget (s.ctx r.ctx).tags 0 (2 * 2 ^ 32 + r.block) = 0x380000000
    ∧ (aget (s.ctx r.ctx).versions 0 (1 * 2 ^ 32 + r.block)).toNat = 3 ∧ (0x380000000 : Word).getLsbD 31 = true ∧ fieldOf 0x380000000 32 32 = 3
    ∧ (aget ((asking 0x380000000 4 1).ctx 0).versions 0 (2 ^ 32)).toNat = 4 := by decide +kernel
theorem witness_ChurnServe_stale : let s := asking 0x300000000 3 1
    let u := asking 0x380000000 4 2
    (aget (s.ctx 0).tags 0 (2 * 2 ^ 32)).getLsbD 31 = false ∧ (∃ r, (s.die 0).viewReqs = [r] ∧ r.pol = 1)
    ∧ fieldOf (aget (u.ctx 0).tags 0 (2 * 2 ^ 32)) 32 32 ≠ (aget (u.ctx 0).versions 0 (2 ^ 32)).toNat ∧ ∃ r, (u.die 0).viewReqs = [r] ∧ r.pol = 2 := by
  refine ⟨by decide +kernel, ⟨_, rfl, rfl⟩, by decide +kernel, _, rfl, rfl⟩
theorem witness_ViewWaitTimeout : ((asking 0 0 0).slot 0 0).wait = some (.view 0 9 0x2000 100) ∧ ¬100 ≤ (asking 0 0 0).cyc := by decide +kernel

/-- No core has a parked request where the one core has none. -/
theorem noPark_of (s : State) (k : Core) (hc : s.cores = [(0, k)]) (hp : k.park = []) (o : Nat) : (s.core o).park = [] := by
  simp only [State.core, hc, aget]
  split
  · exact hp
  · rfl

/-- A WBUF view of the first master at the own cluster's W buffer. -/
def wbuf0 : Word := 0x100000401000
def wbufSlot : Handle := .view 1 wbuf0 0 0x10000 0 0

/-- That view's block queued at the churn of die 0, and the state with the queue taken. -/
def refreshing : State := { world with
  ctxs := [(0, { world.ctx 0 with handles := [(1, 0, .master master0 1), (2, 0, wbufSlot)] })]
  dies := [(0, { Die.reset with churn := [⟨0, 2, 0⟩] })] }
def taken0 : State := refreshing.modDie 0 fun x => { x with churn := [] }

/-- The words of the master's block, and the places of the view's. -/
def masterWords : List Tagged := List.replicate 512 ⟨0, false⟩
def viewPlaces : List Nat := (List.range 256).map fun j => bufAddr 0 .w (8 * j)

theorem witness_ViewRefreshes_queue : PlainMemory refreshing ∧ NoWatcher refreshing ∧ (∀ o, (refreshing.core o).park = [])
    ∧ (refreshing.die 0).churn = ⟨0, 2, 0⟩ :: [] ∧ (refreshing.ctx 0).handleAt 2 = (0, wbufSlot)
    ∧ ((refreshing.ctx 0).handleAt 1).2 = .master master0 1 :=
  ⟨by unfold PlainMemory; decide +kernel, noWatcher_of _ _ _ rfl rfl rfl, noPark_of _ _ rfl rfl, by decide +kernel, by decide +kernel, by decide +kernel⟩
/-- A zero word that a context reads for a block, by the kernel. -/
def zeroB (s : State) (a : Word) : Bool := !State.isMesh a && match s.translateDirect 0 a .read with
  | .ok (p, _, u) => decide (u = s) && decide (s.touchWords p 8 = s) && decide (s.bankWord p = ⟨0, false⟩)
  | .error _ => false

theorem readBlock_zeros (s : State) : ∀ (n : Nat) (a : Word), (∀ j < n, zeroB s (a + BitVec.ofNat 64 (8 * j)) = true) →
    s.readBlock 0 a n = .ok (List.replicate n ⟨0, false⟩, s) := by
  intro n
  induction n with
  | zero => intro a _; rfl
  | succ n ih =>
    intro a h
    have h0 := h 0 (by omega)
    have hn := ih (a + 8) fun j hj => by
      have := h (j + 1) (by omega)
      rwa [show a + BitVec.ofNat 64 (8 * (j + 1)) = a + 8 + BitVec.ofNat 64 (8 * j) by
        rw [Nat.mul_succ, BitVec.ofNat_add, BitVec.add_comm (BitVec.ofNat 64 (8 * j)), ← BitVec.add_assoc]; rfl] at this
    rw [Nat.mul_zero, BitVec.add_zero, zeroB, Bool.and_eq_true, Bool.not_eq_true'] at h0
    rw [State.readBlock, h0.1]
    obtain ⟨-, h0⟩ := h0
    split at h0
    · rename_i p v u hu
      simp only [Bool.and_eq_true, decide_eq_true_eq] at h0
      rw [hu]
      simp only [h0.1.1, h0.1.2, hn, h0.2, List.replicate_succ]
      rfl
    · simp at h0

/-- The block's words are read in eighths, each by the kernel on its own. -/
def Eighth (k : Nat) : Prop := ∀ j < 64, zeroB taken0 (wordOf (fieldOf master0 12 36 * 4096 + 4096 * 0) + BitVec.ofNat 64 (8 * (64 * k + j))) = true

theorem eighths (h : ∀ k < 8, Eighth k) : taken0.readBlock 0 (wordOf (fieldOf master0 12 36 * 4096 + 4096 * 0)) 512 = .ok (masterWords, taken0) :=
  readBlock_zeros taken0 512 _ fun j hj => by
    have := h (j / 64) (by omega) (j % 64) (by omega)
    rwa [Nat.div_add_mod] at this

theorem eighth0 : Eighth 0 := by unfold Eighth; decide +kernel
theorem eighth1 : Eighth 1 := by unfold Eighth; decide +kernel
theorem eighth2 : Eighth 2 := by unfold Eighth; decide +kernel
theorem eighth3 : Eighth 3 := by unfold Eighth; decide +kernel
theorem eighth4 : Eighth 4 := by unfold Eighth; decide +kernel
theorem eighth5 : Eighth 5 := by unfold Eighth; decide +kernel
theorem eighth6 : Eighth 6 := by unfold Eighth; decide +kernel
theorem eighth7 : Eighth 7 := by unfold Eighth; decide +kernel

theorem witness_ViewRefreshes_read : taken0.readBlock 0 (wordOf (fieldOf master0 12 36 * 4096 + 4096 * 0)) 512 = .ok (masterWords, taken0)
    ∧ ∀ t ∈ masterWords, t.poison = false :=
  ⟨eighths fun k hk => by
    match k, hk with
    | 0, _ => exact eighth0
    | 1, _ => exact eighth1
    | 2, _ => exact eighth2
    | 3, _ => exact eighth3
    | 4, _ => exact eighth4
    | 5, _ => exact eighth5
    | 6, _ => exact eighth6
    | 7, _ => exact eighth7, by decide +kernel⟩
theorem witness_ViewRefreshes_publish : taken0.publishTargets 0 wbuf0 0 0x10000 1024 0 = some (viewPlaces, taken0)
    ∧ viewPlaces.Pairwise (fun x y => x + 8 ≤ y ∨ y + 8 ≤ x) ∧ (∀ x ∈ viewPlaces, x % 8 = 0) := by decide +kernel
theorem witness_ViewBlock : master0.toNat % 4 = 0 ∧ vType view0 = 4 ∧ vTrans view0 = false ∧ vScaled view0 = false
    ∧ (List.replicate 4096 (0 : Byte)).length = 4096 ∧ finite 8 23 0x3FC00000 = true ∧ value 8 7 0x3FC0 = value32 0x3FC00000
    ∧ value32 0x3FC00000 ≠ 0 := by decide +kernel
theorem witness_PendTake : let s := (viewing [] [(1, 0, .master master0 1), (2, 0, viewSlot)]).modCtx 0 fun k => { k with tags := [(2 * 2 ^ 32, 0x20000000)] }
    (s.die 0).churn.length < 4096 ∧ s.pendingBlock 0 = some (0, 2 * 2 ^ 32) := by decide +kernel

/-! #### Copy engines and the pool -/

/-- The world with guest frame 1 on frame 3 of pool 0, mapped at 0x200000; w1 and w2 name lines of the own S buffer, w3 is a
length, w4 the pool page, w5 a cycle. -/
def pooled : State :=
  let s := poke (withRegs world [(1, inS 0x100), (2, inS 0x200), (3, 64), (4, 0x200000), (5, 9)]) 0x3008 0x2001CF
  { s with ctxs := [(0, { s.ctx 0 with s2 := [(0, 0x1F), (1, 0x3000005F)] })] }

/-- The same after the release of an engine command. -/
def pooled0 : State := released pooled .dev

/-- The words that an engine holds of 64 bytes of a buffer, or of a pool frame. -/
def held64 (a : Nat) : List HeldWord := State.heldWords a 64 none false

theorem witness_EngineCommands : pooled.me.pend = [] ∧ pooled.reqs = [] ∧ pooled.Clean [1, 2, 3, 4, 5] ∧ (pooled.reg 1).val.toNat % 8 = 0
    ∧ (pooled.reg 2).val.toNat % 8 = 0 ∧ (pooled.reg 3).val.toNat = 64 ∧ (pooled.reg 4).val.toNat % 8 = 0
    ∧ (pooled.cluster (Site.cluster pooled.cur.1)).engine.length < 16
    ∧ pooled0.heldRange 0 0 (pooled.reg 1).val 64 .write = .ok (held64 (bufAddr 0 .s 0x100), pooled0)
    ∧ pooled0.heldRange 0 0 (pooled.reg 2).val 64 .read = .ok (held64 (bufAddr 0 .s 0x200), pooled0)
    ∧ (held64 (bufAddr 0 .s 0x100)).length = 64 / 8
    ∧ (okOf (pooled0.poolPieces 0 .read (pieces (64 / 4096 + 2) (pooled.reg 4).val.toNat 64))).isSome = true
    ∧ (okOf (pooled0.poolPieces 0 .write (pieces (64 / 4096 + 2) (pooled.reg 4).val.toNat 64))).isSome = true
    ∧ (pooled.reg 0).val.toNat ≤ pooled.cyc ∧ pooled.cyc < (pooled.reg 5).val.toNat := by
  unfold State.Clean; decide +kernel

/-- A command of slot 0 at the head of cluster 0's engine, with a word to copy from the S buffer to pool frame 3. -/
def command (kind : EngKind) (ws : List EngWord) (t : Option Nat) : EngCmd := ⟨7, kind, 0, 0, 0, 0, ws, 40, t, 0, 3, 0, none⟩
def toPool : EngWord := ⟨some (bufAddr 0 .s 0x100), some (2 ^ 80 + 3 * 2 ^ 21), none, some 1, 0x200000, false⟩

/-- `base` with that command and an owner of the frame. -/
def engines (e : EngCmd) (owner : Nat) : State := { base with
  clusters := [(0, { Cluster.reset with engine := [e] })]
  pkg := { base.pkg with owners := [(3, owner)] }
  cyc := 2000000 }

theorem witness_EngineEvents : let s := engines (command .poolwr [toPool] (some 0)) 0
    (s.cluster 0).engine = command .poolwr [toPool] (some 0) :: [] ∧ PlainMemory s ∧ NoReservation s ∧ 2 ^ 80 ≤ 2 ^ 80 + 3 * 2 ^ 21
    ∧ s.pkg.owners.find? (fun o => o.1 = (2 ^ 80 + 3 * 2 ^ 21 - 2 ^ 80) / 2 ^ 21) = some ((2 ^ 80 + 3 * 2 ^ 21 - 2 ^ 80) / 2 ^ 21, s.pkg.device.toNat)
    ∧ (engines (command .poolwr [toPool] (some 0)) 5).pkg.owners.find? (fun o => o.1 = 3) = some (3, 5) ∧ 5 ≠ s.pkg.device.toNat
    ∧ 0 + 1750000 ≤ s.cyc ∧ (command .cpy [] none).started = none ∧ (command .cpy [] (some 0)).words = [] ∧ (command .poolrd [] (some 0)).kind = .poolrd := by
  unfold PlainMemory NoReservation; decide +kernel
theorem witness_EngineEvents_midFrame : let e := { command .poolwr [toPool] (some 0) with frame := some 3 }
    ((engines e 0).cluster 0).engine = e :: [] ∧ e.frame = some (0 * 2 ^ 36 + 3) ∧ (2 ^ 80 + 3 * 2 ^ 21 - 2 ^ 80) / 2 ^ 21 = 0 * 2 ^ 36 + 3
    ∧ (command .poolwr [toPool] (some 0)).frame = none ∧ ∀ n, n ≠ 0 → ((engines e 0).cluster n).engine = [] :=
  ⟨rfl, rfl, by decide, rfl, fun n h => by simp [engines, State.cluster, aget, h, Cluster.reset]⟩
theorem witness_EngineEvents_waits (e : EngCmd) (o : Nat) : ∀ c i, ((engines e o).slot c i).wait = none := noWait_of _ _ _ rfl rfl rfl
theorem witness_SleepAndPromise : let s := (engines (command .cpy [] (some 0)) 0).modMe fun sl => { sl with state := .parked, wait := some (.sleepu 9 4), promises := [(7, 40)] }
    (s.slot 0 0).wait = some (.sleepu 9 4) ∧ 9 ≤ s.cyc ∧ Site.cluster 0 = 0 ∧ (s.slot 0 0).promises = [(7, 40)] ∧ 40 ≤ s.cyc
    ∧ (command .cpy [] (some 0)).id = 7 ∧ (s.slot 0 0).state = .parked := by decide +kernel

/-! #### Helpers and launch -/

/-- Slot 0 about to start helper 1, and slot 1 in a state. -/
def helping (st1 : SlotState) : State := { withRegs base [(1, 1), (2, 0x20000), (3, 0x11), (4, 11)] with
  cores := [(0, { Core.reset with running := true, slots := [(0, readySlot 0x10000), (1, { Slot.reset with state := st1, exitVal := ⟨7, false⟩ })] })] }

theorem witness_HelperResults : let s := helping .free
    s.me.pend = [] ∧ s.reqs = [] ∧ s.resQueue = [] ∧ PlainMemory s ∧ s.cur.2 = 0 ∧ s.Clean [1, 2, 3, 4] ∧ (s.reg 1).val.toNat = 1 ∧ (s.reg 2).val ≠ 0
    ∧ (s.reg 2).val.toNat % 4 = 0 ∧ (s.reg 0).val = 0 ∧ (s.reg 3).val.toNat % 16 < 12 ∧ (s.reg 0).val.toNat / 16 % 2 = 0
    ∧ (s.slot 0 1).state = .free ∧ ((helping .ready).slot 0 1).state ≠ .free ∧ ((helping .ready).slot 0 1).state ≠ .exited
    ∧ ((helping .exited).slot 0 1).state = .exited ∧ 10 < (s.reg 4).val.toNat ∧ (s.core 0).matrix = [] := by
  unfold State.Clean PlainMemory; decide +kernel
theorem witness_HelperResults_due : let q : Reply := ⟨7, 0, 0, 0, 1, 0x11, some (3, 0), none, none⟩
    let s : State := { withRegs (helping .free) [(1, 1), (2, 0), (3, 0x11)] with replies := [q] }
    (s.reg 2).val = 0 ∧ q ∈ s.replies ∧ q.status ≠ none ∧ q.core = s.cur.1 ∧ q.ctx = s.me.ctx ∧ q.gen = s.me.gen
    ∧ q.wp = (s.reg 3).val.setWidth 5 := by decide +kernel
theorem witness_HelperResults_helper : ({ helping .ready with cur := (0, 1) } : State).cur.2 ≠ 0 ∧ ({ helping .ready with cur := (0, 1) } : State).me.pend = []
    ∧ ({ helping .ready with cur := (0, 1) } : State).Clean [1] := by unfold State.Clean; decide +kernel
theorem witness_HelperResults_exit : (∀ j, 1 ≤ j → j ≤ 10 → ((helping .exited).slot 0 j).state = .free ∨ ((helping .exited).slot 0 j).state = .exited)
    ∧ ∃ j, 1 ≤ j ∧ j ≤ 10 ∧ ((helping .ready).slot 0 j).state ≠ .free ∧ ((helping .ready).slot 0 j).state ≠ .exited :=
  ⟨fun j _ h => (by decide +kernel : ∀ j ≤ 10, ((helping .exited).slot 0 j).state = .free ∨ ((helping .exited).slot 0 j).state = .exited ∨ j = 0) j h |>.elim
    .inl fun h' => h'.elim .inr fun h0 => by omega, 1, by decide, by decide, by decide +kernel, by decide +kernel⟩

/-- The world with a launch record at 0x8000, named by w1, and what its context may launch. -/
def launching (r : List Nat) (prios launches : Nat) : State :=
  let s := pokes (withRegs world [(1, 0x8000)]) 0x8000 r
  { s with ctxs := [(0, { s.ctx 0 with prioMask := prios, launches := launches, groups := [(1, 1)] })] }

/-- A record of one work item: its code at 0x10000, and a group's number. -/
def record (name : Nat) : List Word := [wordOf (0x10000 + name * 2 ^ 48), 0, 0, 0, 0, 0, 0, 0]

theorem witness_LaunchResult : let s := launching ((record 0).map (·.toNat)) 255 2
    s.me.pend = [] ∧ s.reqs = [] ∧ PlainMemory s ∧ s.Clean [1] ∧ (s.reg 1).val.toNat % 64 = 0 ∧ (record 0).length = 8
    ∧ Holds (released s .dev) (s.reg 1).val.toNat (record 0) ∧ badRecord (record 0) = false
    ∧ (s.ctx s.me.ctx).prioMask.testBit (fieldOf ((record 0).getD 1 0) 57 3) = true ∧ fieldOf ((record 0).getD 0 0) 48 16 = 0
    ∧ 2 ∉ (s.ctx s.me.ctx).groups.map (fun x => x.1) ∧ 1 ∈ (s.ctx s.me.ctx).groups.map (fun x => x.1)
    ∧ (s.ctx s.me.ctx).usedOf .launches < (s.ctx s.me.ctx).launches :=
  ⟨by decide +kernel, by decide +kernel, by unfold PlainMemory; decide +kernel, by unfold State.Clean; decide +kernel, by decide +kernel, by decide,
   holds_of _ _ _ (by decide +kernel), by decide +kernel, by decide +kernel, by decide +kernel, by decide +kernel, by decide +kernel, by decide +kernel⟩
theorem witness_LaunchRefusals : badRecord [1, 0, 0, 0, 0, 0, 0, 0] = true ∧ ((launching [] 0 2).ctx 0).prioMask.testBit 0 = false
    ∧ fieldOf ((record 5).getD 0 0) 48 16 = 5 ∧ 5 ∉ ((launching [] 255 2).ctx 0).groups.map (fun x => x.1) ∧ badRecord (record 5) = false
    ∧ fieldOf ((record 1).getD 0 0) 48 16 = 1 ∧ ((launching [] 255 0).ctx 0).launches ≤ ((launching [] 255 0).ctx 0).usedOf .launches := by decide +kernel

/-- A queued record of the root at die 0, of two iterations, and a machine with it. -/
def queued (prio : Nat) (head : Option Nat) : LaunchRec := ⟨4, 0, 0, 0x8000, [0x10000, 0x8000000000000001, 0, 0x1000000000000, 0, 0, 0, 0], prio, 1, head, false, false, none, false⟩
def sequencing (r : LaunchRec) (cyc : Nat) : State := { State.reset with dies := [(0, { Die.reset with queue := [r] })], cyc := cyc }

/-- Without cores, no slot waits and no core has a parked request. -/
theorem noSlots (s : State) (h : s.cores = []) : NoWatcher s ∧ (∀ x, (s.core x).park = []) ∧ ∀ c i, (s.slot c i).wait = none := by
  have hc : ∀ x, s.core x = Core.reset := fun x => by simp [State.core, h, aget]
  have hw : ∀ c i, (s.slot c i).wait = none := fun c i => by simp [State.slot, hc, Core.reset, aget, Slot.reset]
  exact ⟨fun c i w hx => (by rw [hw c i] at hx; cases hx), fun x => by rw [hc]; rfl, hw⟩

theorem witness_SequencerChoose : let r := queued 0 none
    let s := sequencing r 0
    (s.die 0).queue = [r] ∧ r.prio < 8 ∧ r.wait = 0 ∧ r.ws = 0 ∧ (s.ctx r.ctx).live = true ∧ (s.ctx r.ctx).gen = r.gen ∧ s.isStopped 8 r.ctx = false
    ∧ PlainMemory s ∧ s.fits 0 r = some ([(0, 0, [0])], [0]) := by unfold PlainMemory; decide +kernel
theorem witness_SequencerChoose_quiet : NoWatcher (sequencing (queued 0 none) 0) ∧ ∀ x, ((sequencing (queued 0 none) 0).core x).park = [] :=
  ⟨(noSlots _ rfl).1, (noSlots _ rfl).2.1⟩
theorem witness_AgePromotion : (queued 6 (some 5)).prio < 7 ∧ (queued 6 (some 5)).headSince = some 5 ∧ 5 + (queued 6 (some 5)).age ≤ (sequencing (queued 6 (some 5)) 1029).cyc
    ∧ (queued 7 none).prio = 7 ∧ (∀ t0, (queued 6 (some 5)).headSince = some t0 → (sequencing (queued 6 (some 5)) 1028).cyc < t0 + (queued 6 (some 5)).age) :=
  ⟨by decide +kernel, by decide +kernel, by decide +kernel, by decide +kernel, fun t0 h => by
    have : t0 = 5 := by simpa [queued] using h.symm
    subst this; decide +kernel⟩

/-- That launch running on core 0 in an iteration, its work item exited or not. -/
def run0 (it : Nat) : Running := ⟨queued 0 none, [], [(0, 0, [0])], [0], it, false, none⟩
def running (r : Running) (ex : Bool) : State := { State.reset with
  dies := [(0, { Die.reset with running := [r] })]
  cores := [(0, { Core.reset with placed := some ⟨4, 0, 0, ex⟩, group := some (0, 1), slots := [(0, readySlot 0)] })] }
def iterating (it : Nat) (ex : Bool) : State := running (run0 it) ex

theorem witness_IterationEnd : (iterating 0 false).runningN 4 = some (0, run0 0) ∧ (run0 0).rec_.n = 4 ∧ (iterating 0 false).allExited (run0 0) = false
    ∧ (iterating 0 true).allExited (run0 0) = true ∧ (run0 0).iteration + 1 < (run0 0).rec_.iterations ∧ (run0 0).gangs = [(0, 0, [0])]
    ∧ (run0 0).template = [] ∧ (iterating 0 true).isStopped 8 0 = false
    ∧ (run0 0).decrement = none ∧ (run0 0).ended = false ∧ PlainMemory (iterating 0 true)
    ∧ (run0 1).rec_.iterations ≤ (run0 1).iteration + 1 ∧ (iterating 1 true).allSettled (run0 1) = true ∧ (run0 1).rec_.done = 0 := by
  unfold PlainMemory; decide +kernel
theorem witness_IterationEnd_quiet : NoWatcher (iterating 0 true) ∧ ∀ x, ((iterating 0 true).core x).park = [] :=
  ⟨noWatcher_of _ _ _ rfl rfl rfl, noPark_of _ _ rfl rfl⟩


/-- A decrement still to be made after the last iteration; an access of the item still unaccepted; and the decrement still to be
posted. -/
def owed : Running := { run0 1 with ended := true, decrement := some 9 }
def access (n : Nat) : Request := ⟨n, 0, 0, 0, 0, 0x100, [0], [false], none, none, 0, false⟩
def signalled : Running := { run0 1 with rec_ := { queued 0 none with words := [0x10000, 0x8000000000000001, 0, 0x1000000008000, 0, 0, 0, 0] } }
def mappedRun : State := { world with
  dies := [(0, { Die.reset with running := [signalled] })]
  cores := [(0, { Core.reset with placed := some ⟨4, 0, 0, true⟩, group := some (0, 1), slots := [(0, readySlot 0)] })] }

theorem witness_LaunchEnd : (running owed true).runningN 4 = some (0, owed) ∧ owed.rec_.n = 4 ∧ owed.decrement = some 9
    ∧ (∃ q ∈ ({ running owed true with reqs := [access 9] } : State).reqs, q.n = 9) ∧ (∀ q ∈ (running owed true).reqs, q.n ≠ 9)
    ∧ ({ running { run0 1 with ended := true } true with reqs := [access 3] } : State).allSettled { run0 1 with ended := true } = false
    ∧ mappedRun.runningN 4 = some (0, signalled) ∧ signalled.decrement = none ∧ signalled.ended = false ∧ mappedRun.allExited signalled = true
    ∧ signalled.rec_.iterations ≤ signalled.iteration + 1 ∧ mappedRun.allSettled signalled = true ∧ signalled.rec_.done ≠ 0 ∧ PlainMemory mappedRun := by
  unfold PlainMemory; refine ⟨?_, ?_, ?_, ?_, ?_, ?_, ?_, ?_, ?_, ?_, ?_, ?_, ?_, ?_⟩ <;> decide +kernel
theorem witness_LaunchEnd_signal : mappedRun.translateDirect signalled.rec_.ctx signalled.rec_.done .write = .ok (mappedRun.mapInterleaved 0x8000, false, mappedRun) :=
  direct_of mappedRun 0x8000 .write _ (by decide +kernel)
/-! #### The context tree -/

/-- What a listed key reads as. -/
theorem aget_cases {α : Type} (l : List (Nat × α)) (d : α) (k : Nat) : aget l d k = d ∨ ∃ x ∈ l, aget l d k = x.2 := by
  induction l with
  | nil => exact .inl rfl
  | cons x t ih =>
    simp only [aget]
    split
    · exact .inr ⟨x, by simp, rfl⟩
    · exact ih.imp_right fun ⟨y, hy, h⟩ => ⟨y, by simp [hy], h⟩

/-- No slot waits and no core has a parked request, by the kernel. -/
def still (s : State) : Bool := s.cores.all fun x => x.2.park.isEmpty && x.2.slots.all fun y => y.2.wait.isNone

theorem still_core (s : State) (h : still s = true) (c : Nat) : (s.core c).park = [] ∧ ∀ y ∈ (s.core c).slots, y.2.wait = none := by
  rcases aget_cases s.cores Core.reset c with hc | ⟨x, hx, hc⟩
  · rw [State.core, hc]; exact ⟨rfl, fun y hy => nomatch hy⟩
  · have := List.all_eq_true.mp h x hx
    simp only [Bool.and_eq_true, List.isEmpty_iff, List.all_eq_true, Option.isNone_iff_eq_none] at this
    rw [State.core, hc]; exact this
theorem still_park (s : State) (h : still s = true) : ∀ c, (s.core c).park = [] := fun c => (still_core s h c).1
theorem still_wait (s : State) (h : still s = true) (c i : Nat) : (s.slot c i).wait = none := by
  rcases aget_cases (s.core c).slots Slot.reset i with hs | ⟨y, hy, hs⟩
  · rw [State.slot, hs]; rfl
  · rw [State.slot, hs]; exact (still_core s h c).2 y hy
theorem still_watch (s : State) (h : still s = true) : NoWatcher s := fun c i _ hx => nomatch (still_wait s h c i).symm.trans hx

/-- A context at depth 1 with guest frame 0 on frame 0, its page tables, and a stopped child with none. -/
def parent1 : Ctx := { Ctx.root with depth := 1, gen := 2, s1root := 1, s2len := 512, s2 := [(0, 0x1F), (2, 0x800)] }
def child2 : Ctx := { Ctx.reset with live := true, gen := 3, depth := 2, parent := 1, s2len := 512, hcap := 16 }

/-- Slot 0 of core 0 runs context 1, which holds cores 0 and 1; w1 names context 2, w2 the block at 0x8000, w3 a line, w4 no child. -/
def family (p k : Ctx) (ch1 : List (Nat × Nat)) (sl1 : List (Nat × Slot)) (desc : List Nat) : State :=
  let s := pokes (withRegs world [(1, 0x20003), (2, 0x8000), (3, 0x9000), (4, 7)]) 0x8000 desc
  { s with
    ctxs := [(0, { Ctx.root with s1root := 1, s2len := 512, s2 := [(0, 0x1F)] }), (1, p), (2, k)]
    cores := [(0, { Core.reset with running := true, chain := [(1, 2)], slots := [(0, { readySlot 0x10000 with ctx := 1, gen := 2 })] }),
      (1, { Core.reset with running := true, chain := ch1, slots := sl1 })] }

/-- The state after the release of a CTX operation. -/
def eased (s : State) : State := released s .dev

/-- What every statement of the family asks, by the kernel. -/
def calm (s : State) : Prop := s.me.pend = [] ∧ s.reqs = [] ∧ s.treeOps = [] ∧ PlainMemory s ∧ s.Clean [1, 2, 3, 4]

/-- A creation block for a child of weight 1, one launch and 32 KiB, and for the cases that refuse it. -/
def creation : List Word := [0x1000, 0x200000010, 0, 0x100000001, 0x8000, 0, 0, 0]
def creating (p : Ctx) : State := { family p Ctx.reset [] [] (creation.map (·.toNat)) with
  ctxs := [(0, Ctx.root), (1, p)] }

theorem witness_ContextCreated : let s := creating parent1
    calm s ∧ (s.reg 2).val.toNat % 64 = 0 ∧ creation.length = 8 ∧ Holds (eased s) 0x8000 creation
    ∧ State.badCreation (creation.map fun x => (⟨x, false⟩ : Tagged)) = false ∧ (s.ctx 1).depth < 7
    ∧ (s.ctx 2).live = false ∧ (∀ m < 2, (s.ctx m).live = true) ∧ (s.ctx 1).live = true ∧ s.me.ctx = 1
    ∧ s.live (Site.mk 0 0 0) = true ∧ s.holder (Site.mk 0 0 0) = (1, s.me.gen) ∧ s.holder 1 ≠ (1, s.me.gen)
    ∧ 1 ≤ (s.ctx 1).left .weight ∧ 1 + 0 ≤ (s.ctx 1).left .children ∧ 1 ≤ (s.ctx 1).left .launches ∧ 0 ≤ (s.ctx 1).left .poolPages
    ∧ fieldOf (0x100000001 : Word) 32 32 = 1 :=
  ⟨by unfold calm PlainMemory State.Clean; decide +kernel, by decide +kernel, by decide, holds_of _ _ _ (by decide +kernel), by decide +kernel⟩
theorem witness_ContextCreated_cost : let s := creating { parent1 with memBytes := 2 ^ 40 + Config.metaBytes + Config.handleBytes * 16 }
    0x8000 + Config.metaBytes + Config.handleBytes * 16 ≤ (s.ctx 1).left .memBytes := by
  show 0x8000 + Config.metaBytes + Config.handleBytes * 16 ≤ (2 ^ 40 + Config.metaBytes + Config.handleBytes * 16) - 0
  omega
theorem witness_ContextCreated_refused : State.badCreation ([0, 0, 0, 0, 0, 0, 0, 1].map fun x => (⟨x, false⟩ : Tagged)) = true
    ∧ 7 ≤ ((creating { parent1 with depth := 7 }).ctx 1).depth ∧ ((creating { parent1 with children := 0 }).ctx 1).left .children = 0
    ∧ ((creating { parent1 with weight := 0 }).ctx 1).left .weight < 1 ∧ ((creating { parent1 with weight := 0 }).ctx 1).left .children ≠ 0
    ∧ (((creating parent1).ctx 2).gen + 1) % 256 ≠ 0
    ∧ ((({ creating parent1 with ctxs := [(0, Ctx.root), (1, parent1), (2, { Ctx.reset with gen := 255 })] } : State).ctx 2).gen + 1) % 256 = 0 := by decide +kernel

/-- Grants of frames (kind 0), cores (kind 1) and queues (kind 2) of one block. -/
theorem witness_GiveFrames : let s := family parent1 child2 [(1, 2)] [] [0xF, 0, 4, 1]
    calm s ∧ (s.reg 2).val.toNat % 32 = 0 ∧ Holds (eased s) 0x8000 [0xF, 0, 4, 1] ∧ s.childRef (s.reg 1).val = some 2 ∧ s.childRef (s.reg 4).val = none
    ∧ s.badGrant 2 [⟨0xF, false⟩, ⟨0, false⟩, ⟨4, false⟩, ⟨1, false⟩] true = false
    ∧ s.badGrant 2 [⟨0xFF, false⟩, ⟨0, false⟩, ⟨4, false⟩, ⟨1, false⟩] true = true ∧ s.badGrant 2 [⟨0xFF, false⟩, ⟨0, false⟩, ⟨4, false⟩, ⟨1, false⟩] false = true
    ∧ (aget (s.ctx 1).s2 0 0).getLsbD 0 = true ∧ (aget (s.ctx 1).s2 0 1).getLsbD 0 = false ∧ (aget (s.ctx 1).s2 0 1).getLsbD 11 = false
    ∧ (aget (s.ctx 1).s2 0 2).getLsbD 0 = false ∧ (aget (s.ctx 1).s2 0 2).getLsbD 11 = true
    ∧ (∀ g ∈ (s.ctx 1).grants, g.child ≠ 2) ∧ (s.ctx 1).grants.length < 4096 ∧ (s.ctx 1).depth ≠ 0 ∧ (s.ctx 1).depth ≤ 7
    ∧ 1 ≤ (s.ctx 1).left .poolPages :=
  ⟨by unfold calm PlainMemory State.Clean; decide +kernel, by decide +kernel, holds_of _ _ _ (by decide +kernel), by decide +kernel⟩
theorem witness_GiveFrames_cost : let s := family { parent1 with memBytes := 2 ^ 40 + Config.grantBytes } child2 [(1, 2)] [] [0xF, 0, 4, 1]
    1 * 2 ^ 21 + Config.grantBytes ≤ (s.ctx 1).left .memBytes := by
  show 1 * 2 ^ 21 + Config.grantBytes ≤ (2 ^ 40 + Config.grantBytes) - 0
  omega
theorem witness_RevokeFrames : let s := family parent1 { child2 with stopped := false, s2 := [(4, 0x0F), (5, 0x20000F)] } [(1, 2)] [] [0, 0, 4, 1]
    calm s ∧ Holds (eased s) 0x8000 [0, 0, 4, 1] ∧ s.badGrant 2 [⟨0, false⟩, ⟨0, false⟩, ⟨4, false⟩, ⟨1, false⟩] false = false
    ∧ (s.ctx 2).stopped = false ∧ (s.ctx 2).grants = [] ∧ (s.ctx 2).s2.Pairwise (fun x y => x.1 < y.1) ∧ fieldOf (0 : Word) 60 4 = 0 :=
  ⟨by unfold calm PlainMemory State.Clean; decide +kernel, holds_of _ _ _ (by decide +kernel), by decide +kernel⟩
theorem witness_GiveCores : let s := family parent1 child2 [(1, 2)] [] [2 ^ 60, 0x100, 0, 1]
    calm s ∧ Holds (eased s) 0x8000 [0x1000000000000000, 0x100, 0, 1]
    ∧ s.badGrant 2 [⟨0x1000000000000000, false⟩, ⟨0x100, false⟩, ⟨0, false⟩, ⟨1, false⟩] true = false ∧ fieldOf (0x1000000000000000 : Word) 60 4 = 1
    ∧ ((List.range 1).map (fun j => Site.mk (fieldOf (0x100 : Word) 24 2) (fieldOf (0x100 : Word) 8 5) (fieldOf (0x100 : Word) 16 5) + j)).filter s.live = [1]
    ∧ (s.core 1).chain = (s.core s.cur.1).chain ∧ s.holder s.cur.1 = (1, s.me.gen) ∧ (2, 3) ∉ (s.core s.cur.1).chain
    ∧ (∀ x ∈ (s.core 1).slots, x.2.state = .free) ∧ (s.core 1).park = [] ∧ 2048 * 1 ≤ (s.ctx 1).left .memBytes :=
  ⟨by unfold calm PlainMemory State.Clean; decide +kernel, holds_of _ _ _ (by decide +kernel), by decide +kernel⟩
theorem witness_RevokeCores : let s := family parent1 { child2 with stopped := false } [(1, 2), (2, 3)] [(0, { readySlot 0x10000 with ctx := 2, gen := 3 })] [2 ^ 60, 0x100, 0, 1]
    calm s ∧ s.badGrant 2 [⟨0x1000000000000000, false⟩, ⟨0x100, false⟩, ⟨0, false⟩, ⟨1, false⟩] false = false ∧ (s.ctx 2).stopped = false ∧ s.resQueue = []
    ∧ (∀ c, (s.core c).park = []) ∧ (s.core 1).group = none ∧ 1 ≠ s.cur.1 ∧ (2, (s.ctx 2).gen) ∈ (s.core 1).chain ∧ (s.slot 1 0).ctx = 2 :=
  ⟨by unfold calm PlainMemory State.Clean; decide +kernel, by decide +kernel, by decide +kernel, by decide +kernel, still_park _ (by decide +kernel), by decide +kernel⟩
theorem witness_Queues : let s := family parent1 child2 [(1, 2)] [] [2 ^ 61, 0xF0F, 0, 0]
    let u := family parent1 { child2 with stopped := false } [(1, 2)] [] [2 ^ 61, 0xF0F, 0, 0]
    let b : List Tagged := [⟨0x2000000000000000, false⟩, ⟨0xF0F, false⟩, ⟨0, false⟩, ⟨0, false⟩]
    fieldOf (0x2000000000000000 : Word) 60 4 = 2 ∧ s.badGrant 2 b true = false ∧ s.badGrant 2 b false = false ∧ (u.ctx 2).stopped = false ∧ u.badGrant 2 b false = false
    ∧ (s.ctx 2).stopped = true ∧ (s.ctx 2).prioMask &&& (255 - fieldOf (0xF0F : Word) 0 8) = 0 ∧ (s.ctx 2).dieMask &&& (15 - fieldOf (0xF0F : Word) 8 4) = 0
    ∧ (∀ x ∈ s.cores, (2, (s.ctx 2).gen) ∉ x.2.chain) ∧ (∀ x ∈ (s.ctx 2).s2, x.2.getLsbD 0 = false)
    ∧ (∀ x ∈ s.ctxs, x.2.live = true → x.2.depth ≠ 0 → x.2.parent ≠ 2) := by decide +kernel
/-- No context has a reply, by the kernel. -/
theorem noReplies (s : State) (h : s.ctxs.all (fun x => x.2.replies.isEmpty) = true) (m : Nat) (_ : s.inTree 2 8 m = true) : (s.ctx m).replies = [] := by
  rcases aget_cases s.ctxs Ctx.reset m with hc | ⟨x, hx, hc⟩
  · rw [State.ctx, hc]; rfl
  · rw [State.ctx, hc]; simpa using List.all_eq_true.mp h x hx
theorem witness_ContextRunStop : let s := family parent1 child2 [(1, 2), (2, 3)] [(0, { readySlot 0x10000 with state := .halted, ctx := 2, gen := 3 })] []
    let u := family parent1 { child2 with stopped := false } [(1, 2), (2, 3)] [(0, { readySlot 0x10000 with ctx := 2, gen := 3 })] []
    calm s ∧ s.childRef (s.reg 1).val = some 2 ∧ s.childRef (s.reg 4).val = none ∧ (s.ctx 2).stopped = true ∧ (s.ctx 2).replies = []
    ∧ (s.slot 1 0).state = .halted ∧ (s.slot 1 0).gen = (s.ctx 2).gen ∧ calm u ∧ u.childRef (u.reg 1).val = some 2 ∧ (u.ctx 2).stopped = false
    ∧ (∀ m, s.inTree 2 8 m = true → (s.ctx m).replies = []) ∧ (∀ c, (u.core c).park = []) ∧ u.resQueue = [] ∧ u.inTree 2 8 u.me.ctx = false ∧ u.inTree 2 8 (u.slot 1 0).ctx = true ∧ (u.slot 1 0).state = .ready
    ∧ (∀ c ∈ s.cores, c.2.matrix = []) ∧ (∀ c ∈ s.clusters, c.2.engine = []) ∧ s.replies = [] :=
  ⟨by unfold calm PlainMemory State.Clean; decide +kernel, by decide +kernel, by decide +kernel, by decide +kernel, by decide +kernel, by decide +kernel, by decide +kernel,
   by unfold calm PlainMemory State.Clean; decide +kernel, by decide +kernel, by decide +kernel, noReplies _ (by decide +kernel), still_park _ (by decide +kernel), by decide +kernel⟩
theorem witness_HaltComplete : let s := (family parent1 { child2 with halting := true } [] [] []).modMe fun sl => { sl with wait := some (.stop 2 1 4) }
    (s.ctx 2).halting = true ∧ s.reqs = [] ∧ (∀ c ∈ s.cores, c.2.matrix = []) ∧ s.climbs = [] ∧ (s.slot 0 0).wait = some (.stop 2 1 4) ∧ ((family parent1 child2 [] [] []).ctx 2).halting = false := by decide +kernel
/-- A second core of the partition waits for a STOP of its own. -/
theorem witness_TreeWaits : let sl : Slot := { readySlot 0x20000 with state := .parked, ctx := 1, gen := 2, wait := some (.stop 2 1 4), waitSince := some 3 }
    let s : State := { family parent1 child2 [(1, 2)] [(0, sl)] [] with treeOps := [(1, 1, 0)] }
    s.me.pend = [] ∧ s.reqs = [] ∧ s.Clean [1] ∧ s.treeOps = [(1, 1, 0)] ∧ ((1, 0) : Site × Nat) ≠ s.cur ∧ 1 = s.partitionOf 8 s.me.ctx ∧ s.slot 1 0 = sl
    ∧ sl.waitSince.isSome = true ∧ sl.wait = some (.stop 2 1 4) := by
  unfold State.Clean; refine ⟨?_, ?_, ?_, ?_, ?_, ?_, ?_, ?_, ?_⟩ <;> decide +kernel
theorem witness_ContextDirty : let s := family parent1 { child2 with s2 := [(0, 0x8F)], sub := [(0, 5)], darr := 9 } [] [] []
    let l := (List.range 64).map fun i => (s.mapInterleaved (0x9000 + 64 * i), false)
    calm s ∧ (s.reg 3).val.toNat % 64 = 0 ∧ (s.reg 4).val.toNat % 64 ≠ 0 ∧ (eased s).dirtyLines 1 (s.reg 3).val 64 = .ok (l, eased s)
    ∧ (∀ x ∈ l, x.2 = false) ∧ (l.map (fun x => x.1)).Pairwise (fun x y => x + 64 ≤ y ∨ y + 64 ≤ x)
    ∧ 0 < (s.ctx 2).s2len ∧ (aget (s.ctx 2).s2 0 0).getLsbD 7 = true ∧ aget (s.ctx 2).sub 0 0 ≠ 0 ∧ (s.ctx 2).darr ≠ 0 ∧ NoReservation s :=
  ⟨by unfold calm PlainMemory State.Clean; decide +kernel, by unfold NoReservation; decide +kernel⟩
theorem witness_ContextMaps : let s := family parent1 { child2 with s2 := [(3, 0x2F)] } [] [] [0x1F, 3, 1, 0]
    calm s ∧ NoWatcher s ∧ Holds (eased s) 0x8000 [0x1F, 3, 1, 0] ∧ (s.reg 2).val.toNat % 32 = 0 ∧ (s.reg 1).val ≠ 0 ∧ s.childRef (s.reg 1).val = some 2 ∧ s.childRef (s.reg 4).val = none
    ∧ ¬(fieldOf (0x1F : Word) 5 59 ≠ 0 ∨ fieldOf (0 : Word) 48 16 ≠ 0 ∨ fieldOf (0 : Word) 0 21 ≠ 0 ∨ (s.ctx 2).s2len < 3 + 1)
    ∧ ((s.ctx 2).s2len < 512 + 1) ∧ (0x1F : Word).getLsbD 4 = true ∧ (s.reg 0).val = 0
    ∧ (aget (s.ctx 2).s2 0 3).getLsbD 0 = true ∧ (aget (s.ctx 2).s2 0 3).getLsbD 5 = true ∧ (aget (s.ctx 2).s2 0 3).getLsbD 6 = false
    ∧ (aget (s.ctx 2).s2 0 4).getLsbD 0 = false ∧ (s.ctx 2).gen < 2 ^ 8 :=
  ⟨by unfold calm PlainMemory State.Clean; decide +kernel, still_watch _ (by decide +kernel), holds_of _ _ _ (by decide +kernel), by decide +kernel⟩

/-! #### Save images and replies -/

/-- The bead frame's enrolment of context 2, and of none. -/
theorem witness_S2mapBead_same : let s : State := { family parent1 { child2 with s2 := [(3, 0x2F)] } [] [] [] with enrol := [(0, ⟨0x2030000000001, 0⟩)] }
    let was := (aget s.enrol Enrol.reset (fieldOf (aget (s.ctx 2).s2 0 3) 12 8 * 2048 + fieldOf (aget (s.ctx 2).s2 0 3) 20 11)).rec_
    was.getLsbD 0 = true ∧ fieldOf was 48 16 = 2 ∧ fieldOf was 40 8 = (s.ctx 2).gen
    ∧ (aget ([] : List (Nat × Enrol)) Enrol.reset 0).rec_.getLsbD 0 = false := by decide +kernel
theorem witness_ContextSave : let s := family parent1 child2 [] [] [0x9000, 0x1000]
    calm s ∧ NoWatcher s ∧ s.childRef (s.reg 1).val = some 2 ∧ (s.reg 2).val.toNat % 16 = 0 ∧ Holds (eased s) (s.reg 2).val.toNat [0x9000, 0x1000] ∧ (s.ctx 2).stopped = true
    ∧ (∀ x ∈ s.clusters, x.2.engine = []) ∧ (∀ x ∈ s.cores, x.2.matrix = []) ∧ NoReservation s ∧ (0x9000 : Word).toNat % 4096 = 0 ∧ (0x9008 : Word).toNat % 4096 ≠ 0
    ∧ ((family parent1 { child2 with stopped := false } [] [] []).ctx 2).stopped = false ∧ (s.ctx 2).gen < 2 ^ 8 ∧ (s.ctx 2).depth < 8
    ∧ (s.treeOf 2).length < 2 ^ 16 ∧ (s.coresOf 2).length < 2 ^ 16 ∧ s.mapInterleaved 0x8008 % 8 = 0 :=
  ⟨by unfold calm PlainMemory State.Clean; decide +kernel, still_watch _ (by decide +kernel), by decide +kernel, by decide +kernel, holds_of _ _ _ (by decide +kernel),
   by unfold NoReservation; decide +kernel⟩

/-- The state that CTX.SAVE writes its image in, and where it writes. -/
def saving : State := eased (family parent1 child2 [] [] [0x9000, 0x1000])

theorem witness_ContextSave_writes : Writes saving ((0x8000 : Word).toNat + 8) (saving.mapInterleaved 0x8008)
    ∧ (∀ j < 0x1000, j % 4096 = 0 → Writes saving ((0x9000 : Word).toNat + j) (saving.mapInterleaved 0x9000 + j))
    ∧ (0x9000 : Word).toNat + 0x1000 ≤ 2 ^ 48
    ∧ (saving.mapInterleaved 0x8008 + 8 ≤ saving.mapInterleaved 0x9000 ∨ saving.mapInterleaved 0x9000 + 0x1000 ≤ saving.mapInterleaved 0x8008) := by
  refine ⟨⟨by decide, by decide +kernel, fun o => absurd o (by decide +kernel)⟩, fun j h h0 => ?_, by decide, by decide +kernel⟩
  obtain rfl : j = 0 := by omega
  exact ⟨by decide, by decide +kernel, fun o => absurd o (by decide +kernel)⟩

/-- An image of a context without cores, as CTX.LOAD finds it at 0x8000, and what it stands for. -/
def imageHead (feat : BitVec 128) : List Word := [0x100, 320, feat.setWidth 64, (feat >>> 64).setWidth 64, 1, 0, 0, 0]
  ++ (List.replicate 11 [256, 0]).flatten ++ [256, 16]
def loadable (k : Ctx) : State := { family parent1 k [] [] ((imageHead State.reset.pkg.feat ++ List.replicate 8 0).map BitVec.toNat) with
  images := [⟨(imageHead State.reset.pkg.feat).flatMap (fun w : Word => leBytesOf 8 w.toNat), 9, [(9, { child2 with gen := 4 })], [], [], [], [], [], [], [], []⟩] }

theorem witness_ContextLoad : let s := loadable { child2 with stopped := true }
    let feat := s.pkg.feat
    calm s ∧ NoWatcher s ∧ NoReservation s ∧ s.childRef (s.reg 1).val = some 2 ∧ (s.reg 2).val.toNat % 4096 = 0 ∧ (s.ctx 2).stopped = true ∧ (s.ctx 2).everRun = false
    ∧ fieldOf (1 : Word) 0 16 = 1
    ∧ imageHead feat = [0x100, 320, feat.setWidth 64, (feat >>> 64).setWidth 64, 1, 0, 0, 0] ++ (List.replicate 11 [256, 0]).flatten ++ [256, 16]
    ∧ (∃ img, s.images = [img] ∧ img.key = (imageHead feat).flatMap (fun w : Word => leBytesOf 8 w.toNat) ∧ img.child = 9
      ∧ img.ctxs = [(9, { child2 with gen := 4 })] ∧ img.frames = [] ∧ img.cores = [] ∧ img.churn = [] ∧ img.red = [] ∧ img.enrol = []
      ∧ img.queue = [] ∧ img.running = [] ∧ img.pass = [])
    ∧ child2.used = [] ∧ s.myCtx.depth < 7 ∧ Holds (eased s) (s.reg 2).val.toNat (imageHead feat ++ List.replicate 8 0)
    ∧ Writes (eased s) ((s.reg 2).val.toNat + 256) (s.mapInterleaved 0x8100) ∧ s.mapInterleaved 0x8100 % 8 = 0 ∧ 2 ≠ s.me.ctx :=
  ⟨by unfold calm PlainMemory State.Clean; decide +kernel, still_watch _ (by decide +kernel), by unfold NoReservation; decide +kernel, by decide +kernel, by decide +kernel, by decide +kernel,
   by decide +kernel, by decide, rfl, ⟨_, rfl, rfl, rfl, rfl, rfl, rfl, rfl, rfl, rfl, rfl, rfl, rfl⟩, by decide, by decide +kernel,
   holds_of _ _ _ (by decide +kernel), ⟨by decide +kernel, by decide +kernel, fun o => absurd o (by decide +kernel)⟩, by decide +kernel, by decide +kernel⟩
theorem witness_ContextLoad_budget : let s := loadable { child2 with stopped := true }
    s.myCtx.grants.length ≤ 4096 ∧ Config.handleBytes * child2.hcap ≤ s.myCtx.left .memBytes + Config.handleBytes * (s.ctx 2).hcap := by
  refine ⟨by decide +kernel, ?_⟩
  rw [(by decide +kernel : ((loadable { child2 with stopped := true }).ctx 2).hcap = child2.hcap)]
  exact Nat.le_add_left _ _
theorem witness_ContextLoad_refused : (family parent1 child2 [] [] []).childRef ((family parent1 child2 [] [] []).reg 1).val = some 2
    ∧ ((family parent1 { child2 with stopped := true, everRun := true } [] [] []).ctx 2).everRun = true
    ∧ ((family parent1 { child2 with stopped := false } [] [] []).ctx 2).stopped = false
    ∧ (List.replicate 32 (0 : Word)).length = 32
    ∧ State.badImage ((List.replicate 32 (0 : Word)).flatMap fun w => leBytesOf 8 w.toNat) = true
    ∧ Holds (eased (family parent1 { child2 with stopped := true } [] [] (List.replicate 32 0))) 0x8000 (List.replicate 32 0)
    ∧ (0x9001 : Word).toNat % 4096 ≠ 0 :=
  ⟨by decide +kernel, by decide +kernel, by decide +kernel, by decide, by decide +kernel, holds_of _ _ _ (by decide +kernel), by decide⟩

/-- A reply for slot 0 of core 0 of context 0, and the slot in the states that the cases of its arrival name. -/
def aReply : Reply := ⟨5, 0, 0, 0, 0, 0, some (3, 7), none, none⟩
def replied (r : Reply) (sl : Slot) (k : Ctx) : State := { base with
  replies := [r]
  ctxs := [(0, k)]
  cores := [(0, { Core.reset with running := true, slots := [(0, sl)] })] }

theorem witness_ReplyHandling : (replied aReply (readySlot 0) { Ctx.root with gen := 1 }).replies = [aReply]
    ∧ ((replied aReply (readySlot 0) { Ctx.root with gen := 1 }).ctx 0).gen ≠ aReply.gen ∧ ((replied aReply (readySlot 0) Ctx.root).ctx 0).gen = aReply.gen
    ∧ (let s := replied aReply { readySlot 0 with
          state := .parked
          wait := some (.pool 5 3 8) } Ctx.root
       (s.slot 0 0).ctx = 0 ∧ (s.slot 0 0).gen = 0 ∧ (s.slot 0 0).state = .parked ∧ (s.slot 0 0).wait = some (.pool 5 3 8) ∧ aReply.trap = none ∧ aReply.status.isSome = true)
    ∧ (let s := replied { aReply with trap := some ⟨4, 1, 0, 0, .own, 0, false, false⟩ } (readySlot 0) Ctx.root
       (s.slot 0 0).state = .ready ∧ s.replies = [{ aReply with trap := some ⟨4, 1, 0, 0, .own, 0, false, false⟩ }])
    ∧ (let s := replied aReply { readySlot 0 with state := .halted } Ctx.root
       (s.slot 0 0).state = .halted ∧ (s.ctx 0).replies = [] ∧ (s.ctx 0).live = true ∧ (s.ctx 0).depth = 0 ∧ (s.ctx 0).gen = aReply.gen)
    ∧ (let s := replied aReply { readySlot 0 with state := .halted } { Ctx.root with depth := 1 }
       (s.slot 0 0).state = .halted ∧ (0, 0) ∉ (s.core 0).chain ∧ (s.ctx 0).depth ≠ 0)
    ∧ (let s := replied aReply { readySlot 0 with state := .free } Ctx.root
       (s.slot 0 0).state = .free ∧ s.isStopped 8 0 = false) := by decide +kernel

/-! #### System instructions and exceptions -/

/-- The world with w1 the address 0x8000 of a descriptor. -/
def described (desc : List Nat) : State := pokes (withRegs world [(1, 0x8000)]) 0x8000 desc

theorem witness_SystemRegisters : let s := withRegs base [(1, 0xFF00F1)]
    s.me.pend = [] ∧ s.Clean [1] ∧ 128 < (s.reg 1).val.toNat / 2 ^ 16 % 2 ^ 8 :=
  ⟨by decide +kernel, by unfold State.Clean; decide +kernel, by decide +kernel⟩
theorem unstranded (s : State) (h : still s = true) : ∀ c i, (s.slot c i).wait ≠ some .strand := fun c i hx =>
  nomatch (still_wait s h c i).symm.trans hx

theorem witness_SystemWrites : let s := described [0x10000, 5]
    s.me.pend = [] ∧ s.reqs = [] ∧ PlainMemory s ∧ s.Clean [1] ∧ (s.reg 1).val.toNat % 16 = 0 ∧ Holds (eased s) (s.reg 1).val.toNat [0x10000, 5]
    ∧ (∀ c i, (s.slot c i).wait ≠ some .strand) ∧ (s.ctx s.me.ctx).depth = 0 ∧ s.pkg.partitioned = false
    ∧ Holds (eased (described [0x10001, 5])) 0x8000 [0x10001, 5] ∧ Holds (eased (described [0x10000, 0])) 0x8000 [0x10000, 0]
    ∧ Holds (eased (described [0x10000, 0x100000])) 0x8000 [0x10000, 0x100000] :=
  ⟨by decide +kernel, by decide +kernel, by unfold PlainMemory; decide +kernel, by unfold State.Clean; decide +kernel, by decide +kernel,
   holds_of _ _ _ (by decide +kernel), unstranded _ (by decide +kernel), by decide +kernel, by decide +kernel,
   holds_of _ _ _ (by decide +kernel), holds_of _ _ _ (by decide +kernel), holds_of _ _ _ (by decide +kernel)⟩
theorem witness_FeatWrite_children : let s := family parent1 child2 [] [] []
    (s.ctx s.me.ctx).depth ≠ 0 ∧ ({ s.pkg with partitioned := true } : Package).partitioned = true := by decide +kernel

/-- A region named by w1, in a context with a limit of MEMBYTES. -/
def region (v : Nat) (m : Nat) : State := { withRegs base [(1, v)] with
  ctxs := [(0, { Ctx.root with memBytes := m })] }

theorem region_pend (v m : Nat) : (region v m).me.pend = (withRegs base [(1, v)]).me.pend := rfl
theorem region_logical (v m n : Nat) : (region v m).logical n = base.logical n := rfl
theorem plain_ctxs (s : State) (l : List (Nat × Ctx)) (h : PlainMemory s) : PlainMemory { s with ctxs := l } := h
theorem reg_ctxs (s : State) (l : List (Nat × Ctx)) (r : Reg) : ({ s with ctxs := l } : State).reg r = s.reg r := rfl

theorem witness_Region (m : Nat) : (region 0x1000000008000 m).me.pend = [] ∧ (region 0x1000000008000 m).reqs = []
    ∧ (region 0x1000000008000 m).myCtx.redrgn = 0 ∧ (region 0x1000000008000 m).myCtx.handles = [] ∧ PlainMemory (region 0x1000000008000 m)
    ∧ (region 0x1000000008000 m).logical 4096 = 4096 ∧ (region 0x1000000008000 m).myCtx.left .memBytes = m := by
  have h0 : (region 0x1000000008000 m).me.pend = [] := (region_pend 0x1000000008000 m).trans (by decide +kernel)
  have h1 : PlainMemory (region 0x1000000008000 m) := plain_ctxs _ _ (by unfold PlainMemory; decide +kernel)
  have h2 : (region 0x1000000008000 m).logical 4096 = 4096 := (region_logical _ m 4096).trans (by decide +kernel)
  have h3 : (region 0x1000000008000 m).myCtx.left .memBytes = m := Nat.sub_zero m
  refine ⟨h0, ?_, ?_, ?_, h1, h2, h3⟩
  · rfl
  · rfl
  · rfl
theorem witness_Region_reg (m : Nat) : (region 0x1000000008000 m).reg 1 = ⟨0x1000000008000, false⟩ := by
  rw [region, reg_ctxs]
  decide +kernel
theorem witness_Region_value : fieldOf (0x1000000008000 : Word) 48 9 = 1 ∧ (0x1000000008000 : Word).toNat % 8 = 0 ∧ (0x1000000008000 : Word).toNat < 2 ^ 57 := by
  decide +kernel
theorem witness_Region_budget : 1 * 4096 * Config.redSlotBytes ≤ 4096 * Config.redSlotBytes ∧ 0 < 1 * 4096 * Config.redSlotBytes := by
  unfold Config.redSlotBytes; omega
theorem witness_Region_refused : (region 0x8000 0).reg 1 = ⟨0x8000, false⟩ ∧ fieldOf (0x8000 : Word) 48 9 = 0
    ∧ (region 0x101000000008000 0).reg 1 = ⟨0x101000000008000, false⟩ ∧ 256 < fieldOf (0x101000000008000 : Word) 48 9 := by decide +kernel
theorem witness_Invalidations : (withRegs base [(1, 0)]).me.pend = [] ∧ (withRegs base [(1, 0)]).reqs = [] ∧ (withRegs base [(1, 0)]).Clean [1] :=
  ⟨by decide +kernel, rfl, by unfold State.Clean; decide +kernel⟩
theorem witness_Invalidations_echo : let s : State := { withRegs base [(1, 0)] with reqs := [{ access 1 with core := 1 }] }
    (∀ q ∈ s.reqs, (q.core, q.slot) ≠ s.cur) ∧ (∃ q ∈ s.reqs, q.core = 1) ∧ (Site.cluster 1 = Site.cluster s.cur.1) ∧ (1 : Nat) / 1024 = s.cur.1 / 1024 := by
  decide +kernel
theorem witness_Invalidations_steps : let s := withRegs { base with cores := [(0, { Core.reset with
      running := true
      slots := [(0, readySlot 0x10000)]
      matrix := [MatEntry.queued 0 (.zero false) 0] })] } [(1, 0)]
    s.me.pend = [] ∧ s.Clean [1] ∧ ∃ e ∈ (s.core s.cur.1).matrix, e.slot = s.cur.2 := by unfold State.Clean; decide +kernel
theorem witness_ShootdownEcho : let s : State := { base with
      reqs := [{ access 1 with core := 1 }]
      cores := [(0, { Core.reset with
        running := true
        slots := [(0, { readySlot 0x10000 with
          state := .parked
          wait := some (.echoes [1, 2] 0 0 8) })] })] }
    (s.slot 0 0).wait = some (.echoes [1, 2] 0 0 8) ∧ (∃ q ∈ s.reqs, q.core = 1) ∧ (∀ q ∈ s.reqs, q.core ≠ 2) ∧ (1 : Site) ∈ [1, 2] ∧ (1 : Site) ≠ 2 := by
  decide +kernel

/-- Core 0 with slot 0 on workspace 0, with upcalls enabled at workspace 2 where `en`, a handler running where `um`, and slot 1 on
workspace 1. -/
def upcalls (en um : Bool) : State := { base with cores := [(0, { Core.reset with
  running := true
  slots := [(0, ((readySlot 0x10000).setCb cbUpv (if en then 0x102 else 0)).setCb cbStat (if um then 0x100 else 0)), (1, { readySlot 0x20000 with wp := 1 })] })] }

theorem witness_ExceptionEntry : let s := upcalls true false
    ∀ i ∈ [0, 1], let sl := s.slot 0 i
      let z := s.slot 0 0
      i < 11 ∧ sl.state = .ready ∧ z.state = .ready ∧ sl.pend = [] ∧ z.pend = [] ∧ sl.wp ≠ (z.cbWord 13).setWidth 5 ∧ z.wp ≠ (z.cbWord 13).setWidth 5
      ∧ (i ≠ 0 → sl.wp ≠ z.wp) ∧ sl.ctx < 2 ^ 16 ∧ sl.gen < 2 ^ 8 ∧ (s.ctx sl.ctx).depth < 8 ∧ (z.cbWord 13).getLsbD 8 = true
      ∧ ((z.cbWord 13).setWidth 5 : BitVec 5).toNat < 16 ∧ z.um = false := by decide +kernel
theorem witness_ExceptionEntry_queued : let s := upcalls true true
    (s.slot 0 1).state = .ready ∧ (s.slot 0 0).state = .ready ∧ ((s.slot 0 0).cbWord 13).getLsbD 8 = true ∧ (s.slot 0 0).um = true
    ∧ (((s.slot 0 0).cbWord 13).setWidth 5 : BitVec 5).toNat < 16 ∧ (s.slot 0 1).wp ≠ (s.slot 0 0).wp := by decide +kernel
theorem witness_ExceptionEntry_trap : ∃ tr : Trap, tr.owner = .own ∧ tr.cause < 2 ^ 8 ∧ tr.detail < 2 ^ 8 ∧ tr.acc < 4 :=
  ⟨⟨4, 1, 0, 0, .own, 1, false, false⟩, by decide⟩

/-- Context 1 on core 1, whose parent is the root on core 0, with its reflection target slot 0 there as given. -/
def reflected (z : List (Nat × Slot)) : State := { base with
  ctxs := [(0, Ctx.root), (1, { Ctx.root with
    depth := 1
    gen := 2
    parent := 0
    reflect := 0 })]
  cores := [(0, { Core.reset with
      running := true
      slots := z }),
    (1, { Core.reset with
      running := true
      chain := [(1, 2)]
      slots := [(0, { readySlot 0x10000 with
        ctx := 1
        gen := 2 })] })] }

/-- What the statement asks of the trapping slot and its context. -/
def Reflects (s : State) : Prop := (s.slot 1 0).state = .ready ∧ (s.slot 1 0).ctx = 1 ∧ (s.slot 1 0).gen = (s.ctx 1).gen ∧ 1 ≤ (s.ctx 1).depth
  ∧ (s.ctx (s.ctx 1).parent).depth + 1 = (s.ctx 1).depth ∧ (s.ctx 1).depth < 8 ∧ s.resQueue = [] ∧ s.reqs = [] ∧ (∀ x ∈ s.cores, x.2.matrix = []) ∧ (s.ctx 1).parent ≠ 1
  ∧ s.inTree 1 8 (s.ctx 1).parent = false ∧ (s.ctx 1).reflect = 0

theorem witness_TrapReflection_here : let s := reflected [(0, (readySlot 0x10000).setCb cbUpv 0x102)]
    let z := s.slot 0 0
    Reflects s ∧ (∀ x, (s.core x).park = []) ∧ z.ctx = 0 ∧ z.gen = (s.ctx 0).gen ∧ z.state = .ready ∧ z.pend = [] ∧ (z.cbWord 13).getLsbD 8 = true
    ∧ State.wpOk (z.cbWord 13) = true ∧ z.um = false :=
  ⟨by unfold Reflects; decide +kernel, still_park _ (by decide +kernel), by decide +kernel⟩
theorem witness_TrapReflection_halted : let s := reflected [(0, { Slot.reset with state := .halted })]
    Reflects s ∧ (s.slot 0 0).ctx = 0 ∧ (s.slot 0 0).gen = (s.ctx 0).gen ∧ (s.slot 0 0).state = .halted := by unfold Reflects; decide +kernel
theorem witness_TrapReflection_akmon : let s := reflected []
    Reflects s ∧ (s.slot 0 0).state = .free ∧ (s.ctx 1).depth = 1 := by unfold Reflects; decide +kernel

/-- A handler of slot 0 on workspace 2 with w1 the slot it returns to and w2 its workspace; slot 1 FAULTED, slot 2 queued where `q`. -/
def handling (h wp : Nat) (q : Bool) : State := withRegs { base with cores := [(0, { Core.reset with
  running := true
  interrupted := 0
  slots := [(0, { (readySlot 0x10000).setCb cbStat 0x100 with wp := 2 }), (1, { Slot.reset with state := .faulted }),
    (2, { Slot.reset with
      state := .faulted
      queued := q })] })] } [(1, h), (2, wp)]

theorem witness_UpcallReturn : ∀ h ∈ [0, 1], let s := handling h 1 false
    s.cur.2 = 0 ∧ s.me.pend = [] ∧ s.replies = [] ∧ (∀ x ∈ s.clusters, x.2.engine = []) ∧ (∀ r ∈ [(1 : Reg), 2], (s.reg r).poison = false) ∧ (s.reg 1).val.toNat = h ∧ (s.reg 2).val = 1 ∧ s.me.um = true
    ∧ (h ≠ 0 → (s.slot 0 h).state = .faulted) ∧ (1 : BitVec 5) ≠ s.me.wp ∧ (s.core 0).interrupted ≠ s.me.wp
    ∧ (∀ j ≤ 10, (s.slot 0 j).queued = false) := by decide +kernel
theorem witness_UpcallReturn_next : let s := (handling 1 1 true).setWord (bufAddr 0 .a 0xA68) ⟨0x103, false⟩
    (s.reg 1).val = 1 ∧ (s.reg 2).val = 1 ∧ s.me.pend = [] ∧ (s.slot 0 1).state = .faulted ∧ (s.slot 0 2).queued = true ∧ (s.slot 0 2).state = .faulted ∧ s.me.queued = false
    ∧ (s.slot 0 1).queued = false ∧ (s.word (bufAddr 0 .a 0 + 0xA68)).val.getLsbD 8 = true ∧ (s.word (bufAddr 0 .a 0 + 0xA68)).val.toNat % 32 < 16
    ∧ s.me.um = true := by decide +kernel
theorem witness_UpcallReturn_refused : (handling 11 1 false).reg 1 = ⟨11, false⟩ ∧ ((handling 3 1 false).slot 0 3).state ≠ .faulted
    ∧ (withRegs base [(1, 0), (2, 0)]).me.um = false ∧ (handling 1 28 false).reg 2 = ⟨28, false⟩ ∧ (28 : Nat) % 16 = 12 := by decide +kernel
theorem witness_PoisonRaises : (poisonReg base 3).me.pend = [] ∧ ([1, 2, 3] : List Reg).find? (fun r => ((poisonReg base 3).reg r).poison) = some 3 := by
  decide +kernel

/-! #### Events -/

theorem err_of {ε α : Type} {x : Except ε α} (h : okOf x = none) : ∃ e, x = .error e := by
  cases x with
  | error e => exact ⟨e, rfl⟩
  | ok a => exact nomatch h
theorem not_pool (a p fr o : Nat) : Target.inter a ≠ .pool p fr o := fun h => nomatch h

/-- What every wait of a state meets, by the kernel. -/
theorem waits_of (s : State) (P : Wait → Bool) (h : (s.cores.all fun x => x.2.slots.all fun y => y.2.wait.all P) = true) (x j : Nat) (w : Wait)
    (hw : (s.slot x j).wait = some w) : P w = true := by
  have hs : ∀ y ∈ (s.core x).slots, y.2.wait.all P = true := by
    rcases aget_cases s.cores Core.reset x with hc | ⟨z, hz, hc⟩
    · rw [State.core, hc]; exact fun y hy => nomatch hy
    · rw [State.core, hc]; exact List.all_eq_true.mp (List.all_eq_true.mp h z hz)
  rcases aget_cases (s.core x).slots Slot.reset j with hj | ⟨y, hy, hj⟩
  · rw [State.slot, hj] at hw; exact nomatch hw
  · rw [State.slot, hj] at hw
    have := hs y hy
    rw [hw] at this
    exact this

/-- The world with a wait in slot 0 of core 0, which is PARKED. -/
def waiting (w : Wait) : State := world.modSlot 0 0 fun sl => { sl with
  state := .parked
  wait := some w }

theorem witness_CoreEvents_result : ∀ n ∈ [0, 3],
    ((world.modSlot 0 0 fun sl => { sl with pend := [⟨n, [⟨.word 0x8000, ⟨5, false⟩, BitVec.allOnes 64⟩]⟩] }).slot 0 0).pend
      = [⟨n, [⟨.word 0x8000, ⟨5, false⟩, BitVec.allOnes 64⟩]⟩] := by decide +kernel
theorem witness_CoreEvents_miss : let s := { waiting (.missRefused 0x8000 .read 4) with cyc := 20 }
    (s.slot 0 0).wait = some (.missRefused 0x8000 .read 4) ∧ (s.slot 0 0).pend = [] ∧ 4 + 16 ≤ s.cyc ∧ (s.cluster (Site.cluster 0)).misses.length < 36
    ∧ (waiting (.missRefused 0x8000 .read 4)).cyc < 4 + 16 := by decide +kernel

theorem witness_CoreEvents_full : let q : List MissReq := (List.range 36).map fun n => ⟨1, n, 0, 0, 0x100000 + 4096 * n, .read⟩
    36 ≤ q.length ∧ (∀ x ∈ q, ¬(x.ctx = 0 ∧ x.gen = 0 ∧ x.va / 4096 = 0x8000 / 4096)) ∧ (∃ x ∈ q, x.ctx = 0 ∧ x.gen = 0 ∧ x.va / 4096 = 0x100100 / 4096)
    ∧ q.Pairwise (fun x y => x.ctx ≠ y.ctx ∨ x.gen ≠ y.gen ∨ x.va / 4096 ≠ y.va / 4096) := by decide +kernel

/-- The world with a miss of slot 0 of core 0 in its cluster's queue. -/
def missing (va : Nat) : State := (waiting (.walk va .read)).modCluster 0 fun x => { x with misses := [⟨0, 0, 0, 0, va, .read⟩] }

theorem witness_CoreEvents_walk : let s := missing 0x8000
    let u := s.modCluster 0 fun x => { x with misses := [] }
    (s.cluster 0).misses = [⟨0, 0, 0, 0, 0x8000, .read⟩] ∧ (s.cluster 0).l2 = [] ∧ (s.slot 0 0).wait = some (.walk 0x8000 .read)
    ∧ PlainMemory s ∧ (s.slot 0 0).state = .parked ∧ (s.slot 0 0).ctx = 0 ∧ (s.slot 0 0).gen = 0 ∧ (s.ctx 0).gen = 0 ∧ ∃ e, u.translate 0 0x8000 .read true = .ok (e, u) := by
  unfold PlainMemory
  refine ⟨by decide +kernel, by decide +kernel, by decide +kernel, by decide +kernel, by decide +kernel, by decide +kernel, by decide +kernel, by decide +kernel, ⟨11, 0, 0, 2 ^ 21, 0, .inter 0, true, true, true, false, false⟩, ok_of ?_⟩
  decide +kernel
theorem witness_CoreEvents_noWalk : let s := missing 0x1000000000
    let u := s.modCluster 0 fun x => { x with misses := [] }
    (s.cluster 0).misses = [⟨0, 0, 0, 0, 0x1000000000, .read⟩] ∧ (s.slot 0 0).wait = some (.walk 0x1000000000 .read)
    ∧ ∃ tr, u.translate 0 0x1000000000 .read true = .error tr := by
  refine ⟨by decide +kernel, by decide +kernel, ?_⟩
  exact err_of (by decide +kernel)
theorem witness_CoreEvents_turn : let s := base.modSlot 0 0 fun sl => sl.setCb cbStat 0x3000000
    (s.slot 0 0).state = .ready ∧ (s.slot 0 0).resid ≠ 0 ∧ (s.slot 0 0).pend = [] := by decide +kernel
theorem witness_CoreEvents_scrub : ({ base with uncorr := [5] } : State).uncorr = [5] ∧ 5 < 2 ^ 37
    ∧ 3 ∉ base.pkg.failed ∧ 3 ∈ ({ base.pkg with failed := [3] } : Package).failed := by decide

/-- A store of slot 0 of core 0 posted to an address, and a reservation of slot 1 there. -/
def stored (a : Nat) (rs : List Reservation) : State := { base with
  reqs := [⟨7, 0, 0, 0, 0, a, leBytesOf 8 9, [false], none, none, 0, false⟩]
  reservations := rs }

theorem witness_BankEvents_store : ∀ a ∈ [0x8000, bufAddr 1 .a 0x8000], let s := stored a []
    s.reqs = [⟨7, 0, 0, 0, 0, a, leBytesOf 8 9, [false], none, none, 0, false⟩] ∧ s.uncorr = [] ∧ s.redSlots = [] ∧ s.pkg.failed = []
    ∧ s.reservations = [] := by decide +kernel
theorem witness_BankEvents_plain : PlainMemory (stored 0x8000 []) ∧ NoWatcher (stored 0x8000 []) :=
  ⟨by unfold PlainMemory; decide +kernel, still_watch _ (by decide +kernel)⟩
theorem witness_BankEvents_reserved : (stored 0x8000 [⟨0x1000, 0, 1, 0, 0, false⟩]).reservations = [⟨0x1000, 0, 1, 0, 0, false⟩]
    ∧ (0x1000 : Nat) = 0x8000 / 8 ∧ leBytesOf 8 9 ≠ [] ∧ ((0, 1) : Nat × Nat) ≠ (0, 0) := by decide

/-- LDF of slot 0 of core 0 of a word of core 1. -/
def anLdf : SyncReq := ⟨.ldf, bufAddr 1 .a 0x8000, ⟨0, false⟩, 3, 8, none, 0xA000400100008000, 4, 0, 0, 100⟩

theorem witness_BankEvents_sync : anLdf.op = .ldf ∧ anLdf.base = none ∧ (base.core (State.ownerOf anLdf.addr)).park = []
    ∧ ({ base with syncs := [(2, 0, 0, anLdf)] } : State).syncs = [(2, 0, 0, anLdf)] ∧ base.isFull anLdf.addr = true
    ∧ (base.setFull anLdf.addr false).isFull anLdf.addr = false
    ∧ (let s := { waiting (.backoff anLdf 5) with cyc := 5 }
       (s.slot 0 0).wait = some (.backoff anLdf 5) ∧ 5 ≤ s.cyc ∧ s.isFull anLdf.addr = true
       ∧ s.admitted (s.slot 0 0).ctx (s.slot 0 0).gen (State.ownerOf anLdf.addr) = true)
    ∧ (waiting (.backoff anLdf 5)).cyc < 5
    ∧ (let s := { waiting (.backoff anLdf 5) with
        cyc := 5
        ctxs := [(0, { Ctx.root with depth := 1 })] }
       s.admitted (s.slot 0 0).ctx (s.slot 0 0).gen (State.ownerOf anLdf.addr) = false) := by decide +kernel
theorem witness_BankEvents_fence : let s := waiting (.fence [0] 1 false .core 8)
    (s.slot 0 0).wait = some (.fence [0] 1 false .core 8) ∧ (∀ r ∈ s.reqs, ¬(r.core = 0 ∧ r.slot = 0 ∧ bankOf r.addr = 0)) ∧ (s.slot 0 0).pend = [] := by
  decide +kernel
theorem witness_BankEvents_fence_open : let s := { waiting (.fence [bankOf 0x8000] 1 false .core 8) with reqs := (stored 0x8000 []).reqs }
    ∃ r ∈ s.reqs, r.core = 0 ∧ r.slot = 0 ∧ bankOf r.addr = bankOf 0x8000 := by decide +kernel

/-- The world where slot 0 of core 0 has reserved a word. -/
def reserved : State := { base.modSlot 0 0 fun sl => { sl with rsv := some 0x1000 } with reservations := [⟨0x1000, 0, 0, 0, 0, false⟩] }

theorem witness_BankEvents_expiry : reserved.reservations = [⟨0x1000, 0, 0, 0, 0, false⟩] ∧ (reserved.slot 0 0).rsv = some 0x1000 ∧ reserved.resQueue = []
    ∧ reserved.reqs = [] ∧ 0 + 4096 < ({ reserved with cyc := 4097 } : State).cyc ∧ reserved.cyc ≤ 0 + 4096 := by decide +kernel
theorem witness_BankEvents_waitm : let s := waiting (.waitm 3 ⟨0, false⟩ 8)
    (s.slot 0 0).wait = some (.waitm 3 ⟨0, false⟩ 8) ∧ (s.slot 0 0).pend = [] ∧ (∀ j < 4, ((s.slot 0 0).monitor j).pending = false)
    ∧ (s.slot 0 0).intr = false ∧ s.cyc < (9 : Word).toNat := by decide +kernel
theorem witness_BankEvents_echoes : ((waiting (.echoes [0] 3 0 8)).slot 0 0).wait = some (.echoes [0] 3 0 8)
    ∧ ((waiting (.echoes [0, 1] 3 0 8)).slot 0 0).wait = some (.echoes [0, 1] 3 0 8) ∧ 0 ∉ [1] := by decide +kernel

/-- A barrier that slot 1 of core 0 alone has joined, with upcalls enabled and a handler running. -/
def barred (b : Barrier) (k : Core) : State := { base with cores := [(0, { k with
  running := true
  slots := [(0, ((readySlot 0x10000).setCb cbUpv 0x102).setCb cbStat 0x100), (1, { readySlot 0x20000 with
    wp := 1
    state := .parked
    wait := some (.barrier b 100 50 [0] 8) })] })] }

theorem witness_Timeouts_sync : ((waiting (.sync anLdf)).slot 0 0).wait = some (.sync anLdf) ∧ anLdf.since + anLdf.ftmo ≤ ({ base with cyc := 100 } : State).cyc
    ∧ base.cyc < anLdf.since + anLdf.ftmo
    ∧ ({ anLdf with
        op := .ste
        refusals := 5 } : SyncReq).prlim < ({ anLdf with refusals := 5 } : SyncReq).refusals := by decide +kernel
theorem witness_Timeouts_signal : ((waiting (.signal 0x8000 0x8000 0 3 100 8)).slot 0 0).wait = some (.signal 0x8000 0x8000 0 3 100 8) := by decide +kernel
theorem witness_Timeouts_barriers : ∀ b ∈ [Barrier.clu, .gang], let s := barred b (if b = .gang then { Core.reset with group := some (0, 1) } else Core.reset)
    (s.slot 0 1).wait = some (.barrier b 100 50 [0] 8) ∧ ((s.slot 0 0).cbWord 13).getLsbD 8 = true ∧ State.wpOk ((s.slot 0 0).cbWord 13) = true
    ∧ (s.slot 0 0).um = true ∧ s.barRound b 0 1 = some (100, 50, [0]) := by decide +kernel
theorem witness_Timeouts_noBar : ∀ x j u g ps l, ((barred .clu Core.reset).slot x j).wait ≠ some (.barrier .bar u g ps l) := by
  intro x j u g ps l h
  have := waits_of (barred .clu Core.reset) (fun w => match w with
    | .barrier .bar .. => false
    | _ => true) (by decide +kernel) x j _ h
  exact nomatch this
/-- A step of slot 0, counted from cycle 5, not started. -/
def lateStep : MatEntry := { MatEntry.queued 0 (.mma 0 (0, 0x40) (0, 0x40) none false false []) 0 with
  since := some 5
  gtmo := 50 }

theorem witness_Timeouts_step : ∀ e ∈ [lateStep, { lateStep with started := some 5 }], let s := base.modCore 0 fun k => { k with matrix := [e] }
    (s.core 0).matrix = e :: [] ∧ e.slot = 0 ∧ e.since = some 5 ∧ (s.core 0).placed = none ∧ (s.slot 0 0).state = .ready
    ∧ (e.started = none ∨ s.occEnded 0 e = false) ∧ 5 + e.gtmo ≤ ({ s with cyc := 55 } : State).cyc ∧ s.cyc < 5 + e.gtmo := by decide +kernel
/-! #### Host, Akmon, links and start-up -/

/-- The world with context 1, a partition of VF 1 on core 0. -/
def hosted (k : Ctx) : State :=
  let s := { world with ctxs := [(0, { Ctx.root with s1root := 1, s2len := 512, s2 := [(0, 0x1F)] }), (1, k)] }
  { s with pkg := { s.pkg with
    numVfs := 1
    vfs := [(1, { Vf.reset with ctx := some (1, 2) })] } }

theorem witness_HostAccesses : let s := hosted parent1
    s.pkg.hostWrites = [] ∧ PlainMemory s ∧ NoWatcher s ∧ 1 ≤ s.pkg.numVfs ∧ (s.ctx 1).live = true
    ∧ (aget s.pkg.vfs Vf.reset 1).ctx = some (1, (s.ctx 1).gen) ∧ (aget s.pkg.vfs Vf.reset 1).hv = false ∧ (aget s.pkg.vfs Vf.reset 1).wbase.toNat * 2 ^ 36 + 0x8000 = 0x8000
    ∧ s.stage2 1 0x8000 0x8000 .read .read = .ok (0, 0x1F, .inter 0) ∧ s.stage2 1 0x8000 0x8000 .write .write = .ok (0, 0x1F, .inter 0)
    ∧ (∀ p fr o, Target.inter 0 ≠ .pool p fr o) ∧ s.reservations = [] :=
  ⟨by decide +kernel, by unfold PlainMemory; decide +kernel, still_watch _ (by decide +kernel), by decide +kernel, by decide +kernel, by decide +kernel, by decide +kernel,
   by decide +kernel, ok_of (by decide +kernel), ok_of (by decide +kernel), not_pool 0, by decide +kernel⟩
theorem witness_HostAccesses_fault : ∃ tr, (hosted parent1).stage2 1 0x40000000 0x40000000 .read .read = .error tr :=
  err_of (by decide +kernel)
theorem witness_HostAccesses_doorbell : let s := hosted parent1
    ((0 : Word).getLsbD 63 = false ∧ s.live 0 = true ∧ (s.slot 0 0).state ≠ .free ∧ (s.slot 0 0).gen = (s.ctx (s.slot 0 0).ctx).gen
      ∧ (s.ctx (s.slot 0 0).ctx).depth = 0 ∧ (s.ctx (s.slot 0 0).ctx).live = true)
    ∧ s.inTree 1 8 0 = false ∧ (0x8000000000000000 : Word).getLsbD 63 = true
    ∧ (s.ctx 1).depth = 1 ∧ (aget s.pkg.vfs Vf.reset 2).ctx = none ∧ s.inTree 0 8 0 = true ∧ s.pkg.boot ≠ .recovery := by decide +kernel
theorem witness_HostAccesses_bind : let s := hosted parent1
    let t : State := { s with pkg := { s.pkg with
      boot := .service
      vfs := [] } }
    s.pkg.boot ≠ .service ∧ (∃ x ∈ s.pkg.vfs, x.2.ctx = some (1, (s.ctx 1).gen)) ∧ t.pkg.boot = .service ∧ ¬(∃ x ∈ t.pkg.vfs, x.2.ctx = some (1, (t.ctx 1).gen))
    ∧ (aget t.pkg.vfs Vf.reset 1).ctx = none ∧ ({ s.pkg with boot := .recovery } : Package).boot = .recovery := by decide +kernel

theorem witness_MailboxCommands : (hosted parent1).pkg.mdoor.getLsbD 0 = false ∧ (∀ x ∈ (hosted parent1).clusters, x.2.engine = []) ∧ (0 : Word).toNat % 128 = 0 ∧ min 64 (64 : Word).toNat ≤ (List.replicate 64 (0 : Byte)).length
    ∧ (({ base.pkg with owners := [(3, 0)] } : Package).owners.find? fun o => o.1 = 0 % 2 ^ 16 * 2 ^ 36 + 3) = some (3, base.pkg.device.toNat)
    ∧ (base.pkg.owners.find? fun o => o.1 = 0 % 2 ^ 16 * 2 ^ 36 + 3) = none ∧ base.pkg.log.length ≤ (0 : Word).toNat
    ∧ ({ base.pkg with log := [⟨0x15, 2, 1, 2, 5, 9, 255⟩] } : Package).log[(0 : Word).toNat]? = some ⟨0x15, 2, 1, 2, 5, 9, 255⟩
    ∧ ({ base.pkg with mdoor := 1 } : Package).mdoor.getLsbD 0 = true ∧ ({ base.pkg with answer := some (1, [7]) } : Package).answer = some (1, [7])
    ∧ ({ base.pkg with plimNew := some 700 } : Package).plimNew = some 700 := by decide +kernel

theorem witness_LinkEvents : let s := hosted parent1
    PlainMemory s ∧ (∀ x ∈ s.clusters, x.2.engine = []) ∧ (s.ctx 1).live = true ∧ (∀ x, (s.core x).park = []) ∧ s.resQueue = [] ∧ s.reqs = [] ∧ (s.ctx 1).depth = 1 ∧ 1 ≤ s.pkg.numVfs
    ∧ (aget s.pkg.vfs Vf.reset 1).ctx = some (1, (s.ctx 1).gen) :=
  ⟨by unfold PlainMemory; decide +kernel, by decide +kernel, by decide +kernel, still_park _ (by decide +kernel), by decide +kernel⟩
theorem witness_LinkEvents_retire : let k : Link := { Link.reset with recent := List.replicate 65 7 }
    64 < (k.recent.filter fun t => decide (100 < t + 2 ^ 24)).length ∧ k.ret = false ∧ k.traffic = []
    ∧ (Link.reset.recent.filter fun t => decide (100 < t + 2 ^ 24)).length ≤ 64 := by decide +kernel
theorem witness_LinkEvents_frame : let f : KorxoFrame := ⟨3, base.pkg.etherType, 1, 0, 1, 2, 0, 0, .other, 9, 1, true, true, [(5, true)]⟩
    f.port < 8 ∧ f.flits.length ≤ 128 ∧ f.headerOk = true ∧ f.dst = base.pkg.device.toNat
    ∧ ({ Link.reset with up := true } : Link).up = true
    ∧ (base.ctx f.ctx).live = true ∧ (base.ctx f.ctx).gen = f.gen
    ∧ f.dst ≠ ({ base.pkg with device := 4 } : Package).device.toNat ∧ ({ f with op := .owner 0 3 5 } : KorxoFrame).op = .owner 0 3 5 := by decide +kernel
theorem witness_LinkEvents_flits (f : KorxoFrame) : (∃ x ∈ ({ f with flits := [(5, false)] } : KorxoFrame).flits, x.2 = false)
    ∧ ∀ x ∈ ({ f with flits := [(5, true)] } : KorxoFrame).flits, x.2 = true := ⟨⟨(5, false), by simp⟩, by simp⟩
theorem witness_LinkEvents_traffic : let k : Link := { Link.reset with
      recent := List.replicate 65 7
      traffic := [(1, 90)] }
    (1, 90) ∈ k.traffic ∧ 64 < (k.recent.filter fun t => decide (100 < t + 2 ^ 24)).length ∧ k.ret = false ∧ 100 ≤ 90 + 2 ^ 16
    ∧ (∀ c, ¬((base.ctx c).live = true ∧ (base.ctx c).depth = 1)) :=
  ⟨by decide +kernel, by decide +kernel, by decide +kernel, by decide +kernel, fun c h => by
    rcases aget_cases base.ctxs Ctx.reset c with hc | ⟨x, hx, hc⟩
    · rw [State.ctx, hc] at h; exact nomatch h.1
    · rw [State.ctx, hc] at h
      exact absurd h.2 ((by decide +kernel : ∀ x ∈ base.ctxs, x.2.depth ≠ 1) x hx)⟩

theorem witness_StartUp : State.reset.pkg.boot = .off
    ∧ (let p : Package := { State.reset.pkg with
        boot := .dies
        diesUp := 1
        dieAt := 0 }
       1 = p.diesUp ∧ p.dieAt + 350000 ≤ 350000 ∧ 349999 < p.dieAt + 350000 ∧ 0 < p.diesUp ∧ aget p.rowsUp 0 0 = 0)
    ∧ (let s := { State.reset with pkg := { State.reset.pkg with boot := .program } }
       s.pkg.boot = .program ∧ (s.slot 5 0).state = .free ∧ s.live 5 = true)
    ∧ (let s := { base with pkg := { State.reset.pkg with boot := .program } }
       s.live 0 = true ∧ (s.slot 0 0).state ≠ .free) := by decide +kernel

/-- The machine before its boot program, an image whose tables are the world's, with a boot record of zeros at 0x8000, and the machine
with that image. -/
def booting : State := { base with pkg := { base.pkg with boot := .rows } }
def bootImage : BootImage := ⟨0x8000, ⟨0, []⟩, ⟨0x8000, List.replicate 64 0⟩, 1, 0, 512,
  [(base.mapInterleaved 0x1000, 0x2001), (base.mapInterleaved 0x2000, 0x3001), (base.mapInterleaved 0x3000, 0x1CF)], [(0, 0x1F)]⟩
def placed : State := (booting.placeImage bootImage).getD booting

theorem placed_of (h : (booting.placeImage bootImage).isSome = true) : booting.placeImage bootImage = some placed := by
  obtain ⟨v, hv⟩ := Option.isSome_iff_exists.mp h
  rw [placed, hv]; rfl

theorem witness_StartUp_image : bootImage.text.bytes = [] ∧ (bootImage.tables.map (·.1)).Nodup ∧ (∀ x ∈ bootImage.tables, x.1 % 8 = 0 ∧ x.1 < 2 ^ 40)
    ∧ bootImage.data.addr.toNat % 4096 + bootImage.data.bytes.length ≤ 4096 ∧ bootImage.data.bytes ≠ []
    ∧ (let u := (booting.placeTables bootImage.tables).modCtx 0 fun k => { k with
          s1root := bootImage.s1root
          s2base := bootImage.s2base
          s2len := bootImage.s2len
          s2 := bootImage.s2.foldl (fun l (i, e) => if e = 0 then l else aset l i e) [] }
       (okOf (u.translateDirect 0 bootImage.data.addr .read)).isSome = true ∧ (okOf (u.translateDirect 0 bootImage.data.addr .write)).isSome = true) := by
  decide +kernel
theorem witness_StartUp_plain : PlainMemory booting ∧ NoWatcher booting :=
  ⟨by unfold PlainMemory; decide +kernel, still_watch _ (by decide +kernel)⟩
theorem witness_StartUp_unmapped : ({ bootImage with s2len := 0 } : BootImage).text.bytes = []
    ∧ booting.placeImage { bootImage with s2len := 0 } = none := by
  refine ⟨rfl, ?_⟩
  have : (booting.placeImage { bootImage with s2len := 0 }).isNone = true := by decide +kernel
  exact Option.isNone_iff_eq_none.mp this
theorem witness_StartUp_program : booting.pkg.boot = .rows ∧ booting.placeImage bootImage = some placed ∧ NoWatcher placed
    ∧ (∀ x, (placed.core x).park = []) ∧ Holds placed 0x8000 (List.replicate 8 0) ∧ placed.pkg = booting.pkg ∧ PlainMemory placed ∧ NoReservation placed
    ∧ (List.replicate 8 (0 : Word)).length = 8 ∧ placed.me.ctx = 0
    ∧ (∀ j < 8, bootImage.record + BitVec.ofNat 64 (8 * j) = wordOf (0x8000 + 8 * j)) ∧ fieldOf ((List.replicate 8 (0 : Word)).getD 4 0) 12 36 = 0
    ∧ (placed.ctx 0).stopped = false ∧ (placed.ctx 0).depth = 0 :=
  ⟨rfl, placed_of (by decide +kernel), still_watch _ (by decide +kernel), still_park _ (by decide +kernel), holds_of _ _ _ (by decide +kernel),
   by unfold PlainMemory NoReservation; decide +kernel⟩

/-- R434: MCMD0 keeps its command code, bits [7:0]. -/
theorem test_mailbox_code : aget (after (.mailboxUnknown [(0x100, 0xAB05)]) State.reset).pkg.mcmd 0 0 = 5 := by decide +kernel
/-- R331: with ROT = 1 the lines of A are read from line 64 on, and wrap. -/
theorem test_line_order : (lineOrder (0, 0x1000000000000) 256).take 2 = [64, 65] ∧ (lineOrder (0, 0x1000000000000) 256).getLast? = some 63 := by
  decide +kernel
/-- R92: a NaN that AFFINE writes is canonical. -/
theorem test_affine_nan : (affineLanes (fun _ => true) 0 [(0, 0, 0x7FA00001)] (0, 0)).map (·.1) = [0x7FC00000] := by decide +kernel
end Sys2Proof.Tests
end

/-! ## Scalar integer instructions -/

section

open Sys2Proof Sys2Proof.Machine Sys2Proof.Spec

namespace Sys2Proof.Machine

/-! ### Registers and results at a width (R244, R275) -/

/-- The low bits of a register count the unsigned value of a source. -/
theorem toNat_setWidth_uval (W : Nat) (x : Word) : (x.setWidth W).toNat = uval W x := BitVec.toNat_setWidth W x

/-- As a signed number, they are the signed value of a source. -/
theorem toInt_setWidth_sval (W : Nat) (x : Word) : (x.setWidth W).toInt = sval W x := by
  rw [BitVec.toInt_eq_toNat_cond, toNat_setWidth_uval, sval]; norm_cast

/-- The width codes below 3 are those that format A has (R244). -/
theorem widthCode_cases : ∀ t : BitVec 2, t ≠ 3 → t = 0 ∨ t = 1 ∨ t = 2 := by decide

theorem signExtend_ofInt_eq_extend (v : Int) : (BitVec.ofInt 32 v).signExtend 64 = extend 1 v := by
  refine BitVec.eq_of_toInt_eq ?_
  rw [BitVec.toInt_signExtend_of_le (by decide), BitVec.toInt_ofInt, extend, if_neg (by decide), if_pos rfl, BitVec.toInt_ofInt]
  have hlt : v.bmod (2 ^ 32) < (2 ^ 32 + 1) / 2 := Int.bmod_lt (by decide)
  have hle : -(2 ^ 32 / 2) ≤ v.bmod (2 ^ 32) := Int.le_bmod (by decide)
  exact (Int.bmod_eq_of_le (by omega) (by omega)).symm

theorem setWidth_ofInt_eq_extend (v : Int) : (BitVec.ofInt 32 v).setWidth 64 = extend 2 v := by
  refine BitVec.eq_of_toNat_eq ?_
  rw [BitVec.toNat_setWidth, BitVec.toNat_ofInt, extend, if_pos rfl, BitVec.toNat_ofInt]
  omega

/-- An operation at a width that gives the low bits of a number gives that number, extended as t says. -/
theorem atWidth_eq_extend {t : BitVec 2} (ht : t ≠ 3) (f : {n : Nat} → BitVec n → BitVec n → BitVec n) (a b : Word) (v : Int)
    (h : f (a.setWidth (width t)) (b.setWidth (width t)) = BitVec.ofInt (width t) v) : atWidth t f a b = extend t v := by
  rcases widthCode_cases t ht with rfl | rfl | rfl
  · have h64 : f (a.setWidth 64) (b.setWidth 64) = BitVec.ofInt 64 v := h
    rwa [BitVec.setWidth_eq, BitVec.setWidth_eq] at h64
  · exact (congrArg (BitVec.signExtend 64) h).trans (signExtend_ofInt_eq_extend v)
  · exact (congrArg (BitVec.setWidth 64) h).trans (setWidth_ofInt_eq_extend v)

/-! ### The operations, as numbers (R275, R276) -/

/-- Counting by a running sum of truth values. -/
theorem foldl_toNat_eq_length_filter (p : Nat → Bool) (l : List Nat) (c : Nat) :
    l.foldl (fun c i => c + (p i).toNat) c = c + (l.filter p).length := by
  induction l generalizing c with
  | nil => rfl
  | cons i l ih => cases h : p i <;> simp [ih, h, Nat.add_assoc, Nat.add_comm 1]

section
variable {n : Nat} (x y : BitVec n)

theorem eq_zero_iff_toNat : y = 0 ↔ y.toNat = 0 := by simp [BitVec.toNat_eq]

theorem add_eq_ofInt : x + y = BitVec.ofInt n (x.toNat + y.toNat) := by simp [BitVec.ofInt_add]

theorem sub_eq_ofInt : x - y = BitVec.ofInt n (x.toNat - y.toNat) := by
  simp [Int.sub_eq_add_neg, BitVec.ofInt_add, BitVec.ofInt_neg, BitVec.sub_eq_add_neg]

theorem mul_eq_ofInt : x * y = BitVec.ofInt n (x.toNat * y.toNat) := by simp [BitVec.ofInt_mul]

theorem mulHighU_eq_ofInt : mulHighU x y = BitVec.ofInt n (x.toNat * y.toNat / 2 ^ n) := by
  rw [mulHighU, ← BitVec.ofInt_natCast]; push_cast; rfl

theorem allOnes_eq_ofInt : BitVec.allOnes n = BitVec.ofInt n (-1) := by
  rw [BitVec.ofInt_neg, ← BitVec.neg_one_eq_allOnes]; rfl

theorem divS_eq_ofInt : divS x y = BitVec.ofInt n (if y.toNat = 0 then -1 else x.toInt.tdiv y.toInt) := by
  simp only [divS, eq_zero_iff_toNat]
  split
  · exact allOnes_eq_ofInt
  · exact BitVec.eq_of_toInt_eq (by rw [BitVec.toInt_sdiv, BitVec.toInt_ofInt])

theorem divU_eq_ofInt : divU x y = BitVec.ofInt n (if y.toNat = 0 then -1 else (x.toNat : Int) / y.toNat) := by
  simp only [divU, eq_zero_iff_toNat]
  split
  · exact allOnes_eq_ofInt
  · rw [← Int.natCast_ediv, BitVec.ofInt_natCast, ← BitVec.toNat_udiv, BitVec.ofNat_toNat, BitVec.setWidth_eq]

theorem remS_eq_ofInt :
    remS x y = BitVec.ofInt n (if y.toNat = 0 then x.toInt else x.toInt - x.toInt.tdiv y.toInt * y.toInt) := by
  simp only [remS, eq_zero_iff_toNat]
  split
  · exact BitVec.ofInt_toInt.symm
  · rw [Int.mul_comm, ← Int.tmod_def, ← BitVec.toInt_srem, BitVec.ofInt_toInt]

theorem remU_eq_ofInt :
    remU x y = BitVec.ofInt n (if y.toNat = 0 then (x.toNat : Int) else x.toNat - x.toNat / y.toNat * y.toNat) := by
  simp only [remU, eq_zero_iff_toNat]
  split
  · rw [BitVec.ofInt_natCast, BitVec.ofNat_toNat, BitVec.setWidth_eq]
  · rw [Int.mul_comm, ← Int.emod_def, ← Int.natCast_emod, BitVec.ofInt_natCast, ← BitVec.toNat_umod, BitVec.ofNat_toNat,
      BitVec.setWidth_eq]

theorem shiftLeft_eq_ofInt (k : Nat) : x <<< k = BitVec.ofInt n (x.toNat * 2 ^ k) := by
  refine BitVec.eq_of_toNat_eq ?_
  rw [BitVec.toNat_shiftLeft, Nat.shiftLeft_eq, ← BitVec.toNat_ofNat, ← BitVec.ofInt_natCast]
  norm_cast

theorem ushiftRight_eq_ofInt (k : Nat) : x >>> k = BitVec.ofInt n (x.toNat / 2 ^ k) := by
  rw [← BitVec.setWidth_eq (x >>> k), ← BitVec.ofNat_toNat, BitVec.toNat_ushiftRight, Nat.shiftRight_eq_div_pow,
    ← BitVec.ofInt_natCast]
  push_cast
  rfl

theorem sshiftRight_eq_ofInt (k : Nat) : x.sshiftRight k = BitVec.ofInt n (x.toInt / 2 ^ k) := by
  rw [← BitVec.ofInt_toInt (x := x.sshiftRight _), BitVec.toInt_sshiftRight, Int.shiftRight_eq_div_pow]; norm_cast

/-- The two parts of a rotated value have no bit in common, so that they add up. -/
theorem rotateLeft_eq_ofInt {k : Nat} (hk : 0 < n → k < n) :
    x.rotateLeft k = BitVec.ofInt n (x.toNat * 2 ^ k + x.toNat / 2 ^ (n - k)) := by
  rcases Nat.eq_zero_or_pos n with rfl | hn
  · exact Subsingleton.elim _ _
  have hd : x <<< k &&& x >>> (n - k) = 0 := by
    ext i hi
    by_cases hik : i < k
    · simp [hik]
    · simp [BitVec.getLsbD_of_ge x (n - k + i) (by omega)]
  rw [BitVec.rotateLeft_def, Nat.mod_eq_of_lt (hk hn), ← BitVec.add_eq_or_of_and_eq_zero _ _ hd, shiftLeft_eq_ofInt,
    ushiftRight_eq_ofInt, ← BitVec.ofInt_add]

theorem ite_sle_eq_ofInt (z w : BitVec n) :
    (if x.sle y then z else w) = BitVec.ofInt n (if x.toInt ≤ y.toInt then z.toInt else w.toInt) := by
  simp only [BitVec.sle_eq_decide, decide_eq_true_eq]; split <;> simp

theorem ite_ule_eq_ofInt (z w : BitVec n) :
    (if x.ule y then z else w) = BitVec.ofInt n (if x.toNat ≤ y.toNat then (z.toNat : Int) else w.toNat) := by
  simp only [BitVec.ule_eq_decide, decide_eq_true_eq]; split <;> simp

theorem boolBits_decide (c : Prop) [Decidable c] : (boolBits (decide c) : BitVec n) = BitVec.ofInt n (if c then 1 else 0) := by
  by_cases h : c <;> simp [boolBits, h]

theorem boolBits_beq : (boolBits (x == y) : BitVec n) = BitVec.ofInt n (if x.toNat = y.toNat then 1 else 0) := by
  rw [← boolBits_decide]
  exact congrArg boolBits (decide_eq_decide.2 BitVec.toNat_inj.symm)

theorem boolBits_bne : (boolBits (x != y) : BitVec n) = BitVec.ofInt n (if x.toNat = y.toNat then 0 else 1) := by
  rw [← ite_not, ← boolBits_decide, decide_not]
  exact congrArg (fun b => boolBits !b) (decide_eq_decide.2 BitVec.toNat_inj.symm)

theorem clzBits_eq_ofInt : clzBits x = BitVec.ofInt n (n - (if x.toNat = 0 then 0 else x.toNat.log2 + 1 : Nat)) := by
  have hx : (if x.toNat = 0 then 0 else x.toNat.log2 + 1) ≤ n := by
    split
    · exact Nat.zero_le _
    · exact (Nat.log2_lt ‹_›).2 x.isLt
  rw [clzBits, bitLen, ← Nat.cast_sub hx, BitVec.ofInt_natCast]

theorem ctzBits_eq_ofInt : ctzBits x = BitVec.ofInt n (((List.range n).find? x.toNat.testBit).getD n : Nat) := by
  rw [BitVec.ofInt_natCast]; rfl

theorem popBits_eq_ofInt : popBits x = BitVec.ofInt n (countBits n x.toNat.testBit : Nat) := by
  rw [BitVec.ofInt_natCast, popBits, foldl_toNat_eq_length_filter, Nat.zero_add]; rfl

end

/-! ### The instructions -/

/-- A two-source instruction with a width whose operation gives the low bits of a number puts that number in flight, extended as
t says. -/
theorem alu2_atWidth {s : State} (hq : s.Quiet) {t : BitVec 2} (ht : t ≠ 3) (st : Stall) (D : Nat) (d a b : Reg)
    {f : {n : Nat} → BitVec n → BitVec n → BitVec n} {v : Int}
    (h : f ((s.reg a).val.setWidth (width t)) ((s.reg b).val.setWidth (width t)) = BitVec.ofInt (width t) v) :
    (Host.Outcome.next (s.alu2 st D d a b (atWidth t f)) : Out) = .next (s.results st 4 [(D, s.wr d (extend t v) (s.tainted [a, b]))]) := by
  rw [State.alu2_quiet hq, atWidth_eq_extend ht f _ _ v h]

/-- The same with one source. -/
theorem alu1_atWidth {s : State} (hq : s.Quiet) {t : BitVec 2} (ht : t ≠ 3) (st : Stall) (D : Nat) (d a : Reg)
    {f : {n : Nat} → BitVec n → BitVec n} {v : Int} (h : f ((s.reg a).val.setWidth (width t)) = BitVec.ofInt (width t) v) :
    (Host.Outcome.next (s.alu1 st D 4 d a fun x => atWidth t (fun y _ => f y) x 0) : Out)
      = .next (s.results st 4 [(D, s.wr d (extend t v) (s.tainted [a]))]) := by
  rw [State.alu1_quiet hq, atWidth_eq_extend ht (fun y _ => f y) _ _ v h]

end Sys2Proof.Machine

/-- Settles O12: each operation gives the low bits of the number its row names, whatever the width. -/
theorem integerResults : Obligations.IntegerResults := by
  unfold Obligations.IntegerResults
  intro s st d a b t hq ht W x y xs ys gives gives1
  have hx : ((s.reg a).val.setWidth (width t)).toNat = x := toNat_setWidth_uval _ _
  have hy : ((s.reg b).val.setWidth (width t)).toNat = y := toNat_setWidth_uval _ _
  have hxs : ((s.reg a).val.setWidth (width t)).toInt = xs := toInt_setWidth_sval _ _
  have hys : ((s.reg b).val.setWidth (width t)).toInt = ys := toInt_setWidth_sval _ _
  have hk : 0 < width t → ((s.reg b).val.setWidth (width t)).toNat % width t < width t := Nat.mod_lt _
  have two (D : Nat) {f : {n : Nat} → BitVec n → BitVec n → BitVec n} {v : Int} := alu2_atWidth hq ht st D d a b (f := f) (v := v)
  have one {f : {n : Nat} → BitVec n → BitVec n} {v : Int} := alu1_atWidth hq ht st 1 d a (f := f) (v := v)
  refine ⟨?add, ?sub, ?mul, ?mulh, ?mulhu, ?div, ?divu, ?rem, ?remu, ?shl, ?shr, ?sar, ?rotl, ?min, ?max, ?minu, ?maxu, ?seq, ?sne,
    ?slt, ?sltu, ?clz, ?ctz, ?popc⟩
  case add => exact two 1 (by rw [add_eq_ofInt, hx, hy])
  case sub => exact two 1 (by rw [sub_eq_ofInt, hx, hy])
  case mul => exact two 2 (by rw [mul_eq_ofInt, hx, hy])
  case mulh => exact two 2 (by rw [mulHigh, hxs, hys])
  case mulhu => exact two 2 (by rw [mulHighU_eq_ofInt, hx, hy])
  case div => exact two 5 (by rw [divS_eq_ofInt, hy, hxs, hys])
  case divu => exact two 5 (by rw [divU_eq_ofInt, hx, hy])
  case rem => exact two 5 (by rw [remS_eq_ofInt, hy, hxs, hys])
  case remu => exact two 5 (by rw [remU_eq_ofInt, hx, hy])
  case shl => exact two 1 (by rw [shiftLeft_eq_ofInt, shAmt, hx, hy])
  case shr => exact two 1 (by rw [ushiftRight_eq_ofInt, shAmt, hx, hy])
  case sar => exact two 1 (by rw [sshiftRight_eq_ofInt, shAmt, hxs, hy])
  case rotl => exact two 1 (by rw [shAmt, rotateLeft_eq_ofInt _ hk, hx, hy])
  case min => exact two 1 (by rw [ite_sle_eq_ofInt, hxs, hys])
  case max => exact two 1 (by rw [ite_sle_eq_ofInt, hxs, hys])
  case minu => exact two 1 (by rw [ite_ule_eq_ofInt, hx, hy])
  case maxu => exact two 1 (by rw [ite_ule_eq_ofInt, hx, hy])
  case seq => exact two 1 (by rw [boolBits_beq, hx, hy])
  case sne => exact two 1 (by rw [boolBits_bne, hx, hy])
  case slt => exact two 1 (by rw [BitVec.slt_eq_decide, boolBits_decide, hxs, hys])
  case sltu => exact two 1 (by rw [BitVec.ult_eq_decide, boolBits_decide, hx, hy])
  case clz => exact one (by rw [clzBits_eq_ofInt, hx])
  case ctz => exact one (by rw [ctzBits_eq_ofInt, hx])
  case popc => exact one (by rw [popBits_eq_ofInt, hx])
end

/-! ## Scalar bitwise instructions -/

section

open Sys2Proof Sys2Proof.Machine Sys2Proof.Spec

namespace Sys2Proof.Machine

/-! ### Fields (R278) -/

/-- The bits of a field of a word. -/
theorem testBit_fieldOf (w : Word) (lo len j : Nat) : (fieldOf w lo len).testBit j = (decide (j < len) && w.getLsbD (lo + j)) := by
  rw [fieldOf, Nat.testBit_mod_two_pow, Nat.testBit_div_two_pow, Nat.add_comm]; rfl

theorem getLsbD_wordOf (n : Nat) {j : Nat} (hj : j < 64) : (wordOf n).getLsbD j = n.testBit j := by
  rw [wordOf, BitVec.getLsbD_ofNat, decide_eq_true hj, Bool.true_and]

/-- A field moved up to a position. -/
theorem getLsbD_wordOf_shiftLeft (n p : Nat) {j : Nat} (hj : j < 64) :
    (wordOf n <<< p).getLsbD j = (decide (p ≤ j) && n.testBit (j - p)) := by
  rw [BitVec.getLsbD_shiftLeft, getLsbD_wordOf n (by omega), decide_eq_true hj, Bool.true_and, ← decide_not]
  simp only [Nat.not_lt]

theorem getLsbD_bextWord (a b : Word) {j : Nat} (hj : j < 64) :
    (bextWord a b).getLsbD j = (decide (j < min (b.toNat / 2 ^ 8 % 128) 64) && a.getLsbD (b.toNat % 64 + j)) := by
  rw [bextWord, BitVec.getLsbD_and, BitVec.getLsbD_ushiftRight, getLsbD_wordOf _ hj, Nat.testBit_two_pow_sub_one, Bool.and_comm]
  simp [fieldOf]

theorem getLsbD_binsWord (a b : Word) {j : Nat} (hj : j < 64) :
    (binsWord a b).getLsbD j
      = if b.toNat % 64 ≤ j ∧ j < b.toNat % 64 + min (b.toNat / 2 ^ 8 % 64) 32 then b.getLsbD (32 + (j - b.toNat % 64))
        else a.getLsbD j := by
  have hpos : fieldOf b 0 6 = b.toNat % 64 := by simp [fieldOf]
  have hlen : fieldOf b 8 6 = b.toNat / 2 ^ 8 % 64 := rfl
  simp only [binsWord, BitVec.getLsbD_or, BitVec.getLsbD_and, BitVec.getLsbD_not, getLsbD_wordOf_shiftLeft _ _ hj,
    Nat.testBit_two_pow_sub_one, testBit_fieldOf, hpos, hlen, decide_eq_true hj, Bool.true_and]
  generalize b.toNat % 64 = p
  generalize b.toNat / 2 ^ 8 % 64 = n
  by_cases hin : p ≤ j ∧ j < p + min n 32
  · have hw : j - p < min n 32 ∧ j - p < 32 := by omega
    rw [if_pos hin, decide_eq_true hin.1, decide_eq_true hw.1, decide_eq_true hw.2]
    simp
  · have hw : (decide (p ≤ j) && decide (j - p < min n 32)) = false := by
      rw [← Bool.decide_and, decide_eq_false_iff_not]; omega
    rw [if_neg hin, hw]
    simp

/-! ### The carry-less product (R275) -/

theorem countBits_succ (m : Nat) (p : Nat → Bool) : countBits (m + 1) p = countBits m p + (p m).toNat := by
  rw [countBits, List.range_succ, List.filter_append, List.length_append]
  cases h : p m <;> simp [h, countBits]

theorem countBits_eq_card (m : Nat) (p : Nat → Bool) : countBits m p = ((Finset.range m).filter (p · = true)).card := by
  induction m with
  | zero => rfl
  | succ m ih =>
    rw [countBits_succ, ih, Finset.range_add_one, Finset.filter_insert]
    cases h : p m <;> simp

/-- Does a pair of bits, bit k of one number and the bit of another whose index makes up a sum, consist of ones? -/
def onesPair (x y : Nat) (sum k : Nat) : Bool := x.testBit k && decide (k ≤ sum) && y.testBit (sum - k)

theorem onesPair_iff (x y sum k : Nat) : onesPair x y sum k = true ↔ x.testBit k = true ∧ k ≤ sum ∧ y.testBit (sum - k) = true := by
  simp [onesPair, and_assoc]

/-- A carry-less product has a bit where an odd number of pairs of ones have that sum of indices. -/
theorem testBit_clmulNat (x y m j : Nat) : (clmulNat x y m).testBit j = decide (countBits m (onesPair y x j) % 2 = 1) := by
  induction m with
  | zero => simp [clmulNat, countBits]
  | succ m ih =>
    have hm : (if y.testBit m then x <<< m else 0).testBit j = onesPair y x j m := by
      cases h : y.testBit m <;> simp [Nat.testBit_shiftLeft, onesPair, h]
    rw [clmulNat, Nat.testBit_xor, ih, hm, countBits_succ]
    rcases Nat.mod_two_eq_zero_or_one (countBits m (onesPair y x j)) with h | h <;>
      cases onesPair y x j m <;> simp [Nat.add_mod, h]

/-- A pair of ones of two words, counted by its other index. -/
theorem onesPair_comm (x y : Word) {sum k : Nat} (h : k < 64 ∧ onesPair x.toNat y.toNat sum k = true) :
    sum - k < 64 ∧ onesPair y.toNat x.toNat sum (sum - k) = true := by
  obtain ⟨hx, hk, hy⟩ := (onesPair_iff ..).1 h.2
  refine ⟨BitVec.lt_of_getLsbD hy, (onesPair_iff ..).2 ⟨hy, Nat.sub_le _ _, ?_⟩⟩
  rwa [Nat.sub_sub_self hk]

/-- Pairs of ones of two words may be counted by either index. -/
theorem countBits_onesPair_comm (x y : Word) (sum : Nat) :
    countBits 64 (onesPair x.toNat y.toNat sum) = countBits 64 (onesPair y.toNat x.toNat sum) := by
  rw [countBits_eq_card, countBits_eq_card]
  have mem (u v : Word) (k : Nat) : k ∈ (Finset.range 64).filter (onesPair u.toNat v.toNat sum · = true)
      ↔ k < 64 ∧ onesPair u.toNat v.toNat sum k = true := by rw [Finset.mem_filter, Finset.mem_range]
  have back (u v : Word) (k : Nat) (hk : k ∈ (Finset.range 64).filter (onesPair u.toNat v.toNat sum · = true)) : sum - (sum - k) = k :=
    Nat.sub_sub_self ((onesPair_iff ..).1 ((mem u v k).1 hk).2).2.1
  exact Finset.card_nbij' (sum - ·) (sum - ·) (fun k hk => (mem y x _).2 (onesPair_comm x y ((mem x y k).1 hk)))
    (fun k hk => (mem x y _).2 (onesPair_comm y x ((mem y x k).1 hk))) (back x y) (back y x)

/-- A bit of the carry-less product of two words. -/
theorem testBit_clmul (x y : Word) (j : Nat) :
    (clmulNat x.toNat y.toNat 64).testBit j = decide (countBits 64 (onesPair x.toNat y.toNat j) % 2 = 1) := by
  rw [testBit_clmulNat, countBits_onesPair_comm]

theorem countBits_congr {m : Nat} {p q : Nat → Bool} (h : ∀ k, k < m → p k = q k) : countBits m p = countBits m q :=
  congrArg List.length (List.filter_congr fun k hk => h k (List.mem_range.1 hk))

/-- Of indices below 64 only those whose partner is below 64 too make a pair of ones. -/
theorem onesPair_high (x y : Word) (j : Nat) {k : Nat} (hk : k < 64) :
    onesPair x.toNat y.toNat (j + 64) k = (x.getLsbD k && decide (j + 64 - k < 64) && y.getLsbD (j + 64 - k)) := by
  have hsum : k ≤ j + 64 := by omega
  have hy : (decide (j + 64 - k < 64) && y.getLsbD (j + 64 - k)) = y.getLsbD (j + 64 - k) := by
    by_cases h : j + 64 - k < 64
    · rw [decide_eq_true h, Bool.true_and]
    · rw [BitVec.getLsbD_of_ge y _ (by omega), Bool.and_false]
  rw [Bool.and_assoc, hy, onesPair, decide_eq_true hsum, Bool.and_true]
  rfl

/-- The low word of the carry-less product (R275). -/
theorem getLsbD_clmul_low (x y : Word) {j : Nat} (hj : j < 64) : (wordOf (clmulNat x.toNat y.toNat 64)).getLsbD j
    = decide (countBits 64 (fun k => x.getLsbD k && decide (k ≤ j) && y.getLsbD (j - k)) % 2 = 1) := by
  rw [getLsbD_wordOf _ hj, testBit_clmul]
  rfl

/-- The high word of the carry-less product (R275). -/
theorem getLsbD_clmul_high (x y : Word) {j : Nat} (hj : j < 64) : (wordOf (clmulNat x.toNat y.toNat 64 / 2 ^ 64)).getLsbD j
    = decide (countBits 64 (fun k => x.getLsbD k && decide (j + 64 - k < 64) && y.getLsbD (j + 64 - k)) % 2 = 1) := by
  rw [getLsbD_wordOf _ hj, Nat.testBit_div_two_pow, testBit_clmul, countBits_congr fun k hk => onesPair_high x y j hk]

end Sys2Proof.Machine

/-- Settles O13, bit by bit. -/
theorem bitwiseResults : Obligations.BitwiseResults := by
  unfold Obligations.BitwiseResults
  intro s st d a b hq x y gives pos elen ilen
  have two (D : Nat) (f : Word → Word → Word) {g : Nat → Bool} (h : ∀ j, j < 64 → (f x y).getLsbD j = g j) :
      ∃ v : Word, (Host.Outcome.next (s.alu2 st D d a b f) : Out) = .next (s.results st 4 [(D, s.wr d v (s.tainted [a, b]))])
        ∧ ∀ j, j < 64 → v.getLsbD j = g j := ⟨f x y, congrArg _ (State.alu2_quiet hq ..), h⟩
  refine ⟨?and, ?or, ?xor, ?andn, ?bext, ?bins, ?clmul, ?clmulh⟩
  case and => exact two 1 _ fun j _ => BitVec.getLsbD_and
  case or => exact two 1 _ fun j _ => BitVec.getLsbD_or
  case xor => exact two 1 _ fun j _ => BitVec.getLsbD_xor
  case andn => exact two 1 _ fun j hj => by rw [BitVec.getLsbD_and, BitVec.getLsbD_not, decide_eq_true hj, Bool.true_and]
  case bext => exact two 1 _ fun j hj => getLsbD_bextWord x y hj
  case bins => exact two 1 _ fun j hj => getLsbD_binsWord x y hj
  case clmul => exact two 2 _ fun j hj => getLsbD_clmul_low x y hj
  case clmulh => exact two 2 _ fun j hj => getLsbD_clmul_high x y hj
end

/-! ## Floating-point codes and exact values (R87) -/

section

open Sys2Proof Sys2Proof.Machine Sys2Proof.Spec

namespace Sys2Proof.Machine

/-! ### The magnitudes of a format -/

/-- The code k · 2^fb + r stands for r quanta of the k-th scale, whether its exponent field is 0 or not and also where r is the
first significand of the next scale. -/
theorem magnitude_eq {eb fb k r : Nat} (hr : r ≤ 2 ^ (fb + 1)) (hk : k = 0 ∨ 2 ^ fb ≤ r) :
    magnitude eb fb (k * 2 ^ fb + r) = (r : ℚ) * 2 ^ (k + 1) / 2 ^ (fb + 2 ^ (eb - 1) - 1) := by
  have hpos : 0 < 2 ^ fb := Nat.two_pow_pos fb
  have hnum : (if (k * 2 ^ fb + r) / 2 ^ fb = 0 then (k * 2 ^ fb + r) * 2
      else (2 ^ fb + (k * 2 ^ fb + r) % 2 ^ fb) * 2 ^ ((k * 2 ^ fb + r) / 2 ^ fb)) = r * 2 ^ (k + 1) := by
    rw [Nat.mul_comm k, Nat.mul_add_div hpos, Nat.mul_add_mod]
    rcases Nat.lt_or_ge r (2 ^ fb) with hlt | hge
    · obtain rfl : k = 0 := hk.resolve_right (Nat.not_le.2 hlt)
      simp [Nat.div_eq_of_lt hlt]
    · obtain ⟨j, rfl⟩ := Nat.exists_eq_add_of_le hge
      rw [Nat.add_div_left j hpos, Nat.add_mod_left, ← Nat.add_assoc, if_neg (Nat.succ_ne_zero _)]
      rw [pow_succ] at hr
      rcases Nat.lt_or_ge j (2 ^ fb) with hj | hj
      · rw [Nat.div_eq_of_lt hj, Nat.mod_eq_of_lt hj]
      · obtain rfl : j = 2 ^ fb := by omega
        rw [Nat.div_self hpos, Nat.mod_self]
        ring
  rw [magnitude, hnum]
  push_cast
  rfl

/-- The significand of a magnitude code, the leading one of a normal number included. -/
def sigOf (fb c : Nat) : Nat := if c / 2 ^ fb = 0 then c else c % 2 ^ fb + 2 ^ fb

/-- The number of the scale that a magnitude code counts in: 0 for the subnormal numbers and for the least normal ones. -/
def scaleOf (fb c : Nat) : Nat := c / 2 ^ fb - 1

theorem sigOf_lt (fb c : Nat) : sigOf fb c < 2 ^ (fb + 1) := by
  have hpos : 0 < 2 ^ fb := Nat.two_pow_pos fb
  have hmod := Nat.mod_lt c hpos
  rw [pow_succ, sigOf]
  split
  · have := (Nat.div_eq_zero_iff_lt hpos).1 ‹_›
    omega
  · omega

theorem sigOf_eq_zero (fb c : Nat) : sigOf fb c = 0 ↔ c = 0 := by
  have hpos : 0 < 2 ^ fb := Nat.two_pow_pos fb
  rw [sigOf]
  split
  · rfl
  · refine iff_of_false (by omega) ?_
    rintro rfl
    exact ‹¬_› (Nat.zero_div _)

theorem scaleOf_or_sigOf (fb c : Nat) : scaleOf fb c = 0 ∨ 2 ^ fb ≤ sigOf fb c := by
  rw [scaleOf, sigOf]
  split
  · exact .inl (by omega)
  · exact .inr (Nat.le_add_left ..)

theorem scaleOf_mul_add_sigOf (fb c : Nat) : scaleOf fb c * 2 ^ fb + sigOf fb c = c := by
  have hc := Nat.div_add_mod' c (2 ^ fb)
  rw [scaleOf, sigOf]
  split
  · simp [*]
  · obtain ⟨k, hk⟩ := Nat.exists_eq_succ_of_ne_zero ‹¬_›
    rw [hk, Nat.succ_mul] at hc
    rw [hk, Nat.succ_sub_one]
    omega

theorem magnitude_strictMono (eb fb : Nat) : StrictMono (magnitude eb fb) := by
  refine strictMono_nat_of_lt_succ fun c => ?_
  have hscale := scaleOf_or_sigOf fb c
  rw [← scaleOf_mul_add_sigOf fb c, Nat.add_assoc, magnitude_eq (sigOf_lt fb c).le hscale,
    magnitude_eq (r := sigOf fb c + 1) (sigOf_lt fb c) (hscale.imp_right Nat.le_succ_of_le)]
  push_cast
  gcongr
  linarith

@[simp] theorem magnitude_zero (eb fb : Nat) : magnitude eb fb 0 = 0 := by simp [magnitude]

theorem magnitude_nonneg (eb fb c : Nat) : 0 ≤ magnitude eb fb c := by
  rw [← magnitude_zero eb fb]; exact (magnitude_strictMono eb fb).monotone (Nat.zero_le c)

/-! ### Sign and magnitude of a code -/

theorem expOf_eq (eb fb c : Nat) : expOf eb fb c = c % 2 ^ (eb + fb) / 2 ^ fb := by
  rw [expOf, Nat.add_comm, pow_add, Nat.mod_mul_right_div_self]

theorem mod_fraction (eb fb c : Nat) : c % 2 ^ (eb + fb) % 2 ^ fb = c % 2 ^ fb :=
  Nat.mod_mod_of_dvd c (pow_dvd_pow 2 (Nat.le_add_left fb eb))

/-- The value of a code is that of its magnitude, with its sign. -/
theorem value_eq (eb fb c : Nat) :
    value eb fb c = (if negative eb fb c then -1 else 1) * magnitude eb fb (c % 2 ^ (eb + fb)) := by
  rw [value, magnitude, ← expOf_eq, mod_fraction, mul_div_assoc]
  congr 2
  split
  · rename_i h
    rw [expOf_eq, Nat.div_eq_zero_iff_lt (Nat.two_pow_pos fb)] at h
    rw [← mod_fraction eb, Nat.mod_eq_of_lt h]; push_cast; rfl
  · push_cast; rfl

theorem abs_value (eb fb c : Nat) : |value eb fb c| = magnitude eb fb (c % 2 ^ (eb + fb)) := by
  rw [value_eq, abs_mul, abs_of_nonneg (magnitude_nonneg ..)]
  split <;> simp

theorem value_eq_sign_mul_abs (eb fb c : Nat) : value eb fb c = (if negative eb fb c then -1 else 1) * |value eb fb c| := by
  rw [abs_value, value_eq]

theorem finite_iff (eb fb c : Nat) : finite eb fb c = true ↔ c % 2 ^ (eb + fb) < infOf eb fb := by
  have hpos : 0 < 2 ^ fb := Nat.two_pow_pos fb
  have hlt : c % 2 ^ (eb + fb) / 2 ^ fb < 2 ^ eb := by
    rw [Nat.div_lt_iff_lt_mul hpos, ← pow_add]; exact Nat.mod_lt _ (Nat.two_pow_pos _)
  rw [finite, expOf_eq, bne_iff_ne, infOf, ← Nat.div_lt_iff_lt_mul hpos]
  omega

/-- A code that is neither finite nor an infinity is a NaN. -/
theorem isNan_iff (eb fb c : Nat) : isNan eb fb c = true ↔ infOf eb fb < c % 2 ^ (eb + fb) := by
  have hmag := Nat.div_add_mod (c % 2 ^ (eb + fb)) (2 ^ fb)
  rw [mod_fraction, ← expOf_eq, Nat.mul_comm] at hmag
  rw [isNan, Bool.and_eq_true, Bool.not_eq_true', bne_iff_ne, Ne]
  by_cases hf : finite eb fb c = true
  · simp only [hf, Bool.true_eq_false, false_and, false_iff, not_lt]
    exact ((finite_iff ..).1 hf).le
  · have he : expOf eb fb c = 2 ^ eb - 1 := by simpa [finite] using hf
    rw [he, ← infOf] at hmag
    simp only [Bool.not_eq_true] at hf
    simp only [hf, true_and]
    omega

theorem not_nan_not_finite_of_isInf {eb fb c : Nat} (h : isInf eb fb c) : isNan eb fb c = false ∧ finite eb fb c = false := by
  rw [isInf] at h
  rw [← Bool.not_eq_true, ← Bool.not_eq_true, isNan_iff, finite_iff]
  omega

/-- Every code is finite, an infinity or a NaN. -/
theorem code_cases (eb fb c : Nat) : finite eb fb c = true ∨ isInf eb fb c ∨ isNan eb fb c = true := by
  rw [finite_iff, isNan_iff, isInf]; omega

/-! ### Reading codes -/

/-- A format with the exponent bias of its exponent field (R87). -/
structure Fmt.Biased (f : Fmt) : Prop where
  fb_pos : 0 < f.fb
  bias_eq : f.bias = 2 ^ (f.eb - 1) - 1

/-- A format with infinities and NaNs where IEEE formats have them (R87). -/
structure Fmt.Ieee (f : Fmt) : Prop extends f.Biased where
  maxCode_succ : f.maxCode + 1 = infOf f.eb f.fb
  infCode_eq : f.infCode = some (infOf f.eb f.fb)
  nanCode_eq : f.nanCode = nanOf f.eb f.fb

theorem Fmt.ieee_f32 : Fmt.f32.Ieee := ⟨⟨by decide, by decide⟩, by decide, by decide, by decide⟩
theorem Fmt.ieee_f16 : Fmt.f16.Ieee := ⟨⟨by decide, by decide⟩, by decide, by decide, by decide⟩
theorem Fmt.ieee_b16 : Fmt.b16.Ieee := ⟨⟨by decide, by decide⟩, by decide, by decide, by decide⟩

namespace Fmt

variable {f : Fmt}

/-- A power of two over the scale of a format's magnitudes. -/
theorem Biased.zpow_quantum (hf : f.Biased) (k : Nat) :
    (2 : ℚ) ^ (k + 1) / 2 ^ (f.fb + 2 ^ (f.eb - 1) - 1) = 2 ^ ((k : Int) + f.qmin) := by
  have hpos : 0 < 2 ^ (f.eb - 1) := Nat.two_pow_pos _
  have hq : (k : Int) + f.qmin = (k + 1 : Nat) - ((f.fb + 2 ^ (f.eb - 1) - 1 : Nat) : Int) := by
    rw [qmin, hf.bias_eq]; omega
  rw [hq, zpow_sub₀ two_ne_zero, zpow_natCast, zpow_natCast]

theorem Biased.magnitude_scale (hf : f.Biased) {k r : Nat} (hr : r ≤ 2 ^ (f.fb + 1)) (hk : k = 0 ∨ 2 ^ f.fb ≤ r) :
    magnitude f.eb f.fb (k * 2 ^ f.fb + r) = r * 2 ^ ((k : Int) + f.qmin) := by
  rw [magnitude_eq hr hk, mul_div_assoc, hf.zpow_quantum]

theorem decode_finite (hf : f.Ieee) {c : Nat} (h : finite f.eb f.fb c = true) :
    f.decode c = .fin (negative f.eb f.fb c) (sigOf f.fb (c % 2 ^ (f.eb + f.fb)))
      (scaleOf f.fb (c % 2 ^ (f.eb + f.fb)) + f.qmin) := by
  have hle : c % 2 ^ (f.eb + f.fb) ≤ f.maxCode := by
    have := (finite_iff ..).1 h; have := hf.maxCode_succ; omega
  simp only [decode, if_pos hle, sigOf, scaleOf, negative]
  split
  · simp [*]
  · rw [Int.add_comm]

/-- What a magnitude code is read as has the value of the code. -/
theorem Biased.sigOf_mul_scaleOf (hf : f.Biased) (c : Nat) :
    (sigOf f.fb c : ℚ) * 2 ^ ((scaleOf f.fb c : Int) + f.qmin) = magnitude f.eb f.fb c := by
  rw [← hf.magnitude_scale (sigOf_lt f.fb c).le (scaleOf_or_sigOf f.fb c), scaleOf_mul_add_sigOf]

/-- A finite code is read with its sign and as its exact magnitude. -/
theorem exists_decode_finite (hf : f.Ieee) {c : Nat} (h : finite f.eb f.fb c = true) :
    ∃ m e, f.decode c = .fin (negative f.eb f.fb c) m e ∧ (m : ℚ) * 2 ^ e = |value f.eb f.fb c|
      ∧ (m = 0 ↔ c % 2 ^ (f.eb + f.fb) = 0) :=
  ⟨_, _, decode_finite hf h, by rw [hf.sigOf_mul_scaleOf, abs_value], sigOf_eq_zero ..⟩

theorem decode_inf (hf : f.Ieee) {c : Nat} (h : isInf f.eb f.fb c) : f.decode c = .inf (negative f.eb f.fb c) := by
  rw [isInf] at h
  have hgt : ¬ infOf f.eb f.fb ≤ f.maxCode := by have := hf.maxCode_succ; omega
  simp only [decode, h, if_neg hgt, hf.infCode_eq, BEq.rfl, if_true]
  rfl

theorem decode_nan (hf : f.Ieee) {c : Nat} (h : isNan f.eb f.fb c = true) : f.decode c = .nan := by
  rw [isNan_iff] at h
  have hgt : ¬ c % 2 ^ (f.eb + f.fb) ≤ f.maxCode := by have := hf.maxCode_succ; omega
  have hne : (some (infOf f.eb f.fb) == some (c % 2 ^ (f.eb + f.fb))) = false := by
    rw [beq_eq_false_iff_ne, Ne, Option.some_inj]; omega
  simp only [decode, if_neg hgt, hf.infCode_eq, hne, Bool.false_eq_true, if_false]

theorem isNan_decode (hf : f.Ieee) (c : Nat) : (f.decode c).isNan = isNan f.eb f.fb c := by
  rcases code_cases f.eb f.fb c with h | h | h
  · rw [decode_finite hf h]
    simp [FV.isNan, isNan, h]
  · rw [decode_inf hf h, (not_nan_not_finite_of_isInf h).1]; rfl
  · rw [decode_nan hf h, h]; rfl

theorem sign_decode (hf : f.Ieee) {c : Nat} (h : isNan f.eb f.fb c = false) : (f.decode c).sign = negative f.eb f.fb c := by
  rcases code_cases f.eb f.fb c with hc | hc | hc
  · rw [decode_finite hf hc]; rfl
  · rw [decode_inf hf hc]; rfl
  · exact absurd hc (by simp [h])

/-! ### Writing codes -/

theorem negative_signed (s : Bool) {mag : Nat} (h : mag < 2 ^ (f.eb + f.fb)) : negative f.eb f.fb (f.signed s mag) = s := by
  rw [negative, signed, Nat.mul_comm, Nat.mul_add_div (Nat.two_pow_pos _), Nat.div_eq_of_lt h]
  cases s <;> rfl

theorem signed_mod (s : Bool) {mag : Nat} (h : mag < 2 ^ (f.eb + f.fb)) : f.signed s mag % 2 ^ (f.eb + f.fb) = mag := by
  rw [signed, Nat.mul_comm, Nat.mul_add_mod, Nat.mod_eq_of_lt h]

/-- A code is its magnitude with its sign. -/
theorem signed_negative {c : Nat} (h : c < 2 ^ (1 + f.eb + f.fb)) :
    f.signed (negative f.eb f.fb c) (c % 2 ^ (f.eb + f.fb)) = c := by
  have hs : c / 2 ^ (f.eb + f.fb) < 2 := by
    rw [Nat.div_lt_iff_lt_mul (Nat.two_pow_pos _), Nat.mul_comm, ← pow_succ, Nat.add_comm (f.eb + f.fb), ← Nat.add_assoc]
    exact h
  have hsign : (negative f.eb f.fb c).toNat = c / 2 ^ (f.eb + f.fb) := by
    rw [negative, Nat.mod_eq_of_lt hs]
    rcases Nat.lt_succ_iff.1 hs |>.lt_or_eq with h0 | h1
    · rw [Nat.lt_one_iff.1 h0]; rfl
    · rw [h1]; rfl
  rw [signed, hsign]
  exact Nat.div_add_mod' ..

end Fmt

/-! ### Reading F32 codes -/

theorem exists_decode_f32 {c : Nat} (h : finite 8 23 c = true) : ∃ m e, Fmt.f32.decode c = .fin (negative 8 23 c) m e
    ∧ (m : ℚ) * 2 ^ e = |value32 c| ∧ (m = 0 ↔ c % 2 ^ 31 = 0) := Fmt.exists_decode_finite Fmt.ieee_f32 h

theorem decode_f32_inf {c : Nat} (h : isInf 8 23 c) : Fmt.f32.decode c = .inf (negative 8 23 c) := Fmt.decode_inf Fmt.ieee_f32 h

theorem isNan_decode_f32 (c : Nat) : (Fmt.f32.decode c).isNan = isNan 8 23 c := Fmt.isNan_decode Fmt.ieee_f32 c

theorem sign_decode_f32 {c : Nat} (h : isNan 8 23 c = false) : (Fmt.f32.decode c).sign = negative 8 23 c :=
  Fmt.sign_decode Fmt.ieee_f32 h

theorem decode_f32_nan {c : Nat} (h : isNan 8 23 c = true) : Fmt.f32.decode c = .nan := Fmt.decode_nan Fmt.ieee_f32 h

end Sys2Proof.Machine
end

/-! ## Rounding (R91, R95) -/

section

open Sys2Proof Sys2Proof.Machine Sys2Proof.Spec

namespace Sys2Proof.Machine

/-! ### The scale of a number -/

theorem two_pow_bitLen_le {m : Nat} (hm : m ≠ 0) : 2 ^ (bitLen m - 1) ≤ m := by
  rw [bitLen, if_neg hm]; exact Nat.log2_self_le hm

theorem lt_two_pow_bitLen (m : Nat) : m < 2 ^ bitLen m := by
  rw [bitLen]
  split
  · simp [*]
  · exact Nat.lt_log2_self

theorem one_le_bitLen {m : Nat} (hm : m ≠ 0) : 1 ≤ bitLen m := by
  rw [bitLen, if_neg hm]; exact Nat.le_add_left ..

/-- Nothing lost, nothing added. -/
theorem roundsUp_exact (rm : Rm) (neg odd : Bool) (j : Nat) : roundsUp rm neg odd 0 j false = false := by
  have hne : (0 == 2 ^ j) = false := beq_false_of_ne (Nat.two_pow_pos j).ne
  cases rm <;> simp [roundsUp, hne]

/-- The quanta that a number counts at its scale fill a significand. -/
theorem quanta_bounds {f : Fmt} {m : Nat} {e q : Int} (hm : m ≠ 0) (hq : max (e + (bitLen m : Int) - 1 - f.fb) f.qmin = q) :
    (q ≤ e → m * 2 ^ (e - q).toNat < 2 ^ (f.fb + 1) ∧ (q = f.qmin ∨ 2 ^ f.fb ≤ m * 2 ^ (e - q).toNat))
    ∧ (e < q → m / 2 ^ (q - e).toNat < 2 ^ (f.fb + 1) ∧ (q = f.qmin ∨ 2 ^ f.fb ≤ m / 2 ^ (q - e).toNat)) := by
  have hlo := two_pow_bitLen_le hm
  have hhi := lt_two_pow_bitLen m
  have hlen := one_le_bitLen hm
  constructor
  · intro hqe
    constructor
    · calc m * 2 ^ (e - q).toNat < 2 ^ bitLen m * 2 ^ (e - q).toNat := by gcongr
        _ = 2 ^ (bitLen m + (e - q).toNat) := (pow_add ..).symm
        _ ≤ 2 ^ (f.fb + 1) := Nat.pow_le_pow_right (by decide) (by omega)
    · refine or_iff_not_imp_left.2 fun hne => ?_
      calc 2 ^ f.fb = 2 ^ (bitLen m - 1) * 2 ^ (e - q).toNat := by rw [← pow_add]; congr 1; omega
        _ ≤ m * 2 ^ (e - q).toNat := by gcongr
  · intro hqe
    constructor
    · rw [Nat.div_lt_iff_lt_mul (Nat.two_pow_pos _), ← pow_add]
      exact hhi.trans_le (Nat.pow_le_pow_right (by decide) (by omega))
    · refine or_iff_not_imp_left.2 fun hne => ?_
      rw [Nat.le_div_iff_mul_le (Nat.two_pow_pos _), ← pow_add]
      exact (Nat.pow_le_pow_right (by decide) (by omega)).trans hlo

/-- Rounding a magnitude keeps r quanta of the scale k and loses the part rem / 2^j of a quantum; then it may add a quantum. -/
theorem roundMag_scale (f : Fmt) (rm : Rm) (neg : Bool) (m : Nat) (e : Int) : ∃ k r rem j : Nat,
    roundMag f rm neg m e false = (k * 2 ^ f.fb + (if roundsUp rm neg (r % 2 == 1) rem j false then r + 1 else r), rem != 0)
    ∧ r < 2 ^ (f.fb + 1) ∧ (k = 0 ∨ 2 ^ f.fb ≤ r) ∧ rem < 2 ^ j
    ∧ (m : ℚ) * 2 ^ e = (r + rem / 2 ^ j) * 2 ^ ((k : Int) + f.qmin) := by
  by_cases hm : m = 0
  · refine ⟨0, 0, 0, 0, ?_, by simp, .inl rfl, by simp, by simp [hm]⟩
    rw [roundsUp_exact]
    simp [roundMag, hm]
  obtain ⟨q, hq⟩ : ∃ q, max (e + (bitLen m : Int) - 1 - f.fb) f.qmin = q := ⟨_, rfl⟩
  have hk : ((q - f.qmin).toNat : Int) + f.qmin = q := by omega
  have hround : roundMag f rm neg m e false = ((q - f.qmin).toNat * 2 ^ f.fb
      + (let r := if q ≤ e then m * 2 ^ (e - q).toNat else m / 2 ^ (q - e).toNat
         if roundsUp rm neg (r % 2 == 1) (if q ≤ e then 0 else m % 2 ^ (q - e).toNat) (if q ≤ e then 0 else (q - e).toNat) false
         then r + 1 else r), (if q ≤ e then 0 else m % 2 ^ (q - e).toNat) != 0) := by
    rw [roundMag, if_neg (by simp [hm]), hq]; simp
  by_cases hqe : q ≤ e
  · obtain ⟨hlt, hge⟩ := (quanta_bounds hm hq).1 hqe
    simp only [if_pos hqe] at hround
    refine ⟨(q - f.qmin).toNat, m * 2 ^ (e - q).toNat, 0, 0, hround, hlt, hge.imp_left (by omega), Nat.one_pos, ?_⟩
    rw [hk]; push_cast
    rw [zero_div, add_zero, mul_assoc, ← zpow_natCast, ← zpow_add₀ two_ne_zero]
    congr 2; omega
  · obtain ⟨hlt, hge⟩ := (quanta_bounds hm hq).2 (not_le.1 hqe)
    simp only [if_neg hqe] at hround
    refine ⟨(q - f.qmin).toNat, m / 2 ^ (q - e).toNat, m % 2 ^ (q - e).toNat, (q - e).toNat, hround, hlt, hge.imp_left (by omega),
      Nat.mod_lt _ (Nat.two_pow_pos _), ?_⟩
    have hdiv : (m : ℚ) = (m / 2 ^ (q - e).toNat : Nat) * 2 ^ (q - e).toNat + (m % 2 ^ (q - e).toNat : Nat) := by
      exact_mod_cast (Nat.div_add_mod' m (2 ^ (q - e).toNat)).symm
    have hq' : (2 : ℚ) ^ q = 2 ^ (q - e).toNat * 2 ^ e := by
      rw [← zpow_natCast, ← zpow_add₀ two_ne_zero]; congr 1; omega
    rw [hk, hq', ← mul_assoc]
    congr 1
    rw [add_mul, div_mul_cancel₀ _ (by positivity)]
    exact hdiv

/-! ### The chosen code -/

/-- Does a magnitude that is a part t of a quantum above n quanta round up, away from zero (R91, R95)? -/
def RoundsAway (rm : BitVec 2) (neg : Bool) (n : Nat) (t : ℚ) : Prop :=
  (rm = 0 ∧ (1 < 2 * t ∨ 1 = 2 * t ∧ n % 2 = 1)) ∨ (rm = 2 ∧ neg = true) ∨ (rm = 3 ∧ neg = false)

/-- The rounding modes, by their codes (R95). -/
theorem roundingMode_cases : ∀ rm : BitVec 2, rm = 0 ∨ rm = 1 ∨ rm = 2 ∨ rm = 3 := by decide

/-- Whether a magnitude rounds up, in terms of the part of a quantum that is lost. -/
theorem roundsUp_iff (rm : BitVec 2) (neg : Bool) (r rem j : Nat) (hrem : rem ≠ 0) :
    roundsUp (Rm.ofCode rm.toNat) neg (r % 2 == 1) rem j false = true ↔ RoundsAway rm neg r (rem / 2 ^ j) := by
  have hpos : (0 : ℚ) < 2 ^ j := by positivity
  have hlt : (1 : ℚ) < 2 * (rem / 2 ^ j) ↔ 2 * rem > 2 ^ j := by
    rw [← mul_div_assoc, one_lt_div hpos]; norm_cast
  have heq : (1 : ℚ) = 2 * (rem / 2 ^ j) ↔ 2 * rem = 2 ^ j := by
    rw [← mul_div_assoc, eq_div_iff hpos.ne', one_mul, eq_comm]; norm_cast
  rw [RoundsAway, hlt, heq]
  rcases roundingMode_cases rm with rfl | rfl | rfl | rfl <;> simp [Rm.ofCode, roundsUp, hrem]

/-- Between two neighbouring codes of r and r + 1 quanta, the one that the mode names is chosen, and it is not exact. -/
theorem chosen_of_between {v : Nat → ℚ} {rm : BitVec 2} {neg up : Bool} {M u t : ℚ} {lo r : Nat} (hu : 0 < u) (ht0 : 0 < t)
    (ht1 : t < 1) (hlo : v lo = r * u) (hhi : v (lo + 1) = (r + 1) * u) (hM : M = (r + t) * u) (hup : up = true ↔ RoundsAway rm neg lo t) :
    Chosen v rm neg M (if up then lo + 1 else lo) ∧ v (if up then lo + 1 else lo) ≠ M := by
  have hlt : v lo < M := by rw [hlo, hM]; gcongr; linarith
  have hgt : M < v (lo + 1) := by rw [hhi, hM]; gcongr
  have hmid : (v lo + v (lo + 1) < 2 * M ↔ 1 < 2 * t) ∧ (v lo + v (lo + 1) = 2 * M ↔ 1 = 2 * t) := by
    rw [hlo, hhi, hM, show (r : ℚ) * u + (r + 1) * u = (2 * r + 1) * u by ring,
      show 2 * ((r + t) * u) = (2 * r + 2 * t) * u by ring, mul_lt_mul_iff_left₀ hu, mul_left_inj' hu.ne', add_lt_add_iff_left,
      add_right_inj]
    exact ⟨Iff.rfl, Iff.rfl⟩
  refine ⟨.inr ⟨lo, hlt, hgt, ?_, ?_⟩, ?_⟩
  · cases up <;> simp
  · rw [hmid.1, hmid.2]
    refine Iff.trans ?_ hup
    cases up <;> simp
  · cases up
    · exact hlt.ne
    · exact hgt.ne'

/-- A rounded magnitude is a code chosen as the rounding mode says, and inexact when its value is another (R91, R95). -/
theorem roundMag_chosen {f : Fmt} (hf : f.Biased) (rm : BitVec 2) (neg : Bool) (m : Nat) (e : Int) :
    let c := roundMag f (Rm.ofCode rm.toNat) neg m e false
    Chosen (magnitude f.eb f.fb) rm neg (m * 2 ^ e) c.1 ∧ (c.2 = true ↔ magnitude f.eb f.fb c.1 ≠ m * 2 ^ e) := by
  intro c
  obtain ⟨k, r, rem, j, hc, hr, hk, hrem, hm⟩ := roundMag_scale f (Rm.ofCode rm.toNat) neg m e
  have hlo := hf.magnitude_scale hr.le hk
  have hhi := hf.magnitude_scale (r := r + 1) hr (hk.imp_right Nat.le_succ_of_le)
  simp only [c, hc]
  by_cases h0 : rem = 0
  · have hv : magnitude f.eb f.fb (k * 2 ^ f.fb + r) = m * 2 ^ e := by rw [hlo, hm, h0]; simp
    rw [h0, roundsUp_exact, if_neg Bool.false_ne_true]
    exact ⟨.inl hv, by simp [hv]⟩
  · have ht0 : (0 : ℚ) < rem / 2 ^ j := by have := Nat.pos_of_ne_zero h0; positivity
    have ht1 : (rem : ℚ) / 2 ^ j < 1 := by rw [div_lt_one (by positivity)]; exact_mod_cast hrem
    have hodd : r % 2 = (k * 2 ^ f.fb + r) % 2 := by
      obtain ⟨i, hi⟩ := Nat.exists_eq_succ_of_ne_zero hf.fb_pos.ne'
      rw [hi, pow_succ, ← Nat.mul_assoc, Nat.mul_add_mod_self_right]
    have hup := roundsUp_iff rm neg r rem j h0
    rw [RoundsAway, hodd] at hup
    obtain ⟨hch, hne⟩ := chosen_of_between (by positivity) ht0 ht1 hlo (by push_cast at hhi; exact hhi) hm hup
    rw [← hodd] at hch hne
    rw [add_ite]
    exact ⟨hch, iff_of_true (by simpa using h0) hne⟩

end Sys2Proof.Machine
end

/-! ## Conversions between formats (R94, R96) -/

section

open Sys2Proof Sys2Proof.Machine Sys2Proof.Spec

namespace Sys2Proof.Machine

theorem chosen_le {v : Nat → ℚ} (hv : StrictMono v) {rm : BitVec 2} {neg : Bool} {M : ℚ} {c a : Nat} (h : Chosen v rm neg M c)
    (ha : M ≤ v a) : c ≤ a := by
  rcases h with h | ⟨lo, hlo, -, hc, -⟩
  · exact hv.le_iff_le.1 (h.trans_le ha)
  · have : lo < a := hv.lt_iff_lt.1 (hlo.trans_le ha)
    omega

theorem le_chosen {v : Nat → ℚ} (hv : StrictMono v) {rm : BitVec 2} {neg : Bool} {M : ℚ} {c a : Nat} (h : Chosen v rm neg M c)
    (ha : v a ≤ M) : a ≤ c := by
  rcases h with h | ⟨lo, -, hhi, hc, -⟩
  · exact hv.le_iff_le.1 (ha.trans_eq h.symm)
  · have : a < lo + 1 := hv.lt_iff_lt.1 (ha.trans_lt hhi)
    omega

theorem signed_eq (f : Fmt) (s : Bool) (c : Nat) : f.signed s c = (if s then 2 ^ (f.eb + f.fb) else 0) + c := by
  cases s <;> simp [Fmt.signed]

/-- Rounding to a format is narrowing to it. -/
theorem roundFmt_narrowed {f : Fmt} (hf : f.Biased) (rm : BitVec 2) (sat neg : Bool) (m : Nat) (e : Int) :
    Narrowed f.eb f.fb f.maxCode f.infCode rm sat neg (m * 2 ^ e) (roundFmt f (Rm.ofCode rm.toNat) sat neg m e false).1
      (roundFmt f (Rm.ofCode rm.toNat) sat neg m e false).2 := by
  obtain ⟨hch, hnx⟩ := roundMag_chosen hf rm neg m e
  simp only [Narrowed, roundFmt]
  generalize roundMag f (Rm.ofCode rm.toNat) neg m e false = c at hch hnx
  refine ⟨c.1, hch, fun hle => ?_, fun hgt => ?_⟩
  · rw [if_neg hle.not_gt]
    exact ⟨signed_eq .., rfl, rfl, hnx, by simp [hnx]⟩
  · rw [if_pos hgt]
    cases f.infCode with
    | none => exact ⟨rfl, signed_eq ..⟩
    | some i =>
      refine ⟨rfl, (signed_eq ..).trans ?_⟩
      rcases roundingMode_cases rm with rfl | rfl | rfl | rfl <;> simp [Rm.ofCode]

/-! ### Exact results -/

theorem flags_eq {fl : Flags} {nv of_ uf nx : Bool} (h₁ : fl.nv = nv) (h₂ : fl.of_ = of_) (h₃ : fl.uf = uf) (h₄ : fl.nx = nx) :
    fl = ⟨nv, of_, uf, nx⟩ := by
  cases fl; simp_all

/-- A magnitude that is a code's, not beyond the largest finite one, is rounded to that code, and exactly. -/
theorem roundFmt_of_magnitude {f : Fmt} (hf : f.Biased) (rm : BitVec 2) (sat neg : Bool) {m a : Nat} {e : Int} (ha : a ≤ f.maxCode)
    (h : (m : ℚ) * 2 ^ e = magnitude f.eb f.fb a) :
    roundFmt f (Rm.ofCode rm.toNat) sat neg m e false = (f.signed neg a, .none) := by
  obtain ⟨c, hch, hle, -⟩ := roundFmt_narrowed hf rm sat neg m e
  have hv := magnitude_strictMono f.eb f.fb
  obtain rfl : c = a := (chosen_le hv hch h.le).antisymm (le_chosen hv hch h.ge)
  obtain ⟨hr, hnv, hof, hnx, huf⟩ := hle ha
  simp only [h, ne_eq, not_true, false_and, iff_false, Bool.not_eq_true] at hnx huf
  exact Prod.ext (hr.trans (signed_eq ..).symm) (flags_eq hnv hof huf hnx)

/-- Every significand of a format, at every exponent from that of its least quantum up, is a code's magnitude, if one beyond the largest
code. -/
theorem exists_magnitude {f : Fmt} (hf : f.Biased) (n : Nat) {m : Nat} (hm : m < 2 ^ (f.fb + 1)) :
    ∃ a, magnitude f.eb f.fb a = m * 2 ^ ((n : Int) + f.qmin) := by
  induction n generalizing m with
  | zero => exact ⟨_, hf.magnitude_scale (k := 0) hm.le (.inl rfl)⟩
  | succ n ih =>
    rcases Nat.lt_or_ge m (2 ^ f.fb) with hlt | hge
    · obtain ⟨a, ha⟩ := ih (m := 2 * m) (by rw [pow_succ]; omega)
      refine ⟨a, ha.trans ?_⟩
      push_cast
      rw [show ((n : Int) + 1 + f.qmin) = 1 + (n + f.qmin) by ring, zpow_add₀ two_ne_zero 1, zpow_one]
      ring
    · exact ⟨_, hf.magnitude_scale hm.le (.inr hge)⟩

/-! ### From the narrow formats to F32 (R96) -/

/-- A format whose finite numbers are all numbers of F32. -/
structure Fmt.WithinF32 (f : Fmt) : Prop extends f.Ieee where
  fb_le : f.fb ≤ 23
  qmin_le : Fmt.f32.qmin ≤ f.qmin
  infinity_le : magnitude f.eb f.fb (infOf f.eb f.fb) ≤ magnitude 8 23 (infOf 8 23)

theorem Fmt.withinF32_b16 : Fmt.b16.WithinF32 := ⟨ieee_b16, by decide, by decide, by norm_num [Fmt.b16, magnitude, infOf]⟩
theorem Fmt.withinF32_f16 : Fmt.f16.WithinF32 := ⟨ieee_f16, by decide, by decide, by norm_num [Fmt.f16, magnitude, infOf]⟩

/-- The F32 code of a finite number of such a format. -/
theorem exists_f32_magnitude {f : Fmt} (hf : f.WithinF32) {c : Nat} (hc : c < infOf f.eb f.fb) :
    ∃ a, a ≤ Fmt.f32.maxCode ∧ magnitude 8 23 a = magnitude f.eb f.fb c := by
  have hsig : sigOf f.fb c < 2 ^ (Fmt.f32.fb + 1) := (sigOf_lt f.fb c).trans_le
    (Nat.pow_le_pow_right (by decide) (Nat.succ_le_succ hf.fb_le))
  have hq := hf.qmin_le
  obtain ⟨a, ha⟩ := exists_magnitude Fmt.ieee_f32.toBiased (scaleOf f.fb c + f.qmin - Fmt.f32.qmin).toNat hsig
  rw [show (((scaleOf f.fb c + f.qmin - Fmt.f32.qmin).toNat : Int) + Fmt.f32.qmin) = scaleOf f.fb c + f.qmin by omega,
    hf.toBiased.sigOf_mul_scaleOf] at ha
  have hlt : magnitude 8 23 a < magnitude 8 23 (infOf 8 23) :=
    (ha.trans_lt (magnitude_strictMono f.eb f.fb hc)).trans_le hf.infinity_le
  exact ⟨a, Nat.lt_succ_iff.1 ((magnitude_strictMono 8 23).lt_iff_lt.1 hlt), ha⟩

theorem value_signed {f : Fmt} (s : Bool) {a : Nat} (ha : a < 2 ^ (f.eb + f.fb)) :
    value f.eb f.fb (f.signed s a) = (if s then -1 else 1) * magnitude f.eb f.fb a := by
  rw [value_eq, Fmt.negative_signed s ha, Fmt.signed_mod s ha]

theorem rn_inf {f : Fmt} (hf : f.Ieee) (s : Bool) : (FV.inf s).rn f = (f.signed s (infOf f.eb f.fb), .none) := by
  rw [FV.rn, hf.infCode_eq, Option.getD_some]

theorem signed_infinity (s : Bool) : Fmt.f32.signed s (infOf 8 23) = if s then 0xFF800000 else 0x7F800000 := by
  cases s <;> rfl

/-- A finite number of such a format, read and rounded to F32. -/
theorem rn_f32_finite {f : Fmt} (hf : f.WithinF32) {c : Nat} (h : finite f.eb f.fb c = true) :
    let r := (f.decode c).rn Fmt.f32
    finite 8 23 r.1 = true ∧ value32 r.1 = value f.eb f.fb c ∧ negative 8 23 r.1 = negative f.eb f.fb c ∧ r.2 = .none := by
  intro r
  obtain ⟨a, hle, ha⟩ := exists_f32_magnitude hf ((finite_iff ..).1 h)
  have hlt : a < 2 ^ (Fmt.f32.eb + Fmt.f32.fb) := hle.trans_lt (by decide)
  have hr : r = (Fmt.f32.signed (negative f.eb f.fb c) a, .none) := by
    simp only [r, Fmt.decode_finite hf.toIeee h]
    exact roundFmt_of_magnitude Fmt.ieee_f32.toBiased 0 false _ hle ((hf.toBiased.sigOf_mul_scaleOf _).trans ha.symm)
  rw [hr]
  refine ⟨?_, ?_, Fmt.negative_signed (f := Fmt.f32) _ hlt, rfl⟩
  · exact (finite_iff ..).2 ((Fmt.signed_mod (f := Fmt.f32) _ hlt).trans_lt (Nat.lt_succ_of_le hle))
  · rw [value_eq, ← ha]
    exact value_signed (f := Fmt.f32) _ hlt

/-- A code of such a format, read and rounded to F32, is widened: a NaN to the canonical one, an infinity to that of its sign, a finite
number to itself. -/
theorem rn_f32_widens {f : Fmt} (hf : f.WithinF32) (c : Nat) :
    let r := (f.decode c).rn Fmt.f32
    (isNan f.eb f.fb c = true → r.1 = nan32 ∧ r.2 = .none)
    ∧ (c % 2 ^ (f.eb + f.fb) = infOf f.eb f.fb → r.1 = (if negative f.eb f.fb c then 0xFF800000 else 0x7F800000) ∧ r.2 = .none)
    ∧ (finite f.eb f.fb c = true → finite 8 23 r.1 = true ∧ value32 r.1 = value f.eb f.fb c
        ∧ negative 8 23 r.1 = negative f.eb f.fb c ∧ r.2 = .none) := by
  refine ⟨fun h => ?_, fun h => ?_, rn_f32_finite hf⟩
  · rw [Fmt.decode_nan hf.toIeee h]; exact ⟨rfl, rfl⟩
  · rw [Fmt.decode_inf hf.toIeee h, rn_inf Fmt.ieee_f32]; exact ⟨signed_infinity _, rfl⟩

theorem widened_b16 (c : Nat) : Widened 1 0 c ((Fmt.b16.decode c).rn Fmt.f32).1 ((Fmt.b16.decode c).rn Fmt.f32).2 :=
  rn_f32_widens Fmt.withinF32_b16 c

theorem widened_f16 (c : Nat) : Widened 2 0 c ((Fmt.f16.decode c).rn Fmt.f32).1 ((Fmt.f16.decode c).rn Fmt.f32).2 :=
  rn_f32_widens Fmt.withinF32_f16 c

/-! ### From F32 to the narrow formats (R96) -/

/-- An F32 code converted to a format with infinities, undivided by a scale: a NaN to the canonical one, an infinity to that of its sign
or, saturating, to the largest finite code, a finite number narrowed. -/
theorem convFmt_converts {f : Fmt} (hf : f.Ieee) (h4 : (f == Fmt.f4) = false) (rm : BitVec 2) (sat : Bool) (c : Nat) :
    let r := convFmt f (Rm.ofCode rm.toNat) sat (Fmt.f32.decode c)
    let code (a : Nat) : Nat := (if negative 8 23 c then 2 ^ (f.eb + f.fb) else 0) + a
    (isNan 8 23 c = true → r.1 = nanOf f.eb f.fb ∧ r.2 = .none)
    ∧ (c % 2 ^ 31 = 0x7F800000 → if sat then r.1 = code f.maxCode ∧ r.2 = ⟨false, true, false, true⟩
        else r.1 = code (infOf f.eb f.fb) ∧ r.2 = .none)
    ∧ (finite 8 23 c = true → Narrowed f.eb f.fb f.maxCode (some (infOf f.eb f.fb)) rm sat (negative 8 23 c)
        (|value32 c| / (2 : ℚ) ^ (0 : Int)) r.1 r.2) := by
  intro r code
  refine ⟨fun h => ?_, fun h => ?_, fun h => ?_⟩
  · simp only [r, decode_f32_nan h, convFmt, h4, hf.nanCode_eq, Bool.false_eq_true, if_false, and_self]
  · simp only [r, decode_f32_inf h, convFmt, hf.infCode_eq]
    split
    · exact ⟨signed_eq .., rfl⟩
    · exact ⟨signed_eq .., rfl⟩
  · obtain ⟨m, e, hdec, hval, -⟩ := exists_decode_f32 h
    rw [zpow_zero, div_one, ← hval, ← hf.infCode_eq]
    simp only [r, hdec]
    exact roundFmt_narrowed hf.toBiased ..

theorem convertsTo_b16 (rm : BitVec 2) (sat : Bool) (c : Nat) :
    let r := convFmt Fmt.b16 (Rm.ofCode rm.toNat) sat (Fmt.f32.decode c)
    ConvertsTo 1 rm sat 0 c r.1 r.2 := convFmt_converts Fmt.ieee_b16 rfl rm sat c

theorem convertsTo_f16 (rm : BitVec 2) (sat : Bool) (c : Nat) :
    let r := convFmt Fmt.f16 (Rm.ofCode rm.toNat) sat (Fmt.f32.decode c)
    ConvertsTo 2 rm sat 0 c r.1 r.2 := convFmt_converts Fmt.ieee_f16 rfl rm sat c

/-! ### From an integer to F32 (R96) -/

theorem magnitude_two_pow_31 : magnitude 8 23 0x4F000000 = 2 ^ 31 := by norm_num [magnitude]

theorem magnitude_one : magnitude 8 23 0x3F800000 = 1 := by norm_num [magnitude]

/-- A 32-bit integer is converted without an overflow, and without an underflow since it is 0 or at least 1. -/
theorem intConverts (rm : BitVec 2) {i : Int} (hi : i.natAbs ≤ 2 ^ 31) :
    let r := roundFmt Fmt.f32 (Rm.ofCode rm.toNat) false (decide (i < 0)) i.natAbs 0 false
    IntConverts rm i r.1 r.2 := by
  intro r
  obtain ⟨c, hch, hle, -⟩ := roundFmt_narrowed Fmt.ieee_f32.toBiased rm false (decide (i < 0)) i.natAbs 0
  rw [zpow_zero, mul_one] at hch hle
  have hv := magnitude_strictMono 8 23
  have hle31 : c ≤ 0x4F000000 := chosen_le hv hch (by rw [magnitude_two_pow_31]; exact_mod_cast hi)
  obtain ⟨hr, hnv, hof, hnx, huf⟩ := hle (hle31.trans (by decide))
  refine ⟨c, hch, hr.trans (by simp only [decide_eq_true_eq]; rfl), flags_eq hnv hof ?_ ?_⟩
  · refine Bool.eq_false_iff.2 fun hu => ?_
    obtain ⟨hne, hsmall⟩ := huf.1 hu
    have hi0 : i.natAbs ≠ 0 := by
      intro h0
      rw [h0] at hch hne
      obtain rfl : c = 0 := Nat.le_zero.1 (chosen_le hv hch (by simp))
      exact hne (by simp)
    have : 0x3F800000 ≤ c := le_chosen hv hch (by rw [magnitude_one]; exact_mod_cast Nat.pos_of_ne_zero hi0)
    exact absurd (this.trans_lt hsmall) (by decide)
  · rw [Bool.eq_iff_iff, decide_eq_true_iff]; exact hnx

end Sys2Proof.Machine
end

/-! ## Rounding to integers (R95, R96) -/

section

open Sys2Proof Sys2Proof.Machine Sys2Proof.Spec

namespace Sys2Proof.Machine

theorem roundTo_intCast (rm : BitVec 2) (n : Int) : roundTo rm n = n := by
  simp [roundTo]

/-- Does a number a part t above the integer n round up to n + 1? -/
def RoundsToNext (rm : BitVec 2) (n : Int) (t : ℚ) : Prop :=
  (rm = 0 ∧ (1 < 2 * t ∨ 1 = 2 * t ∧ n % 2 = 1)) ∨ (rm = 1 ∧ n < 0) ∨ rm = 3

/-- A number between two integers rounds to one of them. -/
theorem roundTo_between {rm : BitVec 2} {n : Int} {t : ℚ} (h0 : 0 < t) (h1 : t < 1) :
    (RoundsToNext rm n t → roundTo rm (n + t) = n + 1) ∧ (¬ RoundsToNext rm n t → roundTo rm (n + t) = n) := by
  have hfloor : ⌊(n : ℚ) + t⌋ = n := by rw [Int.floor_eq_iff]; constructor <;> linarith
  have hceil : ⌈(n : ℚ) + t⌉ = n + 1 := by rw [Int.ceil_eq_iff]; push_cast; constructor <;> linarith
  have hsign : (0 : ℚ) ≤ n + t ↔ 0 ≤ n := by rw [← hfloor, Int.floor_nonneg, hfloor]
  rw [roundTo, hfloor, hceil, add_sub_cancel_left, RoundsToNext]
  rcases roundingMode_cases rm with rfl | rfl | rfl | rfl
  · rw [if_neg (by decide), if_neg (by decide), if_neg (by decide)]
    rcases lt_trichotomy t (1 / 2) with h | h | h
    · have hmid : ¬ (1 < 2 * t) ∧ ¬ (1 = 2 * t) := ⟨by linarith, by linarith⟩
      rw [if_pos h]
      simp [hmid]
    · have hmid : ¬ (1 < 2 * t) ∧ 1 = 2 * t := ⟨by linarith, by linarith⟩
      rw [if_neg h.not_lt, if_neg h.not_gt]
      rcases Int.emod_two_eq n with he | he <;> simp [hmid, he]
    · have hmid : 1 < 2 * t := by linarith
      rw [if_neg h.not_gt, if_pos h]
      simp [hmid]
  · rcases lt_or_ge n 0 with h | h
    · simp [hsign, h, h.not_ge]
    · simp [hsign, h, h.not_gt]
  · simp
  · simp

theorem roundsToNext_natCast (rm : BitVec 2) (r : Nat) (t : ℚ) : RoundsToNext rm r t ↔ RoundsAway rm false r t := by
  rw [RoundsToNext, RoundsAway]; norm_cast; simp

/-- With a minus sign, rounding away from zero leads away from the next integer. -/
theorem roundsToNext_neg (rm : BitVec 2) (r : Nat) (t : ℚ) : RoundsToNext rm (-(r + 1 : Nat)) (1 - t) ↔ ¬ RoundsAway rm true r t := by
  have hodd : (-((r + 1 : Nat) : Int)) % 2 = 1 ↔ ¬ r % 2 = 1 := by omega
  have hneg : (-((r + 1 : Nat) : Int)) < 0 := by omega
  rw [RoundsToNext, RoundsAway, hodd]
  rcases roundingMode_cases rm with rfl | rfl | rfl | rfl
  · rcases lt_trichotomy (1 : ℚ) (2 * t) with h | h | h
    · have hmid : ¬ (1 < 2 * (1 - t)) ∧ ¬ (1 = 2 * (1 - t)) := ⟨by linarith, by linarith⟩
      simp [h, hmid]
    · obtain rfl : t = 1 / 2 := by linarith
      norm_num
      simp
    · have hmid : 1 < 2 * (1 - t) := by linarith
      simp [h.not_gt, h.ne', hmid]
  · simpa using hneg
  · simp
  · simp

/-- A number of a sign and a magnitude between two integers rounds as the mode says for its sign. -/
theorem roundTo_signed {rm : BitVec 2} {s up : Bool} {r : Nat} {t : ℚ} (h0 : 0 < t) (h1 : t < 1) (hup : up = true ↔ RoundsAway rm s r t) :
    roundTo rm ((if s then -1 else 1) * (r + t))
      = if s then -((if up then r + 1 else r : Nat) : Int) else (if up then r + 1 else r : Nat) := by
  cases s
  · have hround := roundTo_between (rm := rm) (n := r) h0 h1
    rw [roundsToNext_natCast, ← hup] at hround
    push_cast at hround
    cases up
    · simpa using hround.2
    · simpa using hround.1
  · have hround := roundTo_between (rm := rm) (n := -(r + 1 : Nat)) (t := 1 - t) (by linarith) (by linarith)
    rw [roundsToNext_neg, ← hup, show ((-(r + 1 : Nat) : Int) : ℚ) + (1 - t) = -1 * (r + t) by push_cast; ring] at hround
    cases up
    · simpa using hround.1
    · simpa using hround.2

/-- No integer is a part above another. -/
theorem intCast_ne_add {k n : Int} {t : ℚ} (h0 : 0 < t) (h1 : t < 1) : (k : ℚ) ≠ n + t := by
  intro h
  have hlo : (n : ℚ) < k := by linarith
  have hhi : (k : ℚ) < (n + 1 : Int) := by push_cast; linarith
  rw [Int.cast_lt] at hlo hhi
  omega

/-- The integer part of a magnitude and what is left, as the model divides them. -/
theorem magnitude_split (m : Nat) (e : Int) : (m : ℚ) * 2 ^ e
    = (m * 2 ^ e.toNat / 2 ^ (-e).toNat : Nat) + (m * 2 ^ e.toNat % 2 ^ (-e).toNat : Nat) / 2 ^ (-e).toNat := by
  have hdiv : (m : ℚ) * 2 ^ e.toNat
      = (m * 2 ^ e.toNat / 2 ^ (-e).toNat : Nat) * 2 ^ (-e).toNat + (m * 2 ^ e.toNat % 2 ^ (-e).toNat : Nat) := by
    exact_mod_cast (Nat.div_add_mod' (m * 2 ^ e.toNat) (2 ^ (-e).toNat)).symm
  have he : (2 : ℚ) ^ e = 2 ^ e.toNat / 2 ^ (-e).toNat := by
    rw [← zpow_natCast, ← zpow_natCast, ← zpow_sub₀ two_ne_zero]; congr 1; omega
  rw [he, ← mul_div_assoc, hdiv, add_div, mul_div_cancel_right₀ _ (by positivity)]

/-- A number rounded to an integer, and whether that loses something (R95). -/
theorem roundInt_eq (rm : BitVec 2) (s : Bool) (m : Nat) (e : Int) :
    let q : ℚ := (if s then -1 else 1) * (m * 2 ^ e)
    roundInt (Rm.ofCode rm.toNat) s m e = (roundTo rm q, decide ((roundTo rm q : ℚ) ≠ q)) := by
  intro q
  have hrem := Nat.mod_lt (m * 2 ^ e.toNat) (Nat.two_pow_pos (-e).toNat)
  simp only [roundInt, q, magnitude_split m e]
  generalize m * 2 ^ e.toNat / 2 ^ (-e).toNat = r
  generalize m * 2 ^ e.toNat % 2 ^ (-e).toNat = rem at *
  generalize (-e).toNat = j at *
  by_cases h0 : rem = 0
  · have hq : (if s then -1 else 1) * ((r : ℚ) + rem / 2 ^ j) = ((if s then -(r : Int) else r : Int) : ℚ) := by
      cases s <;> simp [h0]
    rw [hq, roundTo_intCast, h0, roundsUp_exact]
    simp
  · have ht0 : (0 : ℚ) < rem / 2 ^ j := by have := Nat.pos_of_ne_zero h0; positivity
    have ht1 : (rem : ℚ) / 2 ^ j < 1 := by rw [div_lt_one (by positivity)]; exact_mod_cast hrem
    have hround := roundTo_signed ht0 ht1 (roundsUp_iff rm s r rem j h0)
    have hne (k : Int) : (k : ℚ) ≠ (if s then -1 else 1) * (r + rem / 2 ^ j) := by
      cases s
      · simpa using intCast_ne_add (n := r) ht0 ht1
      · have := intCast_ne_add (k := k) (n := -(r + 1 : Nat)) (t := 1 - rem / 2 ^ j) (by linarith) (by linarith)
        rwa [show ((-(r + 1 : Nat) : Int) : ℚ) + (1 - rem / 2 ^ j) = -1 * (r + rem / 2 ^ j) by push_cast; ring] at this
    refine Prod.ext hround.symm ?_
    rw [decide_eq_true (hne _)]
    simpa using h0

/-! ### FCVT to an integer -/

/-- A finite F32 code converted to an integer of W bits saturates with FNV, and else rounds (R96). -/
theorem convInt_finite (W : Nat) (rm : BitVec 2) {x : Nat} (h : finite 8 23 x = true) :
    let n := roundTo rm (value32 x)
    convInt W (Rm.ofCode rm.toNat) (Fmt.f32.decode x)
      = (max (-2 ^ (W - 1)) (min (2 ^ (W - 1) - 1) n),
         if n < -2 ^ (W - 1) ∨ 2 ^ (W - 1) - 1 < n then .invalid else ⟨false, false, false, decide ((n : ℚ) ≠ value32 x)⟩) := by
  intro n
  obtain ⟨m, e, hdec, hval, -⟩ := exists_decode_f32 h
  have hint : roundInt (Rm.ofCode rm.toNat) (negative 8 23 x) m e = (n, decide ((n : ℚ) ≠ value32 x)) := by
    have hx : value32 x = (if negative 8 23 x then -1 else 1) * (m * 2 ^ e) := by
      rw [hval]; exact value_eq_sign_mul_abs 8 23 x
    simp only [n, hx]
    exact roundInt_eq rm _ m e
  have hpos : (0 : Int) < 2 ^ (W - 1) := by positivity
  simp only [convInt, hdec, hint]
  rcases lt_or_ge (2 ^ (W - 1) - 1) n with hhi | hhi
  · rw [if_pos hhi, if_pos (.inr hhi), min_eq_left hhi.le, max_eq_right (by linarith)]
  rcases lt_or_ge n (-2 ^ (W - 1)) with hlo | hlo
  · rw [if_neg hhi.not_gt, if_pos hlo, if_pos (.inl hlo), min_eq_right hhi, max_eq_left hlo.le]
  · rw [if_neg hhi.not_gt, if_neg hlo.not_gt, if_neg (not_or.2 ⟨hlo.not_gt, hhi.not_gt⟩), min_eq_right hhi, max_eq_right hlo]

end Sys2Proof.Machine
end

/-! ## Scalar floating point: special values and tests (R92, R93, R280, R281) -/

section

open Sys2Proof Sys2Proof.Machine Sys2Proof.Spec

namespace Sys2Proof.Machine

/-! ### Issuing -/

theorem f32Code_eq (w : Word) : f32Code w = code32 w := by rw [f32Code, fieldOf, pow_zero, Nat.div_one, code32]

theorem code32_lt (w : Word) : code32 w < 2 ^ 32 := Nat.mod_lt _ (by decide)

namespace State

theorem fop_quiet {s : State} (h : s.Quiet) (st : Stall) (d : Reg) (rs : List Reg) (r : Nat × Flags) :
    s.fop st d rs r = s.issued st 4 r.2 [(2, s.wr d (wordOf r.1) (s.tainted rs))] := by
  rw [fop, readCheck_quiet h, finishF_quiet h]; rfl

/-- An operation on the F32 codes of two registers puts its result in flight and accumulates its flags. -/
theorem fop2_quiet {s : State} (h : s.Quiet) (st : Stall) (d a b : Reg) (f : Nat → Nat → Nat × Flags) {c : Nat} {fl : Flags}
    (hr : f (code32 (s.reg a).val) (code32 (s.reg b).val) = (c, fl)) :
    s.fop2 st d a b f = s.issued st 4 fl [(2, s.wr d (BitVec.ofNat 64 c) (s.tainted [a, b]))] := by
  rw [fop2, fop_quiet h, f32Code_eq, f32Code_eq, hr]; rfl

end State

theorem execFma_quiet {s : State} (h : s.Quiet) (st : Stall) (d a b : Reg) {c : Nat} {fl : Flags}
    (hr : codesFma Fmt.f32 (code32 (s.reg a).val) (code32 (s.reg b).val) (code32 (s.reg d).val) = (c, fl)) :
    execFma st d a b s = .next (s.issued st 4 fl [(2, s.wr d (BitVec.ofNat 64 c) (s.tainted [d, a, b]))]) := by
  rw [execFma, State.fop_quiet h, f32Code_eq, f32Code_eq, f32Code_eq, hr]; rfl

/-! ### Exact operations on special values -/

section
variable (s t : Bool) (v : FV) (m n : Nat) (e g : Int)

theorem sum_nan_left : FV.sum [.nan, v] = (.nan, false) := by simp [FV.sum, FV.isNan]
theorem sum_nan_right : FV.sum [v, .nan] = (.nan, false) := by simp [FV.sum, FV.isNan]
theorem sum_inf_inf : FV.sum [.inf s, .inf t] = if s = t then (.inf s, false) else (.nan, true) := by cases s <;> cases t <;> rfl
theorem sum_inf_fin : FV.sum [.inf s, .fin t m e] = (.inf s, false) := by cases s <;> simp [FV.sum, FV.isNan]
theorem sum_fin_inf : FV.sum [.fin s m e, .inf t] = (.inf t, false) := by cases t <;> simp [FV.sum, FV.isNan]

theorem mul_nan {v w : FV} (h : v = .nan ∨ w = .nan) : v.mul w = (.nan, false) := by
  rcases h with rfl | rfl
  · rfl
  · cases v <;> rfl
theorem mul_inf_fin : FV.mul (.inf s) (.fin t m e) = if m = 0 then (.nan, true) else (.inf (s != t), false) := rfl
theorem mul_fin_inf : FV.mul (.fin s m e) (.inf t) = if m = 0 then (.nan, true) else (.inf (s != t), false) := rfl
theorem mul_fin_fin : FV.mul (.fin s m e) (.fin t n g) = (.fin (s != t) (m * n) (e + g), false) := rfl
theorem mul_inf_inf : FV.mul (.inf s) (.inf t) = (.inf (s != t), false) := rfl

end

theorem rnv_nan : FV.rnv Fmt.f32 (.nan, false) = (nan32, .none) := rfl
theorem rnv_nan_invalid : FV.rnv Fmt.f32 (.nan, true) = (nan32, .invalid) := rfl
theorem rnv_inf (s : Bool) : FV.rnv Fmt.f32 (.inf s, false) = (Fmt.f32.signed s 0x7F800000, .none) := rfl

theorem fFma_of_mul {f : Fmt} {a b c p : FV} (h : a.mul b = (p, false)) : fFma f a b c = fAdd f p c := by
  simp only [fFma, h, fAdd, Bool.false_or]

/-- A product of zero and an infinity is invalid, whatever is added. -/
theorem fFma_invalid {a b c : FV} (h : a.mul b = (.nan, true)) : fFma Fmt.f32 a b c = (nan32, .invalid) := by
  simp only [fFma, h, sum_nan_left]; rfl

theorem fMul_invalid {a b : FV} (h : a.mul b = (.nan, true)) : fMul Fmt.f32 a b = (nan32, .invalid) := by
  rw [fMul, h, rnv_nan_invalid]

/-! ### Sums with special values -/

theorem fAdd_nan {a b : FV} (h : a = .nan ∨ b = .nan) : fAdd Fmt.f32 a b = (nan32, .none) := by
  rcases h with rfl | rfl
  · rw [fAdd, sum_nan_left, rnv_nan]
  · rw [fAdd, sum_nan_right, rnv_nan]

theorem fAdd_inf_fin (s t : Bool) (m : Nat) (e : Int) : fAdd Fmt.f32 (.inf s) (.fin t m e) = (Fmt.f32.signed s 0x7F800000, .none) := by
  rw [fAdd, sum_inf_fin, rnv_inf]

theorem fAdd_fin_inf (s t : Bool) (m : Nat) (e : Int) : fAdd Fmt.f32 (.fin s m e) (.inf t) = (Fmt.f32.signed t 0x7F800000, .none) := by
  rw [fAdd, sum_fin_inf, rnv_inf]

theorem fAdd_inf_self (s : Bool) : fAdd Fmt.f32 (.inf s) (.inf s) = (Fmt.f32.signed s 0x7F800000, .none) := by
  rw [fAdd, sum_inf_inf, if_pos rfl, rnv_inf]

theorem fAdd_inf_opposite (s : Bool) : fAdd Fmt.f32 (.inf s) (.inf !s) = (nan32, .invalid) := by
  rw [fAdd, sum_inf_inf, if_neg (by cases s <;> decide), rnv_nan_invalid]

/-! ### Codes of infinities -/

/-- An infinity of F32 is its sign and the infinity's magnitude. -/
theorem signed_of_inf {x : Nat} (hx : x < 2 ^ 32) (h : isInf 8 23 x) : Fmt.f32.signed (negative 8 23 x) 0x7F800000 = x := by
  have hmod : x % 2 ^ 31 = 0x7F800000 := h
  have hsign : Fmt.f32.signed (negative 8 23 x) (x % 2 ^ 31) = x := Fmt.signed_negative (f := Fmt.f32) hx
  rwa [hmod] at hsign

theorem decode_signed_infinity (s : Bool) : Fmt.f32.decode (Fmt.f32.signed s 0x7F800000) = .inf s := by
  have hlt : 0x7F800000 < 2 ^ (Fmt.f32.eb + Fmt.f32.fb) := by decide
  rw [decode_f32_inf (Fmt.signed_mod s hlt)]
  exact congrArg FV.inf (Fmt.negative_signed s hlt)

/-- Inverting the sign of a code leaves its magnitude. -/
theorem minus_mod (x : Nat) : (x + 2 ^ 31) % 2 ^ 32 % 2 ^ 31 = x % 2 ^ 31 := by omega

theorem negative_minus (x : Nat) : negative 8 23 ((x + 2 ^ 31) % 2 ^ 32) = !negative 8 23 x := by
  rw [Bool.eq_iff_iff, Bool.not_eq_true', ← Bool.not_eq_true]
  simp only [negative, Nat.reduceAdd, beq_iff_eq]
  omega

/-- The code with its sign inverted is an infinity of the other sign. -/
theorem decode_minus_inf {x : Nat} (h : isInf 8 23 x) :
    Fmt.f32.decode ((x + 2 ^ 31) % 2 ^ 32) = .inf !negative 8 23 x := by
  rw [decode_f32_inf ((minus_mod x).trans h), negative_minus]

theorem signed_minus_inf {x : Nat} (h : isInf 8 23 x) :
    Fmt.f32.signed (!negative 8 23 x) 0x7F800000 = (x + 2 ^ 31) % 2 ^ 32 := by
  rw [← negative_minus]
  exact signed_of_inf (Nat.mod_lt _ (by decide)) ((minus_mod x).trans h)

/-! ### Products with special values -/

theorem finite_of_zero {x : Nat} (h : x % 2 ^ 31 = 0) : finite 8 23 x = true := (finite_iff ..).2 (h.trans_lt (by decide))

theorem mul_inf_zero {x y : Nat} (hx : isInf 8 23 x) (hy : y % 2 ^ 31 = 0) :
    (Fmt.f32.decode x).mul (Fmt.f32.decode y) = (.nan, true) := by
  obtain ⟨m, e, hdec, -, hm⟩ := exists_decode_f32 (finite_of_zero hy)
  rw [decode_f32_inf hx, hdec, mul_inf_fin, if_pos (hm.2 hy)]

theorem mul_zero_inf {x y : Nat} (hx : x % 2 ^ 31 = 0) (hy : isInf 8 23 y) :
    (Fmt.f32.decode x).mul (Fmt.f32.decode y) = (.nan, true) := by
  obtain ⟨m, e, hdec, -, hm⟩ := exists_decode_f32 (finite_of_zero hx)
  rw [decode_f32_inf hy, hdec, mul_fin_inf, if_pos (hm.2 hx)]

/-- An infinity times a number that is not zero. -/
theorem mul_timesInf {x y : Nat} (h : isInf 8 23 x ∧ (isInf 8 23 y ∨ finite 8 23 y = true ∧ y % 2 ^ 31 ≠ 0)
      ∨ isInf 8 23 y ∧ finite 8 23 x = true ∧ x % 2 ^ 31 ≠ 0) :
    (Fmt.f32.decode x).mul (Fmt.f32.decode y) = (.inf (negative 8 23 x != negative 8 23 y), false) := by
  rcases h with ⟨hx, hy | ⟨hy, h0⟩⟩ | ⟨hy, hx, h0⟩
  · rw [decode_f32_inf hx, decode_f32_inf hy, mul_inf_inf]
  · obtain ⟨m, e, hdec, -, hm⟩ := exists_decode_f32 hy
    rw [decode_f32_inf hx, hdec, mul_inf_fin, if_neg (mt hm.1 h0)]
  · obtain ⟨m, e, hdec, -, hm⟩ := exists_decode_f32 hx
    rw [decode_f32_inf hy, hdec, mul_fin_inf, if_neg (mt hm.1 h0)]

/-- The infinity of the signs of a product. -/
theorem signed_xor (s t : Bool) : Fmt.f32.signed (s != t) 0x7F800000 = 0x7F800000 + if s = t then 0 else 2 ^ 31 := by
  cases s <;> cases t <;> rfl

theorem signed_not (s : Bool) : Fmt.f32.signed (!s) 0x7F800000 = (Fmt.f32.signed s 0x7F800000 + 2 ^ 31) % 2 ^ 32 := by
  cases s <;> rfl

/-! ### The statement -/

theorem floatSpecialResults : FloatSpecialResults := by
  intro s st d a b hq x y z inf minus signed gives
  have hx : x < 2 ^ 32 := code32_lt _
  have hy : y < 2 ^ 32 := code32_lt _
  have hz : z < 2 ^ 32 := code32_lt _
  have add {c : Nat} {fl : Flags} (h : fAdd Fmt.f32 (Fmt.f32.decode x) (Fmt.f32.decode y) = (c, fl)) :
      gives (.fadd st d a b) (s.tainted [a, b]) c fl :=
    congrArg Host.Outcome.next (State.fop2_quiet hq st d a b (codes2 Fmt.f32 fAdd) h)
  have sub {c : Nat} {fl : Flags} (h : fAdd Fmt.f32 (Fmt.f32.decode x) (Fmt.f32.decode y).neg = (c, fl)) :
      gives (.fsub st d a b) (s.tainted [a, b]) c fl :=
    congrArg Host.Outcome.next (State.fop2_quiet hq st d a b (codes2 Fmt.f32 fSub) h)
  have mul {c : Nat} {fl : Flags} (h : fMul Fmt.f32 (Fmt.f32.decode x) (Fmt.f32.decode y) = (c, fl)) :
      gives (.fmul st d a b) (s.tainted [a, b]) c fl :=
    congrArg Host.Outcome.next (State.fop2_quiet hq st d a b (codes2 Fmt.f32 fMul) h)
  have fma {c : Nat} {fl : Flags} (h : fFma Fmt.f32 (Fmt.f32.decode x) (Fmt.f32.decode y) (Fmt.f32.decode z) = (c, fl)) :
      gives (.fma st d a b) (s.tainted [d, a, b]) c fl := execFma_quiet hq st d a b h
  refine ⟨?nan, ?addOpposite, ?subSame, ?infTimesZero, ?zeroTimesInf, ?infFinite, ?finiteInf, ?addSelf, ?subOpposite, ?timesInf, ?addend⟩
  case nan =>
    intro h
    have hdec : Fmt.f32.decode x = .nan ∨ Fmt.f32.decode y = .nan := h.imp decode_f32_nan decode_f32_nan
    have hneg : Fmt.f32.decode x = .nan ∨ (Fmt.f32.decode y).neg = .nan := hdec.imp_right fun h => by rw [h]; rfl
    refine ⟨add (fAdd_nan hdec), sub (fAdd_nan hneg), mul ?_, fma ?_⟩
    · rw [fMul, mul_nan hdec, rnv_nan]
    · rw [fFma_of_mul (mul_nan hdec), fAdd_nan (.inl rfl)]
  case addOpposite =>
    intro hi ho
    exact add (by rw [ho, decode_minus_inf hi, decode_f32_inf hi, fAdd_inf_opposite])
  case subSame =>
    intro hi he
    exact sub (by rw [he, decode_f32_inf hi]; exact fAdd_inf_opposite _)
  case infTimesZero =>
    intro hi h0
    exact ⟨mul (fMul_invalid (mul_inf_zero hi h0)), fma (fFma_invalid (mul_inf_zero hi h0))⟩
  case zeroTimesInf =>
    intro h0 hi
    exact ⟨mul (fMul_invalid (mul_zero_inf h0 hi)), fma (fFma_invalid (mul_zero_inf h0 hi))⟩
  case infFinite =>
    intro hi hf
    obtain ⟨m, e, hdec, -⟩ := exists_decode_f32 hf
    exact ⟨add (by rw [hdec, decode_f32_inf hi, fAdd_inf_fin, signed_of_inf hx hi]),
      sub (by rw [hdec, decode_f32_inf hi, FV.neg, fAdd_inf_fin, signed_of_inf hx hi])⟩
  case finiteInf =>
    intro hf hi
    obtain ⟨m, e, hdec, -⟩ := exists_decode_f32 hf
    exact ⟨add (by rw [hdec, decode_f32_inf hi, fAdd_fin_inf, signed_of_inf hy hi]),
      sub (by rw [hdec, decode_f32_inf hi, FV.neg, fAdd_fin_inf, signed_minus_inf hi])⟩
  case addSelf =>
    intro hi
    refine congrArg Host.Outcome.next (State.fop2_quiet hq st d a a (codes2 Fmt.f32 fAdd) ?_)
    show fAdd Fmt.f32 (Fmt.f32.decode x) (Fmt.f32.decode x) = _
    rw [decode_f32_inf hi, fAdd_inf_self, signed_of_inf hx hi]
  case subOpposite =>
    intro hi ho
    exact sub (by rw [ho, decode_minus_inf hi, decode_f32_inf hi, FV.neg, Bool.not_not, fAdd_inf_self, signed_of_inf hx hi])
  case timesInf =>
    intro h
    have hmul := mul_timesInf h
    have hsigned : Fmt.f32.signed (negative 8 23 x != negative 8 23 y) 0x7F800000 = signed := signed_xor _ _
    generalize (negative 8 23 x != negative 8 23 y) = t at hmul hsigned
    refine ⟨mul ?_, fun hn => fma ?_, fun hz => fma ?_, fun ho => fma ?_⟩
    · rw [fMul, hmul, rnv_inf, hsigned]
    · rw [fFma_of_mul hmul, fAdd_nan (.inr (decode_f32_nan hn))]
    · rw [fFma_of_mul hmul]
      rcases hz with hf | hs
      · obtain ⟨m, e, hdec, -⟩ := exists_decode_f32 hf
        rw [hdec, fAdd_inf_fin, hsigned]
      · rw [hs, ← hsigned, decode_signed_infinity, fAdd_inf_self]
    · have hminus : Fmt.f32.signed (!t) 0x7F800000 = z := by rw [signed_not, hsigned]; exact ho.symm
      rw [fFma_of_mul hmul, ← hminus, decode_signed_infinity, fAdd_inf_opposite]
  case addend =>
    intro hfx hfy
    obtain ⟨m, e, hdx, -⟩ := exists_decode_f32 hfx
    obtain ⟨n, g, hdy, -⟩ := exists_decode_f32 hfy
    refine ⟨fun hn => fma ?_, fun hi => fma ?_⟩
    · rw [hdx, hdy, fFma_of_mul (mul_fin_fin ..), fAdd_nan (.inr (decode_f32_nan hn))]
    · rw [hdx, hdy, fFma_of_mul (mul_fin_fin ..), decode_f32_inf hi, fAdd_fin_inf, signed_of_inf hz hi]

end Sys2Proof.Machine
end

/-! ## Scalar floating point: order, minima, tests and classes (R280, R281) -/

section

open Sys2Proof Sys2Proof.Machine Sys2Proof.Spec

namespace Sys2Proof.Machine

/-! ### The order of codes -/

/-- The order of codes is that of their values. -/
theorem order_lt_iff (eb fb x y : Nat) : order eb fb x < order eb fb y ↔ value eb fb x < value eb fb y := by
  rw [order, order, value_eq, value_eq]
  generalize x % 2 ^ (eb + fb) = p
  generalize y % 2 ^ (eb + fb) = q
  have hmono {a b : Nat} : magnitude eb fb a < magnitude eb fb b ↔ a < b := (magnitude_strictMono eb fb).lt_iff_lt
  have hp := magnitude_nonneg eb fb p
  have hq := magnitude_nonneg eb fb q
  cases negative eb fb x <;> cases negative eb fb y <;> simp only [Bool.false_eq_true, if_false, if_true, one_mul, neg_one_mul]
  · rw [hmono]; norm_cast
  · exact iff_of_false (by omega) (by linarith)
  · have hpos : -magnitude eb fb p < magnitude eb fb q ↔ 0 < p ∨ 0 < q := by
      rw [← hmono (a := 0), ← hmono (a := 0), magnitude_zero]
      constructor
      · intro h; by_contra! hn; linarith
      · rintro (h | h) <;> linarith
    rw [hpos]
    omega
  · rw [neg_lt_neg_iff, neg_lt_neg_iff, hmono]; norm_cast

theorem sign_eq_sign {a b : Int} (hneg : a < 0 ↔ b < 0) (hpos : 0 < a ↔ 0 < b) : a.sign = b.sign := by
  rcases lt_trichotomy a 0 with h | rfl | h
  · rw [Int.sign_eq_neg_one_of_neg h, Int.sign_eq_neg_one_of_neg (hneg.1 h)]
  · rw [show b = 0 by omega]
  · rw [Int.sign_eq_one_of_pos h, Int.sign_eq_one_of_pos (hpos.1 h)]

/-- A signed mantissa at an exponent no greater than its own. -/
theorem at_eq (s : Bool) {m : Nat} {e e₀ : Int} (h : m = 0 ∨ e₀ ≤ e) :
    (((FV.fin s m e).at e₀ : Int) : ℚ) * 2 ^ e₀ = (if s then -1 else 1) * (m * 2 ^ e) := by
  have hscale : ((m * 2 ^ (e - e₀).toNat : Nat) : ℚ) * 2 ^ e₀ = m * 2 ^ e := by
    rcases h with rfl | h
    · simp
    · push_cast
      rw [mul_assoc, ← zpow_natCast, ← zpow_add₀ two_ne_zero]
      congr 2; omega
  rw [FV.at, ← hscale]
  cases s <;> push_cast <;> simp

theorem minExp_le (s t : Bool) (m n : Nat) (e g : Int) :
    (m = 0 ∨ minExp [.fin s m e, .fin t n g] ≤ e) ∧ (n = 0 ∨ minExp [.fin s m e, .fin t n g] ≤ g) := by
  simp only [minExp, List.foldl_cons, List.foldl_nil]
  by_cases hm : m = 0 <;> by_cases hn : n = 0 <;> simp [hm, hn]

/-- Finite values compare as the numbers they are. -/
theorem cmp_fin {s t : Bool} {m n : Nat} {e g : Int} {a b : Int}
    (hlt : (if s then -1 else 1) * ((m : ℚ) * 2 ^ e) < (if t then -1 else 1) * ((n : ℚ) * 2 ^ g) ↔ a < b)
    (hgt : (if t then -1 else 1) * ((n : ℚ) * 2 ^ g) < (if s then -1 else 1) * ((m : ℚ) * 2 ^ e) ↔ b < a) :
    (FV.fin s m e).cmp (.fin t n g) = (a - b).sign := by
  obtain ⟨hm, hn⟩ := minExp_le s t m n e g
  rw [← at_eq s hm, ← at_eq t hn] at hlt hgt
  rw [mul_lt_mul_iff_left₀ (by positivity), Int.cast_lt] at hlt hgt
  exact sign_eq_sign (by omega) (by omega)

theorem order_of_isInf {eb fb c : Nat} (h : isInf eb fb c) :
    order eb fb c = if negative eb fb c then -(infOf eb fb : Int) else infOf eb fb := by
  rw [order, show c % 2 ^ (eb + fb) = infOf eb fb from h]

theorem abs_order_lt {eb fb c : Nat} (h : finite eb fb c = true) :
    -(infOf eb fb : Int) < order eb fb c ∧ order eb fb c < infOf eb fb := by
  have := (finite_iff ..).1 h
  rw [order]
  split <;> omega

theorem cmp_fin_inf (s t : Bool) (m : Nat) (e : Int) : (FV.fin s m e).cmp (.inf t) = if t then 1 else -1 := rfl
theorem cmp_inf_fin (s t : Bool) (m : Nat) (e : Int) : (FV.inf s).cmp (.fin t m e) = if s then -1 else 1 := rfl
theorem cmp_inf_inf (s t : Bool) : (FV.inf s).cmp (.inf t) = if s == t then 0 else if s then -1 else 1 := rfl

/-- Codes that are no NaNs compare by their order. -/
theorem cmp_decode {x y : Nat} (hx : isNan 8 23 x = false) (hy : isNan 8 23 y = false) :
    (Fmt.f32.decode x).cmp (Fmt.f32.decode y) = (order32 x - order32 y).sign := by
  have hinf : (0 : Int) < infOf 8 23 := by decide
  have hx' := (code_cases 8 23 x).imp_right (Or.resolve_right · (by simp [hx]))
  have hy' := (code_cases 8 23 y).imp_right (Or.resolve_right · (by simp [hy]))
  rw [order32, order32]
  rcases hx' with fx | ix <;> rcases hy' with fy | iy
  · obtain ⟨m, e, hdx, hvx, -⟩ := exists_decode_f32 fx
    obtain ⟨n, g, hdy, hvy, -⟩ := exists_decode_f32 fy
    rw [hdx, hdy]
    have hsx := value_eq_sign_mul_abs 8 23 x
    have hsy := value_eq_sign_mul_abs 8 23 y
    exact cmp_fin (by rw [hvx, hvy, value32, value32, ← hsx, ← hsy, order_lt_iff])
      (by rw [hvx, hvy, value32, value32, ← hsx, ← hsy, order_lt_iff])
  · obtain ⟨m, e, hdx, -⟩ := exists_decode_f32 fx
    obtain ⟨hlo, hhi⟩ := abs_order_lt fx
    rw [hdx, decode_f32_inf iy, order_of_isInf iy, cmp_fin_inf]
    split
    · exact (Int.sign_eq_one_of_pos (by omega)).symm
    · exact (Int.sign_eq_neg_one_of_neg (by omega)).symm
  · obtain ⟨n, g, hdy, -⟩ := exists_decode_f32 fy
    obtain ⟨hlo, hhi⟩ := abs_order_lt fy
    rw [hdy, decode_f32_inf ix, order_of_isInf ix, cmp_inf_fin]
    split
    · exact (Int.sign_eq_neg_one_of_neg (by omega)).symm
    · exact (Int.sign_eq_one_of_pos (by omega)).symm
  · rw [decode_f32_inf ix, decode_f32_inf iy, order_of_isInf ix, order_of_isInf iy, cmp_inf_inf]
    cases negative 8 23 x <;> cases negative 8 23 y <;> decide

/-! ### Relations (R280) -/

section
variable (x y : Nat)

/-- A relation of the order of two codes, which no NaN satisfies, is tested on the sign of their comparison. -/
theorem relation_decode (r : Int → Bool) (p : Int → Int → Prop) [DecidableRel p] (h : ∀ u v : Int, r (u - v).sign = true ↔ p u v) :
    (!(Fmt.f32.decode x).isNan && !(Fmt.f32.decode y).isNan && r ((Fmt.f32.decode x).cmp (Fmt.f32.decode y)))
      = (!(isNan 8 23 x || isNan 8 23 y) && decide (p (order32 x) (order32 y))) := by
  rw [isNan_decode_f32, isNan_decode_f32, ← Bool.not_or]
  cases hn : isNan 8 23 x || isNan 8 23 y
  · obtain ⟨hx, hy⟩ := Bool.or_eq_false_iff.1 hn
    rw [cmp_decode hx hy, Bool.not_false, Bool.true_and, Bool.true_and, Bool.eq_iff_iff, h, decide_eq_true_iff]
  · rfl

theorem eq_decode : (Fmt.f32.decode x).eq (Fmt.f32.decode y)
    = (!(isNan 8 23 x || isNan 8 23 y) && decide (order32 x = order32 y)) :=
  relation_decode x y (· == 0) (· = ·) fun u v => by simp [sub_eq_zero]

theorem lt_decode : (Fmt.f32.decode x).lt (Fmt.f32.decode y)
    = (!(isNan 8 23 x || isNan 8 23 y) && decide (order32 x < order32 y)) :=
  relation_decode x y (· == -1) (· < ·) fun u v => by simp

theorem le_decode : (Fmt.f32.decode x).le (Fmt.f32.decode y)
    = (!(isNan 8 23 x || isNan 8 23 y) && decide (order32 x ≤ order32 y)) :=
  relation_decode x y (· != 1) (· ≤ ·) fun u v => by simp

/-- A relation that no NaN satisfies, as an integer result. -/
theorem toNat_relation (nan : Bool) (p : Prop) [Decidable p] : (!nan && decide p).toNat = if nan then 0 else if p then 1 else 0 := by
  cases nan <;> by_cases h : p <;> simp [h]

theorem below_decode (h : (isNan 8 23 x || isNan 8 23 y) = false) : (Fmt.f32.decode x).below (Fmt.f32.decode y) = true
    ↔ order32 x < order32 y ∨ (order32 x = order32 y ∧ negative 8 23 x = true ∧ negative 8 23 y = false) := by
  obtain ⟨hx, hy⟩ := Bool.or_eq_false_iff.1 h
  rw [FV.below, lt_decode, eq_decode, h, sign_decode_f32 hx, sign_decode_f32 hy]
  simp [and_assoc]

end

/-- Codes of one sign with one order are the same. -/
theorem code_eq_of_order {x y : Nat} (hx : x < 2 ^ 32) (hy : y < 2 ^ 32) (ho : order32 x = order32 y)
    (hs : negative 8 23 x = negative 8 23 y) : x = y := by
  have hmod : x % 2 ^ 31 = y % 2 ^ 31 := by
    rw [order32, order32, order, order, hs] at ho
    split at ho <;> omega
  rw [← Fmt.signed_negative (f := Fmt.f32) hx, ← Fmt.signed_negative (f := Fmt.f32) hy]
  exact congrArg₂ _ hs hmod

theorem fMin_eq {x y : Nat} (hx : x < 2 ^ 32) (hy : y < 2 ^ 32) : fMin Fmt.f32 x y = if isNan 8 23 x || isNan 8 23 y then nan32
    else if order32 x < order32 y ∨ (order32 x = order32 y ∧ negative 8 23 x = true) then x else y := by
  simp only [fMin, isNan_decode_f32]
  cases h : isNan 8 23 x || isNan 8 23 y
  · simp only [Bool.false_eq_true, if_false]
    rw [if_congr (below_decode y x (by rw [Bool.or_comm, h])) rfl rfl]
    rcases lt_trichotomy (order32 x) (order32 y) with ho | ho | ho
    · rw [if_neg (by omega), if_pos (.inl ho)]
    · have hsame := code_eq_of_order hx hy ho
      cases hsx : negative 8 23 x <;> cases hsy : negative 8 23 y <;> simp_all
    · rw [if_pos (.inl ho), if_neg (by omega)]
  · rfl

theorem fMax_eq {x y : Nat} (hx : x < 2 ^ 32) (hy : y < 2 ^ 32) : fMax Fmt.f32 x y = if isNan 8 23 x || isNan 8 23 y then nan32
    else if order32 y < order32 x ∨ (order32 y = order32 x ∧ negative 8 23 y = true) then x else y := by
  simp only [fMax, isNan_decode_f32]
  cases h : isNan 8 23 x || isNan 8 23 y
  · simp only [Bool.false_eq_true, if_false]
    rw [if_congr (below_decode x y h) rfl rfl]
    rcases lt_trichotomy (order32 x) (order32 y) with ho | ho | ho
    · rw [if_pos (.inl ho), if_neg (by omega)]
    · have hsame := code_eq_of_order hx hy ho
      cases hsx : negative 8 23 x <;> cases hsy : negative 8 23 y <;> simp_all
    · rw [if_neg (by omega), if_pos (.inl ho)]
  · rfl

/-! ### Classes (R281) -/

/-- The class of an F32 code: the index of its bit in the mask of FCLS. -/
theorem fclsMask_eq {x : Nat} (hx : x < 2 ^ 32) : fclsMask x = 2 ^ (if isNan 8 23 x then 8 else
    let k := if !finite 8 23 x then 0 else if x % 2 ^ 31 = 0 then 3 else if expOf 8 23 x = 0 then 2 else 1
    if negative 8 23 x then k else 7 - k) := by
  have hsg : (x / 2 ^ 31 == 1) = negative 8 23 x := by
    rw [negative, Bool.eq_iff_iff, beq_iff_eq, beq_iff_eq]; omega
  rcases code_cases 8 23 x with h | h | h
  · obtain ⟨m, e, hdec, -, hm⟩ := exists_decode_f32 h
    have hnan : isNan 8 23 x = false := by simp [isNan, h]
    have hexp : expOf 8 23 x = 0 ↔ x % 2 ^ 31 < 2 ^ 23 := by rw [expOf_eq]; omega
    simp only [fclsMask, f32, hdec, hsg, hm, hnan, h, hexp, Bool.false_eq_true, if_false, Bool.not_true]
    by_cases h0 : x % 2 ^ 31 = 0
    · simp only [if_pos h0]
      cases negative 8 23 x <;> rfl
    · by_cases hsub : x % 2 ^ 31 < 2 ^ 23
      · simp only [if_neg h0, if_pos hsub]
        cases negative 8 23 x <;> rfl
      · simp only [if_neg h0, if_neg hsub]
        cases negative 8 23 x <;> rfl
  · obtain ⟨hnan, hfin⟩ := not_nan_not_finite_of_isInf h
    simp only [fclsMask, f32, decode_f32_inf h, hnan, hfin]
    cases negative 8 23 x <;> rfl
  · simp only [fclsMask, f32, decode_f32_nan h, h]; rfl

/-! ### The statement -/

theorem floatTestResults : FloatTestResults := by
  intro s st d a b hq x y nan gives below
  have hx : x < 2 ^ 32 := code32_lt _
  have hy : y < 2 ^ 32 := code32_lt _
  have two {f : Nat → Nat → Nat × Flags} {c : Nat} {fl : Flags} (h : f x y = (c, fl)) :
      (Host.Outcome.next (s.fop2 st d a b f) : Out) = .next (s.issued st 4 fl [(2, s.wr d (BitVec.ofNat 64 c) (s.tainted [a, b]))]) :=
    congrArg _ (State.fop2_quiet hq st d a b f h)
  have flags : (if (Fmt.f32.decode x).isNan || (Fmt.f32.decode y).isNan then Flags.invalid else .none) = if nan then .invalid else .none := by
    rw [isNan_decode_f32, isNan_decode_f32]
  refine ⟨?min, ?max, ?eq, ?lt, ?le, ?cls⟩
  case min => exact two (Prod.ext (fMin_eq hx hy) rfl)
  case max => exact two (Prod.ext (fMax_eq hx hy) rfl)
  case eq => exact two (Prod.ext ((congrArg Bool.toNat (eq_decode x y)).trans (toNat_relation ..)) rfl)
  case lt => exact two (Prod.ext ((congrArg Bool.toNat (lt_decode x y)).trans (toNat_relation ..)) flags)
  case le => exact two (Prod.ext ((congrArg Bool.toNat (le_decode x y)).trans (toNat_relation ..)) flags)
  case cls =>
    show Host.Outcome.next (s.fop st d [a] (fclsMask (f32Code (s.reg a).val), .none)) = _
    rw [State.fop_quiet hq, f32Code_eq, fclsMask_eq hx]
    rfl

end Sys2Proof.Machine
end

/-! ## FCVT (R96, R282) -/

section

open Sys2Proof Sys2Proof.Machine Sys2Proof.Spec

namespace Sys2Proof.Machine

theorem execFcvt_quiet {s : State} (h : s.Quiet) (st : Stall) (d a : Reg) (pair : BitVec 4) (sat : Bool) (rm : BitVec 2) :
    let r := fcvtWord pair.toNat (Rm.ofCode rm.toNat) sat (s.reg a).val
    execFcvt st d a pair sat rm s = .next (s.issued st 4 r.2 [(2, s.wr d r.1 (s.reg a).poison)]) := by
  rw [execFcvt, State.readCheck_quiet h, State.finishF_quiet h]

/-- What FCVT to an integer of W bits gives: 0 for a NaN, the bound of its sign for an infinity, else the rounded number, within the
bounds. -/
theorem convInt_converts (W : Nat) (rm : BitVec 2) (x : Nat) :
    let r := convInt W (Rm.ofCode rm.toNat) (Fmt.f32.decode x)
    let n := roundTo rm (value32 x)
    (isNan 8 23 x = true → r = (0, .invalid))
    ∧ (x % 2 ^ 31 = 0x7F800000 → r = (if negative 8 23 x then -2 ^ (W - 1) else 2 ^ (W - 1) - 1, .invalid))
    ∧ (finite 8 23 x = true → r = (max (-2 ^ (W - 1)) (min (2 ^ (W - 1) - 1) n),
        if n < -2 ^ (W - 1) ∨ 2 ^ (W - 1) - 1 < n then .invalid else ⟨false, false, false, decide ((n : ℚ) ≠ value32 x)⟩)) := by
  intro r n
  refine ⟨fun h => ?_, fun h => ?_, convInt_finite W rm⟩
  · simp only [r, decode_f32_nan h]; rfl
  · simp only [r, decode_f32_inf h]; rfl

/-! ### Codes fit their formats -/

theorem infOf_add (eb fb : Nat) : infOf eb fb + 2 ^ fb = 2 ^ (eb + fb) := by
  rw [infOf, Nat.sub_mul, ← pow_add, Nat.one_mul, Nat.sub_add_cancel (Nat.pow_le_pow_right (by decide) (Nat.le_add_left ..))]

section
variable {f : Fmt}

theorem signed_lt (s : Bool) {c : Nat} (hc : c ≤ infOf f.eb f.fb) : f.signed s c < 2 ^ (1 + f.eb + f.fb) := by
  have hadd := infOf_add f.eb f.fb
  have hpos := Nat.two_pow_pos f.fb
  rw [signed_eq, Nat.add_assoc, Nat.add_comm 1, pow_succ]
  split <;> omega

variable (hf : f.Ieee)
include hf

theorem maxCode_le : f.maxCode ≤ infOf f.eb f.fb := hf.maxCode_succ ▸ Nat.le_succ _

theorem nanCode_lt : f.nanCode < 2 ^ (1 + f.eb + f.fb) := by
  have hhalf : 2 ^ (f.fb - 1) < 2 ^ f.fb := Nat.pow_lt_pow_right (by decide) (Nat.sub_lt hf.fb_pos Nat.one_pos)
  have hadd := infOf_add f.eb f.fb
  rw [hf.nanCode_eq, nanOf, Nat.add_assoc, Nat.add_comm 1, pow_succ]
  omega

theorem roundFmt_lt (rm : Rm) (sat neg : Bool) (m : Nat) (e : Int) (sticky : Bool) :
    (roundFmt f rm sat neg m e sticky).1 < 2 ^ (1 + f.eb + f.fb) := by
  simp only [roundFmt, hf.infCode_eq]
  split
  · exact signed_lt neg ((ite_le_sup _ _ _).trans (sup_le (maxCode_le hf) le_rfl))
  · exact signed_lt neg ((Nat.not_lt.1 ‹_›).trans (maxCode_le hf))

theorem rn_lt (v : FV) : (v.rn f).1 < 2 ^ (1 + f.eb + f.fb) := by
  cases v with
  | nan => exact nanCode_lt hf
  | inf s => rw [rn_inf hf]; exact signed_lt s le_rfl
  | fin s m e => exact roundFmt_lt hf ..

theorem convFmt_lt (rm : Rm) (sat : Bool) (v : FV) : (convFmt f rm sat v).1 < 2 ^ (1 + f.eb + f.fb) := by
  cases v with
  | nan => exact nanCode_lt hf
  | inf s =>
    simp only [convFmt, hf.infCode_eq]
    split
    · exact signed_lt s (maxCode_le hf)
    · exact signed_lt s le_rfl
  | fin s m e => exact roundFmt_lt hf ..

end

theorem natAbs_toInt_le (v : BitVec 32) : v.toInt.natAbs ≤ 2 ^ 31 := by
  have := v.isLt
  rw [BitVec.toInt_eq_toNat_cond]
  split <;> omega

/-! ### The statement -/

theorem conversionResults : ConversionResults := by
  intro s st d a sat rm hq x h i n gives toInt code
  have cvt {pair : BitVec 4} {w : Word} {fl : Flags} (hw : fcvtWord pair.toNat (Rm.ofCode rm.toNat) sat (s.reg a).val = (w, fl)) :
      gives pair w fl := by
    refine (execFcvt_quiet hq st d a pair sat rm).trans ?_
    rw [hw]
  have hx : f32 (f32Code (s.reg a).val) = Fmt.f32.decode x := by rw [f32Code_eq]; rfl
  have hi : ((s.reg a).val.setWidth 32).toInt = i := toInt_setWidth_sval 32 _
  have hh : fieldOf (s.reg a).val 0 16 = h := by rw [fieldOf, pow_zero, Nat.div_one]
  have int {pair : BitVec 4} {W : Nat} (hp : fcvtWord pair.toNat (Rm.ofCode rm.toNat) sat (s.reg a).val
      = (BitVec.ofInt 64 (convInt W (Rm.ofCode rm.toNat) (Fmt.f32.decode x)).1, (convInt W (Rm.ofCode rm.toNat) (Fmt.f32.decode x)).2)) :
      toInt pair W := by
    obtain ⟨hnan, hinf, hfin⟩ := convInt_converts W rm x
    exact ⟨fun hc => cvt (by rw [hp, hnan hc]; rfl), fun hc => cvt (by rw [hp, hinf hc]), fun hc => cvt (by rw [hp, hfin hc])⟩
  refine ⟨?toInt32, ?toInt64, ?fromInt, ?toB16, ?fromB16, ?toF16, ?fromF16⟩
  case toInt32 => exact int (by rw [← hx]; rfl)
  case toInt64 => exact int (by rw [← hx]; rfl)
  case fromInt => exact ⟨_, _, cvt rfl, roundFmt_lt Fmt.ieee_f32 .., by rw [← hi]; exact intConverts rm (natAbs_toInt_le _)⟩
  case toB16 => exact ⟨_, _, cvt rfl, (convFmt_lt Fmt.ieee_b16 ..).trans (by decide), by rw [hx]; exact convertsTo_b16 rm sat x⟩
  case fromB16 => exact ⟨_, _, cvt rfl, rn_lt Fmt.ieee_f32 _, by rw [hh]; exact widened_b16 h⟩
  case toF16 => exact ⟨_, _, cvt rfl, (convFmt_lt Fmt.ieee_f16 ..).trans (by decide), by rw [hx]; exact convertsTo_f16 rm sat x⟩
  case fromF16 => exact ⟨_, _, cvt rfl, rn_lt Fmt.ieee_f32 _, by rw [hh]; exact widened_f16 h⟩

end Sys2Proof.Machine

/-- Settles O16: special values by the exact operations on them, tests by the order of codes, conversions by the rounding of an exact
magnitude. -/
theorem floatSpecialTestConvertResults : Obligations.FloatSpecialTestConvertResults :=
  ⟨floatSpecialResults, floatTestResults, conversionResults⟩


end
